-- ==== Sys2Proof/Word.lean ====
section
/-! DEFINITION. The word types of the TK9 model: bytes of memory and packets, and the 64-bit registers of R5. -/
namespace Sys2Proof

/-- One byte of memory, of a packet or of a descriptor. -/
abbrev Byte := BitVec 8

/-- One register of the control BAR (R5). -/
abbrev Word := BitVec 64

/-- A finite map kept as a list of key and value pairs, one pair a key. -/
abbrev Map (K V : Type) := List (K × V)

end Sys2Proof
end

