-- ==== Sys2Proof/Syntax.lean ====
section
/-! DEFINITION. The commands the block takes: the opcode rows carry a queue and the packet that starts, the event rows carry what arrives. -/
namespace Sys2Proof

/-- A queue: one of the 4,096 numbered queues of contexts, or a function's admin queue (function 0 is the PF). -/
inductive QueueId where
  | ctx (n : Fin 4096)
  | admin (f : Fin 33)
  deriving DecidableEq, Repr

/-- A command packet as its bytes: the 64-byte header of R50, then the parameters. -/
structure Packet where
  bytes : List Byte
  deriving DecidableEq, Repr

/-- A Gedralink packet after its header (R412): flags, tag, port of first issue, partition, payload, and whether an encrypted payload's tag holds (R502). -/
structure FabPacket where
  reissue : Bool
  xo : Bool
  enc : Bool
  tagOk : Bool
  tag : Fin 4096
  orig : Fin 36
  part : Fin 32
  payload : List Byte
  deriving DecidableEq, Repr

/-- The registers that the admin-queue and event-ring enables govern (R568). -/
inductive RingReg where
  | admqBase | admqCfg | evtBase | evtCfg
  deriving DecidableEq, Repr

/-- Width and half of a register access (R6, R7); `bad` is any other width or alignment. -/
inductive Access where
  | full | low | high | bad
  deriving DecidableEq, Repr

/-- A barrier that is ready: one of a launch (device barrier id), or one that ends a command. -/
inductive BarKey where
  | id (n : Fin 1024)
  | cmd (uid : Nat)
  deriving DecidableEq, Repr

/-- A failed residue check (R150): the logical row and column of the cell. -/
structure Residue where
  row : Fin 64
  col : Fin 64
  deriving DecidableEq, Repr

/-- How the memory or the host answers a transfer. -/
inductive Landing where
  | ok | error | poison
  deriving DecidableEq, Repr

/-- The CAPS_DATA payload of R242. -/
structure Caps where
  expander : BitVec 64
  capGib : BitVec 32
  ops : BitVec 16
  xoSlots : BitVec 16
  epoch : BitVec 32
  maxLen : BitVec 8
  deriving DecidableEq, Repr

/-- XO_STATE answers (R245). -/
inductive XoAnswer where
  | unknown | applied | notReceived
  deriving DecidableEq, Repr

/-- Page request responses (R458). -/
inductive PageResp where
  | success | invalid | failure
  deriving DecidableEq, Repr

/-- Host-to-device snoops of the host-line cache. -/
inductive Snoop where
  | data | inv | cur
  deriving DecidableEq, Repr

/-- What a counted fault names (R22, R29, R470): a unit, with the array row and column that erred; an error corrected in a block that counts with a unit without being the unit's own (L3); an uncorrectable granule of a core store bank, of an L3 line or of a DRAM row, with its place; a row, or a bond group or data lane with the row that erred. -/
inductive FaultSite where
  | unit (id : BitVec 32) (row : Nat) (col : Nat)
  | corrected (id : BitVec 32)
  | bankGranule (id : BitVec 32) (offset : Nat)
  | cacheGranule (id : BitVec 32) (ctx : Nat) (addr : Nat)
  | rowGranule (loc : BitVec 64) (ctx : Nat) (addr : Nat)
  | row (loc : BitVec 64)
  | group (id : BitVec 32) (row : BitVec 64)
  | lane (channel : BitVec 32) (lane : Fin 64) (row : BitVec 64)
  deriving DecidableEq, Repr

/-- The states of R37. -/
inductive UnitState where
  | active | spare | retiring | retired | quarantined
  deriving DecidableEq, Repr

/-- What a patrol scrub step finds (R471). -/
inductive ScrubFinding where
  | corrected (row : BitVec 64)
  | twin (row : BitVec 64) (index : Fin 16)
  | uncorrectable (ctx : Fin 256) (addr : Nat)
  | passEnd
  deriving DecidableEq, Repr

/-- Which temperatures a SENSOR_READING carries, in tenths of a degree. -/
inductive SensorKind where
  | logic | bonded | stack
  deriving DecidableEq, Repr

/-- SPDM requests that change or read endpoint state (R505, R506). -/
inductive SpdmReq where
  | keyExchange | endSession (session : Fin 4) | keyUpdate (session : Fin 4) | heartbeat (session : Fin 4)
  | getMeasurements (index : Fin 256) | getCertificate (slot : Fin 8) | challenge | chunk | unsupported
  deriving DecidableEq, Repr

/-- Requests to Riser from REPAIR_REQUEST and the management endpoint (R488). -/
inductive RiserAction where
  | retire | reconcile | selfTest | remapRow
  deriving DecidableEq, Repr

/-- Configuration requests of a host link that change device state (R450, R456 to R458). -/
inductive CfgReq where
  | numVFs (n : Fin 33) | atsEnable (on : Bool) | priEnable (on : Bool) (alloc : Nat) | ideEnable (on : Bool)
  | msixMask (fn : Fin 33) (vector : Fin 2048) (on : Bool)
  deriving DecidableEq, Repr

/-- What start-up meets (R550 to R552): which images, calibration copies, units and trainings pass. -/
structure StartupResults where
  romCoreOk : Bool
  slotOk : Bool × Bool
  slotVersion : BitVec 32
  calOk : Bool × Bool
  failedUnits : List (BitVec 32)
  t1Ok : Bool
  shortStack : Bool
  bridgeOk : Bool
  pllOk : Bool
  ledgerHeaderOk : Bool
  ledgerOwn : Bool
  ledgerGood : Nat
  anyLight : Bool
  deriving DecidableEq, Repr

/-- What a PACKET_FETCH row carries: the queue, and the slot whose untranslated host read completes with an error, if one does (R47, R457, R572). -/
structure FetchRead where
  (queue : QueueId) (failing : Option (Fin 8))
  deriving DecidableEq, Repr

/-- How a TRAIN flit arrived: the decoder's outcome as in DATA_FLIT, and the power received on the wavelength, i8 in 0.1 dBm (R416, R425). -/
structure TrainRead where
  (fec : Option (Fin 31)) (rx : BitVec 8)
  deriving DecidableEq, Repr

/-- A register write: the value written, and the bits an event sets in the same cycle (R8, R9). -/
structure BusWrite where
  (value : BitVec 64) (event : BitVec 64)
  deriving DecidableEq, Repr

/-- The commands of the block: one constructor a row of the command table, in its order (docstrings: the rule that governs the row). -/
inductive Instr where
  /-- QUEUE_CREATE (R43). -/
  | queueCreate (q : QueueId) (pkt : Packet)
  /-- QUEUE_DESTROY (R49). -/
  | queueDestroy (q : QueueId) (pkt : Packet)
  /-- QUEUE_START (R49). -/
  | queueStart (q : QueueId) (pkt : Packet)
  /-- QUEUE_STOP (R49). -/
  | queueStop (q : QueueId) (pkt : Packet)
  /-- CTX_CREATE (R496). -/
  | ctxCreate (q : QueueId) (pkt : Packet)
  /-- CTX_DESTROY (R499). -/
  | ctxDestroy (q : QueueId) (pkt : Packet)
  /-- CTX_PREEMPT (R78). -/
  | ctxPreempt (q : QueueId) (pkt : Packet)
  /-- CTX_SET_MODE (R373). -/
  | ctxSetMode (q : QueueId) (pkt : Packet)
  /-- PART_CARVE (R493). -/
  | partCarve (q : QueueId) (pkt : Packet)
  /-- PART_RESET (R495). -/
  | partReset (q : QueueId) (pkt : Packet)
  /-- NOP (R59). -/
  | nop (q : QueueId) (pkt : Packet)
  /-- TICKET_RELEASE (R72). -/
  | ticketRelease (q : QueueId) (pkt : Packet)
  /-- OBJ_CREATE (R224). -/
  | objCreate (q : QueueId) (pkt : Packet)
  /-- OBJ_FREE (R226). -/
  | objFree (q : QueueId) (pkt : Packet)
  /-- OBJ_SET_POLICY (R227). -/
  | objSetPolicy (q : QueueId) (pkt : Packet)
  /-- OBJ_QUERY (R227). -/
  | objQuery (q : QueueId) (pkt : Packet)
  /-- PROG_LOAD (R99). -/
  | progLoad (q : QueueId) (pkt : Packet)
  /-- PROG_LAUNCH (R100). -/
  | progLaunch (q : QueueId) (pkt : Packet)
  /-- PLAN_LOAD (R198). -/
  | planLoad (q : QueueId) (pkt : Packet)
  /-- PLAN_LAUNCH (R199). -/
  | planLaunch (q : QueueId) (pkt : Packet)
  /-- FILL_GROUP_CREATE (R574). -/
  | fillGroupCreate (q : QueueId) (pkt : Packet)
  /-- FILL_SUBMIT (R82). -/
  | fillSubmit (q : QueueId) (pkt : Packet)
  /-- FILL_FLUSH (R82). -/
  | fillFlush (q : QueueId) (pkt : Packet)
  /-- FILL_GROUP_DESTROY (R575). -/
  | fillGroupDestroy (q : QueueId) (pkt : Packet)
  /-- FILL_DEADLINE_EXPIRY (R82). -/
  | fillDeadlineExpiry (p : Fin 32) (g : Fin 64)
  /-- STREAM (R191). -/
  | stream (q : QueueId) (pkt : Packet)
  /-- FUSED (R195). -/
  | fused (q : QueueId) (pkt : Packet)
  /-- FENCE (R203). -/
  | fence (q : QueueId) (pkt : Packet)
  /-- HOST_COPY (R192). -/
  | hostCopy (q : QueueId) (pkt : Packet)
  /-- FILL_CONST (R192). -/
  | fillConst (q : QueueId) (pkt : Packet)
  /-- REDUCE_SCATTER (R433). -/
  | reduceScatter (q : QueueId) (pkt : Packet)
  /-- ALL_GATHER (R434). -/
  | allGather (q : QueueId) (pkt : Packet)
  /-- ALL_REDUCE (R434). -/
  | allReduce (q : QueueId) (pkt : Packet)
  /-- BROADCAST (R431). -/
  | broadcast (q : QueueId) (pkt : Packet)
  /-- BARRIER (R117). -/
  | barrier (q : QueueId) (pkt : Packet)
  /-- SCALE_VOTE (R350). -/
  | scaleVote (q : QueueId) (pkt : Packet)
  /-- EMB_TABLE_CREATE (R305). -/
  | embTableCreate (q : QueueId) (pkt : Packet)
  /-- EMB_LOOKUP (R312). -/
  | embLookup (q : QueueId) (pkt : Packet)
  /-- EMB_UPDATE (R322). -/
  | embUpdate (q : QueueId) (pkt : Packet)
  /-- YARROW_LOAD (R321). -/
  | yarrowLoad (q : QueueId) (pkt : Packet)
  /-- YARROW_WRITEBACK (R321). -/
  | yarrowWriteback (q : QueueId) (pkt : Packet)
  /-- CRU_GROUP_CREATE (R333). -/
  | cruGroupCreate (q : QueueId) (pkt : Packet)
  /-- CRU_APPLY (R345). -/
  | cruApply (q : QueueId) (pkt : Packet) (faults : List Nat)
  /-- CRU_SET_SCALE (R354). -/
  | cruSetScale (q : QueueId) (pkt : Packet)
  /-- CRU_DEFERRED_FLUSH (R347). -/
  | cruDeferredFlush (q : QueueId) (pkt : Packet)
  /-- DET_LEDGER_READ (R380). -/
  | detLedgerRead (q : QueueId) (pkt : Packet)
  /-- DIGEST (R385). -/
  | digest (q : QueueId) (pkt : Packet)
  /-- MATCH_PAIR (R386). -/
  | matchPair (q : QueueId) (pkt : Packet)
  /-- MATCH_UNPAIR (R394). -/
  | matchUnpair (q : QueueId) (pkt : Packet)
  /-- REPAIR_REQUEST (R488). -/
  | repairRequest (q : QueueId) (pkt : Packet)
  /-- UNIT_QUERY (R489). -/
  | unitQuery (q : QueueId) (pkt : Packet)
  /-- SCRUB (R490). -/
  | scrub (q : QueueId) (pkt : Packet)
  /-- FW_UPDATE (R486). -/
  | fwUpdate (q : QueueId) (pkt : Packet)
  /-- CMP_INDEX (R286). -/
  | cmpIndex (q : QueueId) (pkt : Packet)
  /-- CMP_VERIFY (R288). -/
  | cmpVerify (q : QueueId) (pkt : Packet)
  /-- EXPORT_SHARD (R361). -/
  | exportShard (q : QueueId) (pkt : Packet)
  /-- CAMPION_OPEN (R363). -/
  | campionOpen (q : QueueId) (pkt : Packet)
  /-- CAMPION_CLOSE (R368). -/
  | campionClose (q : QueueId) (pkt : Packet)
  /-- DOORBELL_WRITE (R46). -/
  | doorbellWrite (fn : Fin 33) (q : QueueId) (value : BitVec 32)
  /-- ADMIN_QUEUE_CFG_WRITE (R568). -/
  | adminQueueCfgWrite (fn : Fin 33) (link : Fin 2) (which : RingReg) (access : Access) (value : BitVec 64)
  /-- PACKET_FETCH (R47); the slot of the packet whose untranslated read completes with an error, if one does (R457, R572). -/
  | packetFetch (q : FetchRead)
  /-- COMMAND_DISPATCH (R54). -/
  | commandDispatch (q : QueueId)
  /-- COMMAND_COMPLETE (R61). -/
  | commandComplete (uid : Nat)
  /-- COMMAND_TIMEOUT (R79). -/
  | commandTimeout (uid : Nat)
  /-- SEQ_NOP (R98). -/
  | seqNop (c : Fin 40)
  /-- END (R98). -/
  | endProg (c : Fin 40)
  /-- LOOP_BEGIN (R98). -/
  | loopBegin (c : Fin 40)
  /-- LOOP_END (R98). -/
  | loopEnd (c : Fin 40)
  /-- YIELD (R108). -/
  | yield (c : Fin 40)
  /-- BAR (R112). -/
  | bar (c : Fin 40)
  /-- BARRIER_RELEASE (R112). -/
  | barrierRelease (what : BarKey)
  /-- TILE (R121). -/
  | tile (c : Fin 40) (a : Fin 4) (fault : Option Residue)
  /-- CONV (R148). -/
  | conv (c : Fin 40) (a : Fin 4) (fault : Option Residue)
  /-- DRAIN (R576). -/
  | drain (c : Fin 40) (a : Fin 4) (fault : Option Residue)
  /-- VEC (R161). -/
  | vec (c : Fin 40)
  /-- STREAM_OPERATION (R189). -/
  | streamOperation (c : Fin 40) (out : Bool)
  /-- LADLE (R257). -/
  | ladle (c : Fin 40) (fault : Option Nat)
  /-- MADD (R270). -/
  | madd (c : Fin 40)
  /-- LOOKUP (R312). -/
  | lookup (c : Fin 40)
  /-- UPDATE (R322). -/
  | update (c : Fin 40)
  /-- HASH (R306). -/
  | hash (c : Fin 40)
  /-- OPERATION_COMPLETE (R103). -/
  | operationComplete (c : Fin 40) (e : Fin 9)
  /-- PHASE_SWITCH (R91). -/
  | phaseSwitch (c : Fin 40)
  /-- MOVE_SLOT_GRANT (R94). -/
  | moveSlotGrant (p : Fin 32)
  /-- WATCHDOG_EXPIRY (R102). -/
  | watchdogExpiry (c : Fin 40) (e : Fin 9)
  /-- TRANSFER_LANDED (R186). -/
  | transferLanded (id : Nat) (result : Landing)
  /-- PARK_LIMIT_EXPIRY (R206). -/
  | parkLimitExpiry (id : Nat)
  /-- FAR_RETRY_REISSUE (R240). -/
  | farRetryReissue (orig : Fin 8) (tag : Fin 1048576)
  /-- RUNNER_INTERVAL (R229). -/
  | runnerInterval
  /-- REFRESH_WINDOW (R376). -/
  | refreshWindow
  /-- FAR_TIMEOUT (R239). -/
  | farTimeout (orig : Fin 8) (tag : Fin 1048576)
  /-- RD_DATA (R245). -/
  | rdData (port : Fin 8) (fromCache : Bool) (orig : Fin 8) (tag : Fin 1048576) (poison : BitVec 64) (data : List Byte)
  /-- MEM_ACK_REPLY (R246). -/
  | memAckReply (port : Fin 8) (fromCache : Bool) (orig : Fin 8) (tag : Fin 1048576)
  /-- RETRY_REPLY (R240). -/
  | retryReply (port : Fin 8) (orig : Fin 8) (tag : Fin 1048576) (us : BitVec 16)
  /-- ERROR_REPLY (R239). -/
  | errorReply (port : Fin 8) (orig : Fin 8) (tag : Fin 1048576) (code : BitVec 16)
  /-- CAPS_DATA (R242). -/
  | capsData (port : Fin 8) (caps : Caps)
  /-- PONG (R244). -/
  | pong (port : Fin 8) (orig : Fin 8) (tag : Fin 1048576)
  /-- XO_STATE (R248). -/
  | xoState (port : Fin 8) (orig : Fin 8) (tag : Fin 1048576) (answer : XoAnswer)
  /-- XO_SLOT_TIMEOUT (R247). -/
  | xoSlotTimeout (orig : Fin 8) (slot : Fin 4096)
  /-- DATA_FLIT (R409), with the symbols that the decoder corrected in the codewords that end with the flit; none where it could not correct one (R400, R401). -/
  | dataFlit (k : Fin 36) (wl : Fin 9) (fec : Option (Fin 31)) (flit : List Byte)
  /-- IDLE_FLIT (R407), with the decoder's outcome as in DATA_FLIT. -/
  | idleFlit (k : Fin 36) (wl : Fin 9) (fec : Option (Fin 31)) (flit : List Byte)
  /-- NAK (R409), with the decoder's outcome as in DATA_FLIT. -/
  | nak (k : Fin 36) (wl : Fin 9) (fec : Option (Fin 31)) (flit : List Byte)
  /-- NAK_RESEND_TIMER (R409). -/
  | nakResendTimer (k : Fin 36)
  /-- RETRAIN (R418). -/
  | retrain (k : Fin 36) (flit : Option (List Byte))
  /-- WIDTH (R419). -/
  | width (k : Fin 36) (flit : Option (List Byte)) (answer : Bool) (width : Fin 9)
  /-- TRAIN (R416), with the decoder's outcome as in DATA_FLIT and the power received on the wavelength, i8 in 0.1 dBm (R425). -/
  | train (k : Fin 36) (wl : Fin 9) (fec : TrainRead) (flit : List Byte)
  /-- CODEWORD_LOCK_LOSS (R418). -/
  | codewordLockLoss (k : Fin 36) (wl : Fin 9)
  /-- PORT_TRAINED (R417). -/
  | portTrained (k : Fin 36)
  /-- TRAINING_LIMIT_EXPIRY (R242). -/
  | trainingLimitExpiry (m : Fin 8)
  /-- LINK_DROP (R421). -/
  | linkDrop (k : Fin 36)
  /-- REQ_LIFE_EXPIRY (R422). -/
  | reqLifeExpiry (k : Fin 36) (tag : Fin 4096)
  /-- CMD_PACKET (R413). -/
  | cmdPacket (k : Fin 36) (pkt : FabPacket)
  /-- COLL_PACKET (R438). -/
  | collPacket (k : Fin 36) (pkt : FabPacket)
  /-- BAR_PACKET (R117). -/
  | barPacket (k : Fin 36) (pkt : FabPacket)
  /-- DIGEST_PACKET (R360). -/
  | digestPacket (k : Fin 36) (pkt : FabPacket)
  /-- ACK_PACKET (R414). -/
  | ackPacket (k : Fin 36) (pkt : FabPacket)
  /-- COMPLETION_CACHE_EXPIRY (R424). -/
  | completionCacheExpiry (k : Fin 36) (tag : Fin 4096)
  /-- MATCH_PAIR_RECEIVE (R386). -/
  | matchPairReceive (k : Fin 36) (pkt : FabPacket)
  /-- MATCH_FORWARD (R387). -/
  | matchForward (k : Fin 36) (pkt : FabPacket)
  /-- MATCH_DIGESTS (R391). -/
  | matchDigests (k : Fin 36) (pkt : FabPacket)
  /-- MATCH_TILES (R391). -/
  | matchTiles (k : Fin 36) (pkt : FabPacket)
  /-- MATCH_UNPAIR_RECEIVE (R394). -/
  | matchUnpairReceive (k : Fin 36) (pkt : FabPacket)
  /-- PAGE_RESPONSE (R458). -/
  | pageResponse (l : Fin 2) (pasid : Option (BitVec 20)) (page : Nat) (resp : PageResp)
  /-- ATS_INVALIDATION (R456). -/
  | atsInvalidation (l : Fin 2) (pasid : Option (BitVec 20)) (page : Nat)
  /-- HOST_WINDOW_ACCESS (R460). -/
  | hostWindowAccess (l : Fin 2) (write : Bool) (off : Nat) (len : Nat) (data : List Byte)
  /-- HOST_SNOOP (R454). -/
  | hostSnoop (d : Fin 2) (pasid : Option (BitVec 20)) (line : Nat) (kind : Snoop) (newData : Option (List Byte))
  /-- HDM_DECODER_COMMIT (R459). -/
  | hdmDecoderCommit (l : Fin 2)
  /-- HOST_LINK_DOWN (R467). -/
  | hostLinkDown (l : Fin 2)
  /-- HOST_LINK_UP (R467). -/
  | hostLinkUp (l : Fin 2) (rate : Fin 7) (width : Fin 17) (flit256 : Bool)
  /-- HOST_HOLD_EXPIRY (R467). -/
  | hostHoldExpiry (l : Fin 2)
  /-- BUCKET_EVENT (R24). -/
  | bucketEvent (cls : Fin 16) (what : FaultSite) (bits : Nat)
  /-- ARRAY_REMAP_APPLY (R151). -/
  | arrayRemapApply (c : Fin 40) (a : Fin 4)
  /-- LOCAL_VIEW_ACK (R475). -/
  | localViewAck (unit : BitVec 32) (st : UnitState) (gen : BitVec 32)
  /-- RISER_REWRITE_TIMER (R475). -/
  | riserRewriteTimer (unit : BitVec 32)
  /-- RISER_COMPARE_TIMER (R475). -/
  | riserCompareTimer (selfTestOk : Bool)
  /-- SPARE_SELF_TEST (R38). -/
  | spareSelfTest (failing : List (BitVec 32))
  /-- PATROL_SCRUB (R471). -/
  | patrolScrub (ctl : Fin 16) (finding : ScrubFinding)
  /-- LASER_POWER_SAMPLE (R403). -/
  | laserPowerSample (i : Fin 14) (power : BitVec 16)
  /-- SENSOR_READING (R33). -/
  | sensorReading (kind : SensorKind) (index : Fin 8) (tenths : List Int)
  /-- LIMIT_STEP_DOWN (R542). -/
  | limitStepDown (cl : Fin 8)
  /-- OVERCURRENT_ALERT (R542). -/
  | overcurrentAlert (vrAlert : Bool)
  /-- OVERCURRENT_RELEASE (R542). -/
  | overcurrentRelease
  /-- POWER_LOOP_TICK (R540). -/
  | powerLoopTick (watts : Nat)
  /-- WIDTH_IDLE_EXPIRY (R541). -/
  | widthIdleExpiry (k : Fin 36)
  /-- CORE_GATE_IDLE (R537). -/
  | coreGateIdle (p : Fin 32)
  /-- PLL_LOCK (R536). -/
  | pllLock (cl : Fin 8) (ok : Bool)
  /-- CAMPION_STALL_EXPIRY (R367). -/
  | campionStallExpiry (j : Fin 16)
  /-- CAMPION_HEAD_WRITE (R366). -/
  | campionHeadWrite (fn : Fin 33) (j : Fin 16) (value : BitVec 64)
  /-- COL_RING_WRITE (R438). -/
  | colRingWrite (fn : Fin 33) (p : Fin 32) (axis : Fin 3) (value : BitVec 64)
  /-- GPIO_CFG_WRITE (R523). -/
  | gpioCfgWrite (fn : Fin 33) (n : Fin 16) (value : BitVec 64)
  /-- GPIO_PARK_END (R522). -/
  | gpioParkEnd (n : Fin 16)
  /-- CLK_CLUSTER_WRITE (R543). -/
  | clkClusterWrite (fn : Fin 33) (k : Fin 8) (value : BitVec 64)
  /-- REGISTER_WRITE (R8). -/
  | registerWrite (fn : Fin 33) (off : BitVec 26) (access : Access) (value : BusWrite)
  /-- READ_CLEAR (R9). -/
  | readClear (fn : Fin 33) (off : BitVec 26) (access : Access) (event : BitVec 64)
  /-- TACH_WINDOW_END (R530). -/
  | tachWindowEnd (k : Fin 8)
  /-- MP_SYNC_PULSE (R525). -/
  | mpSyncPulse
  /-- MP_SYNC_FALL (R525). -/
  | mpSyncFall (lowFor : Nat)
  /-- MP_SYNC_LOCK_TIMEOUT (R525). -/
  | mpSyncLockTimeout
  /-- FW_REJOIN_TIMEOUT (R487). -/
  | fwRejoinTimeout (h : Fin 18)
  /-- SPDM_REQUEST (R506). -/
  | spdmRequest (req : SpdmReq)
  /-- KEY_SLOT_SET (R503). -/
  | keySlotSet (session : Fin 4) (slot : Fin 64) (key : Option (List Byte))
  /-- PLDM_FIRMWARE_UPDATE (R508). -/
  | pldmFirmwareUpdate (image : List Byte)
  /-- MGMT_RISER_REQUEST (R477). -/
  | mgmtRiserRequest (action : RiserAction) (unit : BitVec 32) (gen : BitVec 32) (row : BitVec 64)
  /-- AO_PWRGOOD_RISE (R535). -/
  | aoPwrgoodRise (straps : Fin 8)
  /-- COLD_RESET (R545). -/
  | coldReset
  /-- STARTUP (R550). -/
  | startup (r : StartupResults)
  /-- WARM_RESET (R545). -/
  | warmReset
  /-- RESET_N_RELEASE (R547). -/
  | resetNRelease
  /-- MAIN_PWRGOOD_LOSS (R548). -/
  | mainPwrgoodLoss
  /-- PERST_ASSERT (R545). -/
  | perstAssert (l : Fin 2)
  /-- PERST_RELEASE (R553). -/
  | perstRelease (l : Fin 2)
  /-- AO_REFCLK_LOSS (R519). -/
  | aoRefclkLoss
  /-- GL_REFCLK_LOSS (R519). -/
  | glRefclkLoss
  /-- HL_REFCLK_LOSS (R519). -/
  | hlRefclkLoss (l : Fin 2)
  /-- HOST_CONFIGURATION_REQUEST (R450). -/
  | hostConfigurationRequest (l : Fin 2) (what : CfgReq)
  /-- ATS_TRANSLATION_COMPLETION (R458). -/
  | atsTranslationCompletion (l : Fin 2) (pasid : Option (BitVec 20)) (page : Nat) (ok : Bool)
  /-- BIRSP (R461). -/
  | birsp (l : Fin 2) (line : Nat) (wb : Option (List Byte))
  /-- HOST_LINK_RECOVERY (R470). -/
  | hostLinkRecovery (l : Fin 2)
  /-- GL_REFCLK_RETURN (R519). -/
  | glRefclkReturn
  /-- TACHOMETER_EDGE (R521). -/
  | tachometerEdge (k : Fin 8)
  /-- TAP_OPERATION (R515). -/
  | tapOperation (tms tdi trstN : Bool)
  /-- MP_SYNC_HOLD_END (R525). -/
  | mpSyncHoldEnd
  deriving DecidableEq, Repr

end Sys2Proof
end

