-- ==== Sys2Proof/Config.lean ====
section
/-! DEFINITION. What the spec leaves open: constants with no body, so that nothing can be proved of their values (log entries 5 to 9). -/

namespace Sys2Proof

/-- The events that the chapters name (R509). -/
inductive EventKind where
  | queueFetch | deadlock | portRefused | xoResolved | rowNonfinite | yarrowMulti
  | digestMismatch | crucibleResidue | campionLost | packetDropped | authFail | unitRepair | noSpare
  | quarantine | replayStop | ledgerNew | noLight | scrubPoison | sensorSplit | noSensor | limitEntry
  | capUnmet | thermTrip | aoLoss | tachLow | xlatMulti | remapMulti
  deriving DecidableEq, Repr

namespace Config

/-- A free value: draw n (log entry 5). -/
opaque freeNat : Nat → Nat
/-- The scale byte of block j of row r of an MX tensor Y, for which the VEC descriptor has no field: a free value of the descriptor (R176, log entry 14). -/
opaque yScale : List Nat → Nat → Nat → Nat
/-- The low byte of an event's CODE, which no register table gives (log entry 6). -/
opaque eventLow : EventKind → BitVec 8
/-- The severity of an event whose rule names none (log entry 6). -/
opaque eventSeverity : EventKind → BitVec 2
/-- The fused unique number (R511, log entry 7). -/
opaque unique : BitVec 64
/-- The unique number of the other device of a TK9-1024-LC-P2; none for a TK9-1024-LC (R567, log entry 7). -/
opaque partner : Option (BitVec 64)
/-- The CTR_DRBG's output words (R415, R497, log entry 8). -/
opaque drbg : Nat → Nat
/-- Whether an image passes the signature, anti-rollback and bound-part checks of R486, R504 and R3 (log entry 9). -/
opaque imageOk : List Byte → Bool
/-- The version an image carries. -/
opaque imageVersion : List Byte → Nat
/-- The lowest running version that an image accepts. -/
opaque imageAccepts : List Byte → Nat
/-- The SHA-384 measurement of a byte string (R505). -/
opaque measure : List Byte → Nat
/-- Which value inside the stated error bound a special function returns: function, argument bits (R167, log entry 10). -/
opaque sfPick : Nat → BitVec 32 → Int
/-- The choice of a free physical page number (R219). -/
opaque ppnPick : Nat → Nat
/-- The length of the TAP's instruction register, and whether the BSDL file describes an instruction (R515). -/
opaque tapLength : Nat
opaque tapKnown : List Bool → Bool

end Config
end Sys2Proof
end

