-- ==== Sys2Proof/Machine/State.lean ====
section
/-! DEFINITION. The state of the TK9: every register, queue, buffer, counter, mode and pin the spec gives the block, as plain data, with the queue of waiting commands. -/

namespace Sys2Proof.Machine
open Sys2Proof

/-- Why a step stops. -/
inductive Fault where
  /-- Raised by an opcode command whose packet is not a whole packet (64 bytes of header and PLEN bytes), or whose OPCODE is not its row's: it spells no command of the row (R50, R59). Safe. -/
  | illFormed
  deriving DecidableEq, Repr

/-- Why a command has no meaning. -/
inductive Refusal where
  /-- Raised by an arm whose command is not modelled. Safe. -/
  | notModelled (mnemonic : String)
  deriving DecidableEq, Repr

/-- A byte memory: the listed bytes in rising address order (an unlisted byte reads 0, log entry 3), and the poisoned 64-byte granules in rising order (R472). -/
structure Mem where
  cells : List Host.Cell := []
  poison : List Nat := []
  deriving DecidableEq, Repr

/-! ### Commands and queues (03) -/

/-- The reply of a command: STATUS, DETAIL, EXTRA, PROGRESS of R60. -/
structure Reply where
  status : Nat := 0
  detail : Nat := 0
  extra : Nat := 0
  progress : Nat := 0
  deriving DecidableEq, Repr

/-- What a started command still awaits. -/
inductive Work where
  | none
  | hostPage (link : Nat) (pasid : Option (BitVec 20)) (page : Nat)
  | held
  | launch (id : Nat)
  | jobs
  | plan (layer : Nat)
  | fill (part group : Nat)
  | groupDrain (part group : Nat)
  | queueStop (q : QueueId)
  | coll (id : Nat)
  | vote
  | barrier
  | apply
  | unit (id : Nat)
  | pair
  | unpair
  | roll
  | scrub (mask : Nat)
  | migrate (handle : Nat)
  | preempt (ctx : Nat) (evict : Bool)
  | carve (part : Nat)
  deriving DecidableEq, Repr

/-- The scale rule that a vote takes with it from its dispatch (R351, R354): k_s, DEC, K_MIN, K_MAX and INC_EVERY. -/
structure ScaleRule where
  k : Int := 0
  dec : Int := 0
  kMin : Int := 0
  kMax : Int := 0
  incEvery : Nat := 0
  deriving DecidableEq, Repr

/-- A vote dispatched in this tick: the u32 at LOCAL, and the rings it goes over: axis, LEN, POS (R350, R429). -/
structure Ballot where
  word : Nat
  rings : List (Nat × Nat × Nat)
  deriving DecidableEq, Repr

/-- A started command of a queue; `halt` holds it at its next pre-emption point until QUEUE_START (R78). -/
structure Running where
  uid : Nat
  queue : QueueId
  pkt : Packet
  ctx : Nat := 0
  part : Nat := 0
  fn : Nat := 0
  chill : Bool := false
  startedAt : Nat := 0
  order : Nat := 0
  work : Work := .none
  reply : Option Reply := none
  interim : Bool := false
  halt : Bool := false
  progress : Nat := 0
  poison : Option (Nat × Nat) := none
  matchIndex : Nat := 0
  scale : ScaleRule := {}
  ballot : Option Ballot := none
  lostLine : Bool := false
  resolvedAt : Option Nat := none
  lapsed : Bool := false
  deriving DecidableEq, Repr

/-- A kept reply of the history of R58. -/
structure Done where
  seq : Nat
  reply : Reply
  opcode : Nat
  deriving DecidableEq, Repr

/-- STATE of CMD_Q_STAT (R48). -/
inductive QState where
  | absent | stopped | running | error | preempted
  deriving DecidableEq, Repr

/-- A queue (R43 to R58). -/
structure Queue where
  id : QueueId
  sizeLog2 : Nat := 6
  inDevice : Bool := false
  stopOnError : Bool := true
  vector : Nat := 0
  base : Nat := 0
  peerMask : Nat := 0
  link : Nat := 0
  head : Nat := 0
  tail : Nat := 0
  state : QState := .running
  stopping : Bool := false
  overrun : Bool := false
  backward : Nat := 0
  fetched : List Packet := []
  running : List Running := []
  history : List Done := []
  fetchWait : Option (Nat × Nat) := none
  fenceAfter : Option Bool := none
  deriving DecidableEq, Repr

/-! ### Tickets and fill groups (03) -/

/-- The resource declaration of R67. -/
structure Decl where
  csBytes : Nat := 0
  cores : Nat := 0
  barriers : Nat := 0
  sigMask : Nat := 0
  dense : Nat := 0
  sparse : Nat := 0
  yieldUs : Nat := 0
  t1 : Nat := 0
  t2 : Nat := 0
  t3 : Nat := 0
  pinned : Nat := 0
  deriving DecidableEq, Repr

/-- A core-program operation as its 16 bytes decode (R97). -/
structure Op where
  op : BitVec 8
  engine : BitVec 4
  wait : Option (BitVec 6)
  post : Option (BitVec 6)
  desc : BitVec 32
  imm : BitVec 64
  deriving DecidableEq, Repr

/-- A plan entry (R197): kind, layer end, core range, its packet, ticket and arguments. -/
structure PlanEntry where
  kind : Nat
  layerEnd : Bool
  firstCore : Nat
  cores : Nat
  pkt : List Byte
  ticket : Nat
  args : Nat
  deriving DecidableEq, Repr

/-- What a loading opcode loaded (R71). -/
inductive Payload where
  | prog (ops : List Op)
  | plan (entries : List PlanEntry)
  | fill (group : Nat)
  | tables (tset : Nat)
  | group (gid : Nat)
  deriving DecidableEq, Repr

/-- A live resource ticket (R70 to R72). -/
structure Ticket where
  ctx : Nat
  issuedGen : Nat
  payload : Payload
  decl : Decl
  cores : List Nat := []
  barIds : List Nat := []
  deriving DecidableEq, Repr

/-- A ticket slot of a partition: its generation and the ticket it holds. -/
structure Slot where
  part : Nat
  slot : Nat
  gen : Nat
  live : Option Ticket := none
  deriving DecidableEq, Repr

/-- One request of a fill batch. -/
structure FillReq where
  uid : Nat
  rows : Nat
  inAddr : Nat
  outAddr : Nat
  deriving DecidableEq, Repr

/-- A batch: its requests in the order they joined, and whether its deadline is cancelled (R84). -/
structure Batch where
  id : Nat
  reqs : List FillReq := []
  openedAt : Nat := 0
  noDeadline : Bool := false
  launch : Option Nat := none
  deriving DecidableEq, Repr

/-- A fill group of a partition (R82 to R85). -/
structure FillGroup where
  part : Nat
  group : Nat
  slot : Nat
  maxRows : Nat
  deadline : Nat
  args : Nat
  argsBytes : Nat
  ops : List Op
  openBatch : Option Batch := none
  issued : List Batch := []
  destroying : Bool := false
  deriving DecidableEq, Repr

/-! ### Contexts and partitions (12, 13, 18) -/

/-- An entry of the vote ledger (R351). -/
structure Vote where
  step : Nat
  skipped : Bool
  k : Int
  deriving DecidableEq, Repr

/-- A live context; `inWindow` is what is left of the refresh window under way, in cycles at 1.5 GHz (R376, R378). -/
structure Ctx where
  id : Nat
  part : Nat
  pasid : BitVec 20
  keyWord : Nat := 0
  saveBytes : Nat := 0
  chill : Bool := false
  seed : Nat := 0
  seedSet : Bool := false
  timingVoid : Bool := false
  k : Int := 0
  dec : Int := 0
  kMin : Int := 0
  kMax : Int := 0
  incEvery : Nat := 0
  clean : Nat := 0
  overflow : Bool := false
  skipped : Nat := 0
  votes : List Vote := []
  pendingVotes : List Nat := []
  run : Nat := 0
  refresh : Nat := 0
  retry : Nat := 0
  inWindow : Nat := 0
  chillCmds : Nat := 0
  deriving DecidableEq, Repr

/-- The fields that PART_CARVE sets (R493). -/
structure Carve where
  coreMask : Nat := 0
  barriers : Nat := 0
  buckets : Nat := 0
  t1 : Nat := 0
  t2 : Nat := 0
  t3 : Nat := 0
  queues : Nat := 0
  contexts : Nat := 0
  mports : Nat := 0
  fdirs : Nat := 0
  linkKey : Nat := 0
  yieldLimit : Nat := 0
  deriving DecidableEq, Repr

/-- A partition that has been carved. -/
structure Part where
  id : Nat
  carve : Carve := {}
  barBase : Nat := 0
  bktBase : Nat := 0
  carves : Nat := 0
  lost : List Nat := []
  slotWait : List Nat := []
  barEpochs : Map Nat Nat := []
  deriving DecidableEq, Repr

/-! ### Cores (04 to 07) -/

/-- An accumulator bank: row, column and bits of each cell set, whether it holds INT32, the INT32 cells that saturated (R137), and its poisoned cells. -/
structure Bank where
  cells : Map (Nat × Nat) (BitVec 32) := []
  int : Bool := false
  stuck : List (Nat × Nat) := []
  poisoned : List (Nat × Nat) := []
  deriving DecidableEq, Repr

/-- A staging tag with the operand it staged (R143): for each row of A or column of B its element codes and scale bytes, and the poisoned lines with their source units. -/
structure Tag where
  addr : Nat
  stride : Int
  k : Nat
  n : Nat
  fmt : Nat
  scale : Nat
  lines : List (List Nat)
  scales : List (List Nat)
  bad : List (Nat × Nat)
  deriving DecidableEq, Repr

/-- A row drained towards the vector engine, with its poisoned columns. -/
structure DrainRow where
  row : Nat
  vals : List (BitVec 32)
  int : Bool
  poisoned : List Nat
  deriving DecidableEq, Repr

/-- One matrix array of a core. -/
structure Array where
  banks : Bank × Bank := ({}, {})
  last : Bool := false
  tagA : Option Tag := none
  tagB : Option Tag := none
  drainOut : List DrainRow := []
  retRow : Nat := 0x7F
  retCol : Nat := 0x7F
  nextRow : Nat := 0x7F
  nextCol : Nat := 0x7F
  deriving DecidableEq, Repr

/-- An operation in an engine queue: its index in the program and the loop iterations at dispatch. -/
structure Queued where
  index : Nat
  op : Op
  loops : List Nat
  deriving DecidableEq, Repr

/-- One engine of a core: its queue, the operation it has started, the signal it is parked on, whether its head has consumed its wait and may start (R92, R104), and whether its stream is still moving data. -/
structure Engine where
  queue : List Queued := []
  cur : Option Queued := none
  parked : Option Nat := none
  taken : Bool := false
  go : Bool := false
  streaming : Bool := false
  deriving DecidableEq, Repr

/-- The sequencer's own wait. -/
inductive SeqWait where
  | none | signal (k : Nat) | barrier (id : Nat) | drain | ended
  deriving DecidableEq, Repr

/-- The vector operation that takes rows from array drains: its descriptor with what dispatch gave it, and the rows taken (R159). -/
structure VecRun where
  desc : List Byte
  loops : List Nat
  imm : Nat
  taken : Nat := 0
  deriving DecidableEq, Repr

/-- A program on a core. -/
structure Run where
  launch : Nat
  ctx : Nat
  part : Nat
  logical : Nat
  pc : Nat := 0
  loops : List Nat := [0, 0, 0, 0]
  compute : Bool := false
  signals : Map Nat Nat := []
  engines : List Engine := []
  seq : SeqWait := .none
  seqTaken : Bool := false
  yields : Nat := 0
  saturated : Option Nat := none
  deadlock : Bool := false
  stop : Option Reply := none
  vec : Option VecRun := none
  deriving DecidableEq, Repr

/-- The saved state of a context on a core position (R109). -/
structure Saved where
  ctx : Nat
  logical : Nat
  store : Mem
  run : Option Run
  deriving DecidableEq, Repr

/-- What the registers of a core go on showing of the program that last ran on it (R119). -/
structure LastRun where
  pc : Nat
  yields : Nat
  ctx : Nat
  logical : Nat
  deriving DecidableEq, Repr

/-- A physical core. -/
structure Core where
  id : Nat
  store : Mem := {}
  storeCtx : Option Nat := none
  bankMap : Map Nat Nat := []
  arrays : List Array := [{}, {}, {}, {}]
  run : Option Run := none
  saved : List Saved := []
  switchPending : Bool := false
  slot : Bool := false
  gated : Bool := true
  sfRest : Nat := 0
  mibRest : Nat := 0
  user : Option Nat := none
  stage : Nat := 0
  last : Option LastRun := none
  deriving DecidableEq, Repr

/-- What launched a program. -/
inductive Launcher where
  | cmd (uid : Nat)
  | batch (part group batch : Nat)
  | entry (uid : Nat) (entry : Nat)
  deriving DecidableEq, Repr

/-- A running program over the cores of its ticket. -/
structure Launch where
  id : Nat
  by_ : Launcher
  ctx : Nat
  part : Nat
  ops : List Op
  barIds : List Nat
  csBytes : Nat
  dense : Nat
  sparse : Nat
  cores : List Nat
  chill : Bool := false
  step : Nat := 0
  arrived : List (Nat × Nat) := []
  ended : List Nat := []
  reply : Option Reply := none
  poison : Option (Nat × Nat) := none
  sat : Option (Nat × Nat × Nat) := none
  deriving DecidableEq, Repr

/-! ### Streams and transfers (07) -/

/-- Where bytes lie. -/
inductive Place where
  | core (c : Nat) (off : Nat)
  | dev (ctx : Nat) (addr : Nat)
  | host (link : Nat) (pasid : Option (BitVec 20)) (addr : Nat)
  | pattern (word : BitVec 64)
  deriving DecidableEq, Repr

/-- Whose data a stream moves: an engine's program operation, or a job of a command. -/
inductive Owner where
  | engine (core : Nat) (e : Nat)
  | job (id : Nat)
  deriving DecidableEq, Repr

/-- Why a transfer is parked (R204). -/
inductive ParkKind where
  | hostPage | farTier
  deriving DecidableEq, Repr

/-- MXFP6 conversion on the way (R184). -/
inductive Conv where
  | none | unpack | pack
  deriving DecidableEq, Repr

/-- What one transfer moves (R185): both ends (the run's first group at a packed end), element size, conversion, index along dimension 0, linear index of the first element, elements.
A transfer of a compressed stream reads part of the block that an index entry names: its bytes are one element (R290, R294). -/
structure Piece where
  src : Place
  dst : Place
  es : Nat
  conv : Conv := .none
  i0 : Nat := 0
  first : Nat := 0
  elems : Nat := 0
  entry : Option Nat := none
  deriving DecidableEq, Repr

/-- Bytes that a far read returned: device virtual address, bytes, poison mask. -/
structure FarPart where
  addr : Nat
  bytes : List Byte
  mask : Nat
  deriving DecidableEq, Repr

/-- An outstanding transfer. -/
structure Transfer where
  id : Nat
  stream : Nat
  piece : Piece
  parked : Option ParkKind := none
  faultAddr : Nat := 0
  atsWait : Bool := false
  farPending : Nat := 0
  farData : List FarPart := []
  writing : Bool := false
  sent : List (Byte × Bool) := []
  deriving DecidableEq, Repr

/-- The walk of one stream share by one engine: every transfer of it, what is left to issue, and its state (R185, R204 to R210); `step` is the bytes between tile rows of a compressed stream (R290). -/
structure Stream where
  id : Nat
  owner : Owner
  uid : Nat
  core : Option Nat
  engine : Nat
  lcore : Nat := 0
  pieces : List Piece
  todo : List Piece
  total : Nat
  noAlloc : Bool := false
  runahead : Bool := false
  cmp : Nat := 0
  parts : List FarPart := []
  step : Int := 0
  tensor : Nat := 0
  dense : Nat := 0
  tile : Nat := 64
  descOff : Option Nat := none
  counts : List Nat := []
  faultKind : Nat := 0
  faultAddr : Nat := 0
  stopping : Bool := false
  halted : Bool := false
  stopped : Bool := false
  awaits : List (Option (BitVec 20) × Nat) := []
  deriving DecidableEq, Repr

/-- The provisional buffers of a run-ahead stream (R210), or of a run-ahead collective of a partition and context (R444). -/
structure Provisional where
  sid : Nat
  uid : Nat
  core : Nat
  ctx : Nat := 0
  launch : Option Nat := none
  places : List (Place × Nat) := []
  done : Bool := false
  committed : Bool := false
  coll : Option (Nat × Nat) := none
  deriving DecidableEq, Repr

/-- A stage of a fused chain (R193): engine, operation, descriptor. -/
structure Stage where
  engine : Nat
  op : Nat
  desc : List Byte
  deriving DecidableEq, Repr

/-- One core of a fused chain: the tile it runs, the tile it ran before, how many it has begun, whether a move phase is under way, and whether its gather stage has yet to start (R195). -/
structure FusedCore where
  core : Nat
  lcore : Nat
  tile : Option Nat := none
  prev : Option Nat := none
  begun : Nat := 0
  moving : Bool := false
  due : Bool := false
  ended : Bool := false
  deriving DecidableEq, Repr

/-- A residue failure of hardware that runs a stage of a fused chain (R150, R268): its bucket's class, the unit, and the row and column, or the bank group of a ladle. -/
structure Upset where
  cls : Nat
  id : Nat
  row : Nat
  col : Nat
  deriving DecidableEq, Repr

/-- A fused chain (R193 to R196). -/
structure Fused where
  stages : List Stage
  tiles : Nat
  flip : Nat
  next : Nat := 0
  done : List Nat := []
  upsets : List Upset := []
  cores : List FusedCore
  deriving DecidableEq, Repr

/-- A part of a command that holds cores: a stream split over them, or a fused chain; `entry` is its plan entry. -/
structure Job where
  id : Nat
  uid : Nat
  entry : Nat := 0
  cores : List Nat
  total : Nat := 0
  fused : Option Fused := none
  done : Bool := false
  deriving DecidableEq, Repr

/-! ### Objects, Runner, far memory (08) -/

/-- A tier of memory. -/
inductive Tier where
  | t1 | t2 | t3
  deriving DecidableEq, Repr

/-- A page of an object (R219, R220, R229). -/
structure Page where
  tier : Tier
  place : Nat
  ppn : Nat
  count : Nat := 0
  movedAt : Option Nat := none
  frozen : Bool := false
  deriving DecidableEq, Repr

/-- A memory object (R223), with the expander groups its T3 pages go to (R220). -/
structure Obj where
  ctx : Nat
  handle : Nat
  base : Nat
  size : Nat
  policy : Nat
  prio : Nat
  affinity : Nat
  farMask : Nat
  prot : Bool
  slot : Nat
  groups : List Nat := []
  pages : List Page := []
  mem : Mem := {}
  migrations : Nat := 0
  deriving DecidableEq, Repr

/-- What a far request is for. -/
inductive FarUse where
  | read (transfer : Nat) (addr : Nat)
  | write (transfer : Nat)
  | add (core : Option Nat) (ctx : Nat) (addr : Nat) (fmt : Nat)
  | rowAdd (core : Option Nat) (ctx : Nat) (addr : Nat) (index : Nat)
  | row (gather : Nat) (addr : Nat)
  | out (gather : Nat)
  | cru (uid : Nat) (addr : Nat) | log (ctx : Nat) (group : Nat) (granule : Nat) | ring (j : Nat) (tail : Nat) | tail (j : Nat)
  | caps | release (slots : List Nat)
  | move (id : Nat) (off : Nat)
  deriving DecidableEq, Repr

/-- A page move that copies from or to far memory (R231 to R233): the chunks read and written, the granules written at its source since they were read,
what has been sent to its destination, and the requests unanswered. A move that OBJ_SET_POLICY made names its command; Runner's names 0. -/
structure PageMove where
  id : Nat
  ctx : Nat
  handle : Nat
  index : Nat
  src : Page
  dst : Page
  uid : Nat := 0
  read : Nat := 0
  put : Nat := 0
  dirty : List Nat := []
  sent : Map Nat (List Byte) := []
  pending : Nat := 0
  deriving DecidableEq, Repr

/-- An entry of a translation cache: cache c is that of core c, cache 64 + k that of cluster k (R221). -/
structure XlatEntry where
  cache : Nat
  index : Nat
  ctx : Nat
  page : Nat
  dest : Page
  deriving DecidableEq, Repr

/-- The translation caches (R221, R222): the entries, the entry last used, MEM_XLAT_STAT's MISSES and MULTI, and the clusters whose double match waits for its event. -/
structure Xlat where
  entries : List XlatEntry := []
  last : Option XlatEntry := none
  misses : Map Nat Nat := []
  multi : Map Nat Nat := []
  found : List Nat := []
  deriving DecidableEq, Repr

/-- An outstanding far request (R239 to R248): an exactly-once request without a slot waits for one. -/
structure Far where
  op : Nat
  orig : Nat
  tag : Nat
  port : Nat
  use : FarUse
  uid : Nat
  granules : Nat := 1
  xo : Bool := false
  slot : Option Nat := none
  reissue : Bool := false
  retryAfter : Option Nat := none
  epoch : Nat := 0
  addr : Nat := 0
  payload : List Byte := []
  issuedAt : Nat := 0
  chill : Bool := false
  num : Nat := 0
  held : Bool := false
  deriving DecidableEq, Repr

/-- An expander group (R242). -/
structure Expander where
  id : BitVec 64
  group : Nat
  ports : List Nat
  capGib : Nat
  epoch : Nat
  xoSlots : Nat
  deriving DecidableEq, Repr

/-- A timed-out exactly-once request that awaits resolution (R248), with the SEQ of its command and its group. -/
structure Unresolved where
  far : Far
  seq : Nat
  group : Nat
  deriving DecidableEq, Repr

/-- A row remap entry (R237): controller, channel, bank group, bank, row; the spare row taken, and the spare rows it has used up. -/
structure RowRemap where
  loc : BitVec 64
  spare : Nat
  used : List Nat := []
  deriving DecidableEq, Repr

/-- A staged Chill add (R276, R277): one granule's sum of one logical core, element by element, a float one as FP32; its launch, or the command that holds the core; the cluster and controller that stage it, and whether it was spilled. -/
structure Staged where
  launch : Option Nat
  uid : Nat
  ctx : Nat
  addr : Nat
  fmt : Nat
  core : Nat
  cluster : Nat
  stack : Bool := false
  spilled : Bool := false
  values : List (Nat × Nat)
  poisoned : Bool := false
  deriving DecidableEq, Repr

/-! ### Embedding tables (11) -/

/-- A table of a table set (R304). -/
structure Table where
  object : Nat
  tag : Nat
  base : Nat
  rows : Nat
  width : Nat
  bits : Nat
  adaptive : Bool
  eps : BitVec 32
  mult : Nat
  salt : Nat
  yObj : Nat
  ySlots : Nat
  deriving DecidableEq, Repr

/-- A table set of a context. -/
structure TableSet where
  ctx : Nat
  id : Nat
  part : Nat
  slot : Nat
  tables : List Table
  deriving DecidableEq, Repr

/-- An entry of the Yarrow index (R317). -/
structure Yarrow where
  part : Nat
  bucket : Nat
  ctx : Nat
  row : Nat
  tset : Nat
  table : Nat
  slot : Nat
  prio : Nat
  deriving DecidableEq, Repr

/-- A scratch entry of a Chill update (R324): a row's contributions of one logical core; `op` is the operation's index in its program. -/
structure Scratch where
  launch : Option Nat
  uid : Nat
  op : Nat
  ctx : Nat
  tset : Nat
  table : Nat
  row : Nat
  core : Nat
  alpha : BitVec 32
  step : Nat
  acc : List (BitVec 32)
  poisoned : Bool := false
  deriving DecidableEq, Repr

/-- A quantized-row add that waits for a sparse tracker of its core, or for a port to its expander (R315, R322): who issues it, its row and gradient row, its unit of PROGRESS,
the SPARSE of its ticket, and whether it is the first of a tile of 64 bags (R316). An add of the apply phase of Chill mode has no core (R324). -/
structure RowReq where
  owner : Option Owner := none
  launch : Option Nat := none
  uid : Nat
  core : Option Nat := none
  ctx : Nat
  tset : Nat
  table : Nat
  row : Nat
  g : List (BitVec 32)
  bad : Bool
  alpha : BitVec 32
  step : Nat
  index : Nat
  sparse : Nat := 8192
  edge : Bool := false
  deriving DecidableEq, Repr

/-- The lookup of one core's share of bags, tile by tile of 64 bags (R311, R312, R315, R316): its descriptor, the bags lo to hi - 1 still to do of which lo to mid - 1 are under way,
whether those need rows, the T3 rows not yet asked for, the replies awaited, the rows that have come, whether its output is being written, and whether it stops at its next tile boundary. -/
structure Gather where
  id : Nat
  owner : Owner
  uid : Nat
  core : Nat
  lcore : Nat
  ctx : Nat
  tset : Nat
  table : Nat
  desc : List Byte
  lo : Nat
  hi : Nat
  mid : Nat
  sparse : Nat
  needs : Bool := false
  todo : List (Nat × Nat) := []
  awaiting : Nat := 0
  got : List FarPart := []
  writing : Bool := false
  stopping : Bool := false
  halted : Bool := false
  stopped : Bool := false
  deriving DecidableEq, Repr

/-! ### The Crucible (12) -/

/-- A parameter group (R331, R332): its descriptor, the applied-step count A, the open step and the last completed one, the granule ranges done in the open step, the filled deferred slots as step and granule ranges, and the block statistics of a step: row sums by step and row, column partials by step, block, page and column, granules applied by step and block (R335, R338, R343, R346). -/
structure Group where
  ctx : Nat
  id : Nat
  part : Nat
  slot : Nat
  tensor : Nat
  shard : Nat
  elemBase : Nat
  elems : Nat
  kind : Nat
  pfmt : Nat
  mfmt : Nat
  deferN : Nat
  vote : Bool
  digestState : Bool
  repAxes : Nat
  digestEvery : Nat
  pAddr : Nat
  mAddr : Nat
  fAddr : Nat
  rows : Nat
  cols : Nat
  hAddr : Nat
  dAddr : Nat
  tag : Nat
  applied : Nat := 0
  openStep : Option Nat := none
  lastStep : Option Nat := none
  done : List (Nat × Nat) := []
  slots : List (Nat × List (Nat × Nat)) := []
  rowSums : Map (Nat × Nat) (BitVec 32) := []
  colSums : Map (Nat × Nat × Nat × Nat) (BitVec 32) := []
  blockDone : Map (Nat × Nat) Nat := []
  deriving DecidableEq, Repr

/-- A write-ahead log entry that is not retired (R355): the Crucible's stack, the granule of its group, the writes it covers that await their acknowledgement, how many do, and whether one was lost. -/
structure LogEntry where
  stack : Nat
  ctx : Nat
  group : Nat
  granule : Nat
  uid : Nat
  writes : List (Nat × List Byte)
  awaiting : Nat
  lost : Bool := false
  deriving DecidableEq, Repr

/-- A Campion frame under assembly: array, page, the step, and the XOR bytes of each granule applied, by byte offset in the array (R364). -/
structure Span where
  array : Nat
  page : Nat
  step : Nat
  parts : List (Nat × List Byte)
  deriving DecidableEq, Repr

/-- A command's work on a parameter group (R343 to R347): its gradient in memory (address and format), or fed by the ring; whether it flushes slots; the granules it is to apply, and the next; the hyperparameters; the ring lengths of the group's axes; fed bytes and the acknowledgements owed for them; far data awaited and come; granules whose residue check fails; pages of other stacks fetched; frames under assembly and waiting; the first granule left; whether it completed the open step, and whether its digest check has begun. -/
structure CruJob where
  uid : Nat
  ctx : Nat
  part : Nat
  gid : Nat
  src : Option (Nat × Nat) := none
  flush : Bool := false
  step : Nat
  k : Int := 0
  first : Nat
  next : Nat
  last : Nat
  hyper : List (BitVec 32) := []
  rings : List (Nat × Nat × Nat) := []
  data : List (Nat × List Byte) := []
  acks : List (Nat × Nat × FabPacket) := []
  asked : Bool := false
  awaiting : Nat := 0
  got : List FarPart := []
  faults : List Nat := []
  remote : List (Nat × Nat) := []
  spans : List Span := []
  frames : List (Nat × List Byte) := []
  stalled : Bool := false
  logStalled : Bool := false
  stopping : Bool := false
  stopped : Bool := false
  left : Option Nat := none
  completed : Bool := false
  checking : Bool := false
  finished : Bool := false
  deriving DecidableEq, Repr

/-- An open Campion stream (R363): where its ring lies, its groups, its tail count, the far frames whose acknowledgements are awaited with the tail each publishes, and whether it is broken (R367). -/
structure Campion where
  j : Nat
  ctx : Nat
  far : Bool
  state : Bool
  egroup : Nat
  ringLog2 : Nat
  ring : Nat
  tailAddr : Nat
  groups : List Nat
  tail : Nat := 0
  sent : List (Nat × Nat) := []
  link : Nat := 0
  broken : Bool := false
  deriving DecidableEq, Repr

/-- A digest exchange of R360: the digest of this device once it is computed, the axes it goes over with their lengths, the digests received by axis, and the axis, ORIG and TAG of the packets they came in. -/
structure DigestCheck where
  part : Nat
  tensor : Nat
  shard : Nat
  step : Nat
  uid : Nat := 0
  ctx : Nat := 0
  mine : Option (BitVec 64) := none
  axes : List (Nat × Nat) := []
  received : List (Nat × BitVec 64) := []
  heard : List (Nat × Nat × Nat) := []
  deriving DecidableEq, Repr

/-! ### Matchplate (13) -/

/-- Bytes that a command wrote, for its digest: command, tensor, logical core, engine, and the bytes with the place each takes in the order (R389). -/
structure Written where
  uid : Nat
  tensor : Nat
  lcore : Nat
  engine : Nat
  parts : List (Nat × List Byte)
  deriving DecidableEq, Repr

/-- A device's list for a comparison: tensor ids and digests, STATUS and DETAIL (R389). -/
structure Verdict where
  tensors : List (Nat × BitVec 64)
  status : Nat
  detail : Nat
  deriving DecidableEq, Repr

/-- A comparison that is outstanding (R389 to R391): the command of a match index here (0 before it starts), the partner's list so far and whole, the engine and the tile digests of each tensor and logical core here, the partner's tile digests and whether they have all come, and the tensor in which the two differ. -/
structure Compare where
  index : Nat
  uid : Nat := 0
  mine : Option Verdict := none
  peerPart : List (Nat × BitVec 64) := []
  theirs : Option Verdict := none
  engines : List (Nat × Nat) := []
  tiles : List (Nat × Nat × List (BitVec 64)) := []
  peerTiles : List (BitVec 64) := []
  peerEnd : Bool := false
  tensor : Option Nat := none
  deriving DecidableEq, Repr

/-- The Matchplate pair (R386 to R394): whether it is formed, the MATCH_PAIR that waits, the partner's PAIR packet and its port, the pair's parameters, the next match index, the comparisons outstanding, the bytes written, the packets the follower has yet to start and the last index it was sent, the lowest index that diverged, and the MATCH_UNPAIR that waits here and at the partner. -/
structure Pair where
  active : Bool := false
  pending : Option Nat := none
  peer : Option (Nat × List Byte) := none
  part : Nat := 0
  port : Nat := 0
  lead : Bool := true
  tileGrain : Bool := false
  t0 : Bool := false
  window : Nat := 0
  nextIndex : Nat := 1
  compares : List Compare := []
  writes : List Written := []
  forwarded : List (Nat × QueueId × Packet) := []
  lastIndex : Nat := 0
  lowest : Option Nat := none
  halted : Bool := false
  unpairing : Option Nat := none
  peerUnpair : Bool := false
  deriving DecidableEq, Repr

/-! ### Gedralink (14, 15) -/

/-- STATE of GL_PORT_STAT. -/
inductive PortState where
  | down | training | up | retraining | offline
  deriving DecidableEq, Repr

/-- A packet of this device that is outstanding on the fabric, or that waits for a tag (R421, R423): its number in the block, and whether it holds the cores of a Chill context (R377). -/
structure OutPkt where
  num : Nat
  ptype : Nat
  tag : Nat
  orig : Nat
  part : Nat
  xo : Bool
  reissue : Bool := false
  uid : Nat
  payload : List Byte
  firstAt : Nat
  chill : Bool := false
  held : Bool := false
  deriving DecidableEq, Repr

/-- A DATA flit: virtual channel, SOP, EOP, its packet bytes, and the number of its packet. -/
structure TxFlit where
  vc : Nat
  sop : Bool
  eop : Bool
  bytes : List Byte
  num : Nat
  deriving DecidableEq, Repr

/-- The saved local proposal of a port. -/
structure Proposal where
  retrain : Bool
  width : Nat
  deriving DecidableEq, Repr

/-- An entry of a completion cache (R424): the TAG and the STATUS of the ACK. -/
structure CacheEntry where
  tag : Nat
  status : Nat
  deriving DecidableEq, Repr

/-- A Gedralink port: its training state and its partner's last proposal (R415 to R417), the corrected symbols of each wavelength short of 1,024 (R401), its sender (next SEQ, flits waiting for a credit, replay buffer, credits held: R408, R411), its receiver (expected SEQ, packets under assembly, whole packets not yet taken, pool use: R409, R411), its outstanding packets, the TAGs of packets lost without an ACK, and its completion cache (R421 to R424). -/
structure Port where
  id : Nat
  state : PortState := .down
  lead : Bool := false
  width : Nat := 0
  wlMask : Nat := 0
  role : Nat := 0x3F
  pairLink : Bool := false
  partner : Nat := 0
  partnerUnique : BitVec 64 := 0
  partnerCoord : List Nat := []
  partnerSession : BitVec 64 := 0
  peerMask : Nat := 0
  peerWidth : Nat := 0
  heard : Bool := false
  session : BitVec 64 := 0
  attempt : Nat := 0
  symbols : Map Nat Nat := []
  nonce : Map Nat Nat := []
  coord : List Nat := []
  trained : Nat := 0
  narrow : Bool := false
  proposal : Option Proposal := none
  windowAt : Option Nat := none
  dropped : Bool := false
  fails : List Nat := []
  rxBits : Map Nat Nat := []
  txSeq : Nat := 0
  tx : List TxFlit := []
  replay : List (Nat × TxFlit) := []
  credit : Map Nat Nat := []
  shared : Nat := 0
  rsv : Map Nat Nat := []
  rxSeq : Nat := 0
  partial_ : Map Nat (List Byte) := []
  received : List (Nat × List Byte) := []
  nakOut : Bool := false
  naks : Nat := 0
  rxUse : Map Nat Nat := []
  rxShared : Nat := 0
  nextTag : Nat := 0
  lostTags : List Nat := []
  outstanding : List OutPkt := []
  waiting : List OutPkt := []
  cache : List CacheEntry := []
  capsWait : Bool := false
  deriving DecidableEq, Repr

/-- A running collective (R431 to R439): its parameters, the ring as it stood at its start, the link sequences of the links it sends on and receives from, the bytes of a block under COMPRESS, the bytes still to come, the pieces received (whether gathered, chunk, offset, length), the sums received under ALL_REDUCE, the bytes of blocks that are not whole, and the packets sent of each chunk. -/
structure Coll where
  uid : Nat
  ctx : Nat
  part : Nat
  cop : Nat
  axis : Nat
  fmt : Nat
  cflags : Nat
  hops : Nat
  root : Nat
  src : Nat
  dst : Nat
  elems : Nat
  n : Nat
  pos : Nat
  chill : Bool
  block : Nat := 0
  send : Option (Nat × Nat) := none
  recv : Option (Nat × Nat) := none
  awaited : Nat := 0
  got : List (Bool × Nat × Nat × Nat) := []
  sums : List (Nat × Nat × List Byte) := []
  held : List (Nat × Nat × List Byte) := []
  turns : Map Nat Nat := []
  deriving DecidableEq, Repr

/-- A barrier or vote on a ring in progress (R117, R350): its key, the command or the launch whose members it holds here, whether they have arrived, the word of the arrival packet received, the words so far, the rings of the axes still to go, the ring's length and this device's position. -/
structure RingBar where
  part : Nat
  axis : Nat
  id : Nat
  epoch : Nat
  vote : Bool := false
  step : Nat := 0
  word : Nat := 0
  uid : Option Nat := none
  launch : Option (Nat × Nat) := none
  arrived : Bool := false
  seen : Option Nat := none
  left : List (Nat × Nat × Nat) := []
  n : Nat := 0
  pos : Nat := 0
  deriving DecidableEq, Repr

/-! ### Host links (16) -/

/-- STATE of HST_LINK_STAT. -/
inductive LinkState where
  | down | training | up | recovery
  deriving DecidableEq, Repr

/-- A write held for a down link, in its original order (R467). -/
inductive HeldWrite where
  | data (pasid : Option (BitVec 20)) (addr : Nat) (bytes : List Byte) (poison : Bool) (by_ : Option QueueId)
  | msix (fn : Nat) (vector : Nat)
  deriving DecidableEq, Repr

/-- A host link: its training, its functions, translation and page requests (R456 to R458; the page requests beyond the allocation wait, and each invalidation lists the transfers it awaits), the writes held for it, MSI-X, the T2 window, its snoop filter (line, and whether the host may have changed it), the snoops whose BIRsp is awaited (line, and whether BISnpInv). -/
structure Link where
  state : LinkState := .down
  rate : Nat := 0
  width : Nat := 0
  flit256 : Bool := false
  cxlIo : Bool := false
  cxlCache : Bool := false
  cxlMem : Bool := false
  ide : Bool := false
  numVFs : Nat := 0
  atsEn : Bool := false
  priEn : Bool := false
  priAlloc : Nat := 0
  priStopped : Bool := false
  atc : List (Option (BitVec 20) × Nat) := []
  atsReqs : List (Option (BitVec 20) × Nat) := []
  pageReqs : List (Option (BitVec 20) × Nat) := []
  invPending : List (Option (BitVec 20) × Nat × List Nat) := []
  held : List HeldWrite := []
  masked : List (Nat × Nat) := []
  msixPending : List (Nat × Nat) := []
  msixSent : List (Nat × Nat) := []
  committed : Bool := false
  commitErrBit : Bool := false
  snoop : List (Nat × Bool) := []
  biPending : List (Nat × Bool) := []
  released : Bool := false
  perst : Bool := false
  deriving DecidableEq, Repr

/-- A line of a die's host-line cache, Modified with its data and the command and queue that left it so, or Shared (R453). -/
structure HlcLine where
  die : Nat
  pasid : Option (BitVec 20)
  line : Nat
  modified : Bool
  uid : Nat
  by_ : Option QueueId := none
  data : List Byte := []
  deriving DecidableEq, Repr

/-- The host side: its memory as the device sees it, the links, the host-line caches, and the data last returned to the host with its poison. -/
structure HostSide where
  mem : List (Option (BitVec 20) × Mem) := []
  links : Link × Link := ({}, {})
  hlc : List HlcLine := []
  answer : List Byte := []
  answerBad : Bool := false
  deriving DecidableEq, Repr

/-! ### Riser, buckets, ledger (02, 17) -/

/-- Riser's record and the controller's view of a unit that has left its first state (R35 to R39, R475). -/
structure UnitRec where
  id : Nat
  state : UnitState
  gen : Nat
  backs : Nat
  changed : Nat := 0
  lstate : UnitState
  lgen : Nat
  waiting : List Nat := []
  drained : Bool := true
  replacement : Option Nat := none
  deriving DecidableEq, Repr

/-- A kept stamp of a bucket: its time in units of W ÷ 256 for the window W it was kept under (R25), and the row and column its event named (R24, R34). -/
structure Stamp where
  at_ : Nat
  win : Nat
  row : Nat
  col : Nat
  deriving DecidableEq, Repr

/-- A bucket: its class, what it counts, its stamps (newest last). -/
structure Bucket where
  cls : Nat
  key : Nat
  table : Nat := 0
  index : Nat := 0
  stamps : List Stamp := []
  deriving DecidableEq, Repr

/-- A repair ledger entry (R480). -/
structure LedgerEntry where
  kind : Nat
  pending : Bool := false
  seq : Nat
  what : BitVec 64
  gen : Nat := 0
  state : Nat := 0
  backs : Nat := 0
  time : Nat := 0
  deriving DecidableEq, Repr

/-- The repair ledger (R479 to R482): the active copy, its epoch and its entries. -/
structure Ledger where
  copy : Nat := 0
  epoch : Nat := 1
  entries : List LedgerEntry := []
  deriving DecidableEq, Repr

/-- The Hualosin images (R486, R487, R549 to R551): the NOR slots, the image last staged, the slot the ledger names, the version each host-class core runs and ran before the roll, FLT_FW_STAT's STATE and CORES_NEW, the update that runs, the next core of its roll, and the cores that failed to rejoin. -/
structure Firmware where
  slots : List Byte × List Byte := ([], [])
  staged : Option (List Byte) := none
  slot : Nat := 0
  versions : Map Nat Nat := []
  prior : Map Nat Nat := []
  stat : Nat := 0
  coresNew : Nat := 0
  rollUid : Option Nat := none
  rollNext : Nat := 0
  failures : Nat := 0
  deriving DecidableEq, Repr

/-- A timeout that expires in this tick and is evaluated at its end, after every arrival of the tick (R80): the park limit of a transfer, a far request, an outstanding packet of a port, a port's replay window, a memory port's training, a completion cache entry, an exactly-once slot, what a host link holds, a Campion ring, a core's rejoining of a roll, an engine's watchdog, the open batch of a fill group, a command; a partner's RETRAIN or WIDTH that meets a proposal of this end (R420); and the release of a temperature limit or of the over-current limit, which a trigger of the same tick undoes (R543). -/
inductive Expiry where
  | park (transfer : Nat)
  | far (orig tag : Nat)
  | reqLife (port tag : Nat)
  | linkDrop (port : Nat)
  | training (m : Nat)
  | cached (port tag : Nat)
  | slot (orig slot : Nat)
  | hostHold (l : Nat)
  | campion (j : Nat)
  | rejoin (h : Nat)
  | watchdog (c e : Nat)
  | fill (part group : Nat)
  | command (uid : Nat)
  | rival (port : Nat) (retrain : Bool) (flit : List Byte)
  | cool (kind : SensorKind) (cluster : Nat)
  | calm
  deriving DecidableEq, Repr

/-- What reaches Riser and is served at the end of its tick (R477): a trip or lasting-at-once fault of a class, a REPAIR_REQUEST, a request of the management endpoint. -/
inductive AskKind where
  | trip (cls : Nat)
  | repair (uid : Nat) (action : RiserAction) (gen : Nat) (loc : BitVec 64)
  | mgmt (action : RiserAction) (gen : Nat) (loc : BitVec 64)
  deriving DecidableEq, Repr

/-- A request to Riser and the unit it names. -/
structure Ask where
  unit : Nat
  kind : AskKind
  deriving DecidableEq, Repr

/-- Riser and its stores. -/
structure Riser where
  asks : List Ask := []
  units : List UnitRec := []
  buckets : List Bucket := []
  remaps : List RowRemap := []
  lanes : List (Nat × Nat) := []
  bondGroups : List Nat := []
  ledger : Ledger := {}
  viewWrites : List (Nat × Nat) := []
  badRows : List (BitVec 64) := []
  mgmtReplies : List (Nat × Reply) := []
  deriving DecidableEq, Repr

/-! ### Security and management (18) -/

/-- What the management endpoint answered last (R503, R506, R508). -/
inductive MgmtAnswer where
  | none | done | refused | inUse | alreadyInUpdateMode
  | session (n : Nat) | measurement (v : Nat) | certificate (serial : BitVec 64)
  deriving DecidableEq, Repr

/-- The PLDM FRU data (R507, R566, R567): this device's ID_UNIQUE and, on a TK9-1024-LC-P2, its partner's. -/
structure FruData where
  unique : BitVec 64
  partner : Option (BitVec 64)
  deriving DecidableEq, Repr

/-- Keys and the management endpoint. -/
structure Security where
  keys : Map Nat (List Byte) := []
  sessions : List Nat := []
  measurements : Map Nat Nat := []
  answer : MgmtAnswer := .none
  deriving DecidableEq, Repr

/-- An event record (R509). -/
structure EventRec where
  code : Nat
  severity : Nat
  part : Nat
  unit : Nat
  time : Nat
  data : List Byte
  deriving DecidableEq, Repr

/-! ### Pins, clocks, power, boot (19, 20) -/

/-- TAP controller states of IEEE 1149.1. -/
inductive TapState where
  | reset | idle | selDr | capDr | shDr | ex1Dr | pauDr | ex2Dr | upDr | selIr | capIr | shIr | ex1Ir | pauIr | ex2Ir | upIr
  deriving DecidableEq, Repr

/-- A GPIO pin beyond its register: whether it is in a park, the level its keeper holds, and for a tachometer whether the window has held a park and the edges it has counted (R521 to R523, R530). -/
structure Gpio where
  parking : Bool := false
  level : Bool := true
  parkSeen : Bool := false
  edges : Nat := 0
  deriving DecidableEq, Repr

/-- The pins: the GPIO pins; the SMBus address; reset and power-good inputs; the trip and over-current lines; this device's hold of MP_SYNC and its sync pulse (R525); the TAP with its shift registers, the instruction (none: that of Test-Logic-Reset) and TDO (none: not driven); the clock inputs (R519). -/
structure Pins where
  gpio : List Gpio := List.replicate 16 {}
  smbAddr : Nat := 0x60
  resetN : Bool := true
  aoGood : Bool := false
  mainGood : Bool := false
  thermtrip : Bool := false
  vrAlert : Bool := false
  pwrLimit : Bool := false
  mpHold : Bool := false
  mpLow : Bool := false
  tap : TapState := .reset
  tapShift : List Bool := []
  tapIr : Option (List Bool) := none
  tapDr : List Bool := []
  tdo : Option Bool := none
  aoInternal : Bool := false
  glPresent : Bool := false
  hlPresent : Bool × Bool := (false, false)
  deriving DecidableEq, Repr

/-- A cluster's clock: the loop's target and the clock in MHz (0 while the PLL is stopped), the PLL in use and whether it is starting, the clock that the temperature limits allow, the limits entered on the cluster's logic, its bonded DRAM and the stack of its number, their doubled refresh, their hottest readings in tenths of a degree with the tick of the last that met its trigger, and when a split of its two sensors was last reported (R33, R235, R536 to R543). -/
structure Clock where
  target : Nat := 1500
  cur : Nat := 0
  pll : Nat := 0
  starting : Bool := false
  cap : Nat := 1800
  logicHot : Bool := false
  bdHot : Bool := false
  stackHot : Bool := false
  refresh1 : Bool := false
  refresh2 : Bool := false
  logicT : Int := 0
  bdT : Int := 0
  stackT : Int := 0
  logicAt : Option Nat := none
  bdAt : Option Nat := none
  stackAt : Option Nat := none
  warned : Option Nat := none
  deriving DecidableEq, Repr

/-- Power: the cluster clocks, the averaged device power, the cap unmet, the over-current limit, and whether every fast clock has stopped (R519, R542). -/
structure Power where
  clocks : List Clock := List.replicate 8 {}
  watts : Nat := 0
  capUnmet : Bool := false
  overLimit : Bool := false
  overAt : Option Nat := none
  stopped : Bool := false
  deriving DecidableEq, Repr

/-- Start-up (R550 to R553): what BOOT_STAT reports, the time origin, whether the block is in reset or start-up has not released it, and the lock of HST_WIN_CFG (R459). -/
structure Boot where
  step : Nat := 0
  fail : Nat := 0
  slot : Nat := 0
  slotFallback : Bool := false
  ledgerNew : Bool := false
  calFallback : Bool := false
  cause : Nat := 0
  hostReadyMs : Nat := 0
  fabricMs : Nat := 0
  origin : Nat := 0
  inReset : Bool := true
  winLocked : Bool := false
  deriving DecidableEq, Repr

/-- The optical and collective side. -/
structure Fabric where
  ports : List Port := []
  colls : List Coll := []
  linkSeqs : Map (Nat × Nat × Nat) Nat := []
  stalled : List (Nat × FabPacket) := []
  bars : List RingBar := []
  laserLow : Map Nat Nat := []
  nextNum : Nat := 1
  deriving DecidableEq, Repr

/-- Objects, far memory and Runner; `rests` holds what the counters in units of 1,024 have counted beyond a whole unit, by register offset and field. -/
structure Memory where
  objs : List Obj := []
  far : List Far := []
  nextTag : Map Nat Nat := []
  xoBusy : List (Nat × Nat) := []
  xoDone : List (Nat × Nat) := []
  groups : List Expander := []
  capsHeld : List Expander := []
  trainWait : List Nat := []
  unresolved : List Unresolved := []
  intervals : Nat := 0
  staged : List Staged := []
  provisional : List Provisional := []
  rests : Map (Nat × Nat) Nat := []
  pageMoves : List PageMove := []
  xlat : Xlat := {}
  deriving DecidableEq, Repr

/-- Embedding state. -/
structure Embed where
  tsets : List TableSet := []
  yarrow : List Yarrow := []
  scratch : List Scratch := []
  gathers : List Gather := []
  adds : List RowReq := []
  deriving DecidableEq, Repr

/-- Crucible state; `stale` names the stacks of the log entries that outlived a warm reset (R370). -/
structure Crucible where
  groups : List Group := []
  jobs : List CruJob := []
  log : List LogEntry := []
  streams : List Campion := []
  digests : List DigestCheck := []
  stale : List Nat := []
  deriving DecidableEq, Repr

/-- Streams and transfers in flight. -/
structure Moves where
  transfers : List Transfer := []
  streams : List Stream := []
  jobs : List Job := []
  damages : Map Nat (Nat × Nat × Nat) := []
  nextId : Nat := 0
  deriving DecidableEq, Repr

/-- Cores and launches. -/
structure Cores where
  cores : List Core := []
  launches : List Launch := []
  nextLaunch : Nat := 0
  fills : List FillGroup := []
  nextBatch : Nat := 0
  deriving DecidableEq, Repr

/-- Partitions, contexts and tickets. -/
structure Tenants where
  parts : List Part := []
  ctxs : List Ctx := []
  slots : List Slot := []
  deriving DecidableEq, Repr

/-- The state of the block. -/
structure State where
  /-- The commands waiting, first in first out. -/
  pending : List Instr := []
  /-- The model's own counter that free values are drawn with. -/
  free : Nat := 0
  /-- The slow-tick count (R535). -/
  now : Nat := 0
  /-- What the last register read returned. -/
  busRead : Word := 0
  /-- The next command number, from 1. -/
  nextUid : Nat := 1
  /-- Register fields that differ from reset, by function and offset. -/
  regs : Map (Nat × Nat) Word := []
  queues : List Queue := []
  tenants : Tenants := {}
  cores : Cores := {}
  moves : Moves := {}
  memory : Memory := {}
  embed : Embed := {}
  cru : Crucible := {}
  pair : Pair := {}
  fabric : Fabric := {}
  host : HostSide := {}
  riser : Riser := {}
  fw : Firmware := {}
  sec : Security := {}
  events : List EventRec := []
  fresh : List EventRec := []
  due : List Expiry := []
  pins : Pins := {}
  power : Power := {}
  boot : Boot := {}
  deriving DecidableEq, Repr

/-- The machine right after reset: every field at the value the spec states, and where it states none at the value the log names (entry 1). -/
def State.reset : State := {}

end Sys2Proof.Machine
end

