-- ==== Sys2Proof/Machine/Bits.lean ====
section
/-! DEFINITION. Bit fields, byte order and finite maps: the small helpers of every family. -/

namespace Sys2Proof.Machine
open Sys2Proof

/-- Bits hi..lo of a number. -/
def bits (x hi lo : Nat) : Nat := (x >>> lo) % 2 ^ (hi + 1 - lo)

/-- Bit n of a number. -/
def bit (x n : Nat) : Bool := x.testBit n

/-- A number saturated at w bits. -/
def satN (w x : Nat) : Nat := min x (2 ^ w - 1)

/-- Little-endian value of bytes (R4). -/
def leNat : List Byte → Nat
  | [] => 0
  | b :: bs => b.toNat + 256 * leNat bs

/-- The n little-endian bytes of a value (R4). -/
def toLe : Nat → Nat → List Byte
  | 0, _ => []
  | n + 1, x => BitVec.ofNat 8 x :: toLe n (x / 256)

/-- Bytes off..off+n-1 of a byte list, zeros beyond its end. -/
def slice (bs : List Byte) (off n : Nat) : List Byte := ((bs.drop off).take n) ++ List.replicate (n - ((bs.drop off).take n).length) 0

/-- The little-endian field of n bytes at an offset. -/
def fld (bs : List Byte) (off n : Nat) : Nat := leNat ((bs.drop off).take n)

/-- Two's complement value of an n-bit field. -/
def sgn (n x : Nat) : Int := if x < 2 ^ (n - 1) then (x : Int) else (x : Int) - (2 ^ n : Nat)

/-- The n-bit encoding of an integer. -/
def unsgn (n : Nat) (x : Int) : Nat := (x % (2 ^ n : Nat)).toNat

/-- Whether every byte of a range is zero: a reserved field. -/
def zeros (bs : List Byte) (off n : Nat) : Bool := ((bs.drop off).take n).all (· == 0)

def cdiv (a b : Nat) : Nat := (a + b - 1) / b

/-- The number of set bits below bit n. -/
def popcount : Nat → Nat → Nat
  | 0, _ => 0
  | n + 1, x => x % 2 + popcount n (x / 2)

/-- The set bits of a mask in ascending order. -/
def setBits (n x : Nat) : List Nat := (List.range n).filter (fun i => x.testBit i)

/-- The floor of the base-2 logarithm. -/
def lg (x : Nat) : Nat := Nat.log2 x

section Maps
variable {K V : Type} [DecidableEq K]

/-- The value of a key. -/
def mget (m : Map K V) (k : K) : Option V := (m.find? (fun p => p.1 == k)).map (·.2)
def mgetD (m : Map K V) (k : K) (d : V) : V := (mget m k).getD d

/-- Set a key. -/
def mset : Map K V → K → V → Map K V
  | [], k, v => [(k, v)]
  | (k', v') :: m, k, v => if k' = k then (k, v) :: m else (k', v') :: mset m k v

/-- Remove a key. -/
def mdel (m : Map K V) (k : K) : Map K V := m.filter (fun p => p.1 ≠ k)
end Maps

section Lists
variable {α : Type}

/-- Apply a change to every entry that a test picks. -/
def upd (l : List α) (p : α → Bool) (f : α → α) : List α := l.map (fun x => if p x then f x else x)

/-- Replace the entry that a test picks, or add it at the end. -/
def put (l : List α) (p : α → Bool) (x : α) : List α := if l.any p then l.map (fun y => if p y then x else y) else l ++ [x]

/-- Set the entry at an index. -/
def setAt : List α → Nat → α → List α
  | [], _, _ => []
  | _ :: l, 0, x => x :: l
  | y :: l, n + 1, x => y :: setAt l n x

/-- Insertion sort by a key. -/
def insSort (key : α → Nat) : List α → List α
  | [] => []
  | x :: l => ins x (insSort key l)
where
  ins (x : α) : List α → List α
    | [] => [x]
    | y :: l => if key x ≤ key y then x :: y :: l else y :: ins x l

/-- The distinct numbers of a list, in order of first appearance. -/
def distinct (l : List Nat) : List Nat := l.foldl (fun acc x => if acc.contains x then acc else acc ++ [x]) []

/-- The elements from i on, in pieces of n. -/
def chunks (n : Nat) : Nat → List α → List (List α)
  | 0, _ => []
  | _, [] => []
  | f + 1, l => l.take n :: chunks n f (l.drop n)
end Lists

/-- The least number from a list that a test accepts. -/
def firstFree (upTo : Nat) (used : List Nat) : Option Nat := (List.range upTo).find? (fun i => !used.contains i)

end Sys2Proof.Machine
end

