-- ==== Sys2Proof/Machine/Registers.lean ====
section
/-! DEFINITION. The register map: every register of the control BAR with its offset, its index ranges, which functions see it, and its fields with bits, access code and reset value (R5 to R11 and the register tables of every block). -/

namespace Sys2Proof.Machine
open Sys2Proof

/-- The registers, by name. -/
inductive Reg where
  /-- FLT_BKT_CFG_k (R30). -/
  | fltBktCfg
  /-- FLT_BKT_STAT_k (R30). -/
  | fltBktStat
  /-- FLT_WATCH_EVICT_CNT (R30). -/
  | fltWatchEvictCnt
  /-- CMD_ADMQ_BASE (R48). -/
  | cmdAdmqBase
  /-- CMD_ADMQ_CFG (R48). -/
  | cmdAdmqCfg
  /-- CMD_ADMQ_DB (R48). -/
  | cmdAdmqDb
  /-- CMD_ADMQ_STAT (R48). -/
  | cmdAdmqStat
  /-- CMD_LATE_DISCARD_CNT (R48). -/
  | cmdLateDiscardCnt
  /-- CMD_FILL_STAT_p (R48). -/
  | cmdFillStat
  /-- CMD_Q_DB_n (R48). -/
  | cmdQDb
  /-- CMD_Q_STAT_n (R48). -/
  | cmdQStat
  /-- CORE_STAT_c (R119). -/
  | coreStat
  /-- CORE_PC_c (R119). -/
  | corePc
  /-- CORE_PHASE_CNT_c (R119). -/
  | corePhaseCnt
  /-- CORE_SIGSAT_c (R119). -/
  | coreSigsat
  /-- CORE_BANK_CONFLICT_c (R119). -/
  | coreBankConflict
  /-- CORE_SIG_c_j (R119). -/
  | coreSig
  /-- CORE_STAGGER_p (R119). -/
  | coreStagger
  /-- COL_BAR_PATH (R119). -/
  | colBarPath
  /-- COL_BAR_STAT_p (R119). -/
  | colBarStat
  /-- ARR_STAT_c_a (R152). -/
  | arrStat
  /-- ARR_OPS_c_a (R152). -/
  | arrOps
  /-- ARR_RES_c_a (R152). -/
  | arrRes
  /-- ARR_MAP_c_a (R152). -/
  | arrMap
  /-- ARR_HOLD_c_a (R152). -/
  | arrHold
  /-- ARR_FEED_STALL_c (R152). -/
  | arrFeedStall
  /-- VEC_STAT_c (R178). -/
  | vecStat
  /-- VEC_OPS_c (R178). -/
  | vecOps
  /-- VEC_FLUSH_c (R178). -/
  | vecFlush
  /-- VEC_ROWSTAT_c (R178). -/
  | vecRowstat
  /-- VEC_CVT_c (R178). -/
  | vecCvt
  /-- STR_STAT_c (R215). -/
  | strStat
  /-- STR_OUTST_c (R215). -/
  | strOutst
  /-- STR_PARK_c (R215). -/
  | strPark
  /-- STR_FAULT_ADDR_c (R215). -/
  | strFaultAddr
  /-- STR_XFER_c (R215). -/
  | strXfer
  /-- STR_PROV_c (R215). -/
  | strProv
  /-- STR_PARK_CFG (R215). -/
  | strParkCfg
  /-- MEM_RUNNER_CFG (R249). -/
  | memRunnerCfg
  /-- MEM_RUNNER_STAT (R249). -/
  | memRunnerStat
  /-- MEM_FAR_CFG (R249). -/
  | memFarCfg
  /-- MEM_XLAT_STAT_k (R249). -/
  | memXlatStat
  /-- MEM_FAR_STAT_k (R249). -/
  | memFarStat
  /-- MEM_FAR_MAP_k (R249). -/
  | memFarMap
  /-- MEM_REMAP_STAT_s (R249). -/
  | memRemapStat
  /-- MEM_REFRESH_s (R249). -/
  | memRefresh
  /-- PNM_STAT_k (R279). -/
  | pnmStat
  /-- PNM_OPS_k (R279). -/
  | pnmOps
  /-- PNM_CHECK_k (R279). -/
  | pnmCheck
  /-- PNM_ADD_STAT_s (R279). -/
  | pnmAddStat
  /-- PNM_CHILL_STAT_k (R279). -/
  | pnmChillStat
  /-- CMP_EXP_c (R300). -/
  | cmpExp
  /-- CMP_LAST_c (R300). -/
  | cmpLast
  /-- CMP_REFUSED_p (R300). -/
  | cmpRefused
  /-- EMB_STAT_c (R329). -/
  | embStat
  /-- EMB_ROWS_c (R329). -/
  | embRows
  /-- EMB_OUTST_c (R329). -/
  | embOutst
  /-- EMB_BADID_c (R329). -/
  | embBadid
  /-- EMB_COAL_c (R329). -/
  | embCoal
  /-- EMB_YARROW_CFG_p (R329). -/
  | embYarrowCfg
  /-- EMB_YARROW_HM_p (R329). -/
  | embYarrowHm
  /-- EMB_YARROW_STAT_p (R329). -/
  | embYarrowStat
  /-- CRU_STAT_k (R369). -/
  | cruStat
  /-- CRU_APPLIED_k (R369). -/
  | cruApplied
  /-- CRU_LOG_k (R369). -/
  | cruLog
  /-- CRU_CFG (R369). -/
  | cruCfg
  /-- CRU_CTX_SCALE_x (R369). -/
  | cruCtxScale
  /-- CRU_DIGEST_LAST_x (R369). -/
  | cruDigestLast
  /-- CRU_DIGEST_STAT_p (R369). -/
  | cruDigestStat
  /-- CRU_CAMPION_HEAD_j (R369). -/
  | cruCampionHead
  /-- CRU_CAMPION_STAT_j (R369). -/
  | cruCampionStat
  /-- DET_CTX_x (R395). -/
  | detCtx
  /-- DET_LEDGER_RUN_x (R395). -/
  | detLedgerRun
  /-- DET_LEDGER_REFRESH_x (R395). -/
  | detLedgerRefresh
  /-- DET_LEDGER_RETRY_x (R395). -/
  | detLedgerRetry
  /-- DET_MATCH_CFG (R395). -/
  | detMatchCfg
  /-- DET_MATCH_STAT (R395). -/
  | detMatchStat
  /-- DET_MATCH_DIV (R395). -/
  | detMatchDiv
  /-- DET_MATCH_TENSOR (R395). -/
  | detMatchTensor
  /-- DET_MATCH_DIGEST (R395). -/
  | detMatchDigest
  /-- DET_MATCH_PEER (R395). -/
  | detMatchPeer
  /-- GL_CFG (R425). -/
  | glCfg
  /-- GL_COORD (R425). -/
  | glCoord
  /-- GL_LASER_CFG (R425). -/
  | glLaserCfg
  /-- GL_LASER_i (R425). -/
  | glLaser
  /-- GL_PORT_STAT_k (R425). -/
  | glPortStat
  /-- GL_PORT_CNT_k (R425). -/
  | glPortCnt
  /-- GL_PORT_XO_k (R425). -/
  | glPortXo
  /-- GL_VC_CFG_k (R425). -/
  | glVcCfg
  /-- GL_WL_k_w (R425). -/
  | glWl
  /-- COL_RING_p_a (R445). -/
  | colRing
  /-- COL_COLL_STAT_p (R445). -/
  | colCollStat
  /-- HST_CFG (R468). -/
  | hstCfg
  /-- HST_LINK_STAT_l (R468). -/
  | hstLinkStat
  /-- HST_LINK_CNT_l (R468). -/
  | hstLinkCnt
  /-- HST_ATS_STAT_l (R468). -/
  | hstAtsStat
  /-- HST_HLC_STAT_d (R468). -/
  | hstHlcStat
  /-- HST_WIN_CFG (R468). -/
  | hstWinCfg
  /-- HST_WIN_STAT_l (R468). -/
  | hstWinStat
  /-- FLT_SCRUB_CFG (R491). -/
  | fltScrubCfg
  /-- FLT_SCRUB_STAT (R491). -/
  | fltScrubStat
  /-- FLT_POISON_CNT (R491). -/
  | fltPoisonCnt
  /-- FLT_RISER_STAT (R491). -/
  | fltRiserStat
  /-- FLT_LEDGER_STAT (R491). -/
  | fltLedgerStat
  /-- FLT_FW_STAT (R491). -/
  | fltFwStat
  /-- ID_DEVICE (R511). -/
  | idDevice
  /-- ID_UNIQUE (R511). -/
  | idUnique
  /-- PRT_PART_p (R511). -/
  | prtPart
  /-- PRT_CTX_x (R511). -/
  | prtCtx
  /-- PRT_EVT_BASE (R511). -/
  | prtEvtBase
  /-- PRT_EVT_CFG (R511). -/
  | prtEvtCfg
  /-- PRT_EVT_HEAD (R511). -/
  | prtEvtHead
  /-- PRT_EVT_STAT (R511). -/
  | prtEvtStat
  /-- PRT_SEC_STAT (R511). -/
  | prtSecStat
  /-- PWR_GPIO_CFG_n (R530). -/
  | pwrGpioCfg
  /-- PWR_TACH_k (R530). -/
  | pwrTach
  /-- PWR_MPSYNC (R530). -/
  | pwrMpsync
  /-- CLK_INPUT_STAT (R530). -/
  | clkInputStat
  /-- PWR_CFG (R554). -/
  | pwrCfg
  /-- PWR_STAT (R554). -/
  | pwrStat
  /-- PWR_OVERRIDE_CNT (R554). -/
  | pwrOverrideCnt
  /-- PWR_LINK_KEEP (R554). -/
  | pwrLinkKeep
  /-- CLK_CLUSTER_k (R554). -/
  | clkCluster
  /-- CLK_HCC (R554). -/
  | clkHcc
  /-- BOOT_STAT (R554). -/
  | bootStat
  deriving DecidableEq, Repr

/-- Access codes of R8. -/
inductive Acc where
  | ro | rw | wo | w1c | rc | rwl
  deriving DecidableEq, Repr

/-- Which functions see a register. -/
inductive Scope where
  | own | pf | core | part | ctx | queue | campion
  deriving DecidableEq, Repr

/-- A field: lowest bit, width, access code, reset value. -/
structure RField where
  lo : Nat
  width : Nat
  acc : Acc
  reset : Nat
  deriving DecidableEq, Repr

/-- A register's place and fields: offset, stride and count of each index. -/
structure RSpec where
  base : Nat
  s1 : Nat
  n1 : Nat
  s2 : Nat
  n2 : Nat
  scope : Scope
  fields : List RField
  deriving DecidableEq, Repr

/-- The register tables. -/
def Reg.spec : Reg → RSpec
  | .fltBktCfg => ⟨0x3800100, 0x8, 16, 0x4000000, 1, .pf, [⟨0, 4, .rw, 0x0⟩, ⟨8, 44, .rw, 0x0⟩, ⟨52, 1, .rw, 0x1⟩]⟩
  | .fltBktStat => ⟨0x3800200, 0x8, 16, 0x4000000, 1, .pf, [⟨0, 32, .rc, 0x0⟩, ⟨32, 16, .rc, 0x0⟩, ⟨48, 16, .rc, 0x0⟩]⟩
  | .fltWatchEvictCnt => ⟨0x3800280, 0x8, 1, 0x8, 1, .pf, [⟨0, 32, .rc, 0x0⟩]⟩
  | .cmdAdmqBase => ⟨0x1000000, 0x8, 1, 0x8, 1, .own, [⟨12, 52, .rw, 0x0⟩]⟩
  | .cmdAdmqCfg => ⟨0x1000008, 0x8, 1, 0x8, 1, .own, [⟨0, 5, .rw, 0x6⟩, ⟨5, 1, .rw, 0x0⟩, ⟨6, 1, .rw, 0x1⟩, ⟨16, 11, .rw, 0x0⟩]⟩
  | .cmdAdmqDb => ⟨0x1000010, 0x8, 1, 0x8, 1, .own, [⟨0, 32, .wo, 0x0⟩]⟩
  | .cmdAdmqStat => ⟨0x1000018, 0x8, 1, 0x8, 1, .own, [⟨0, 32, .ro, 0x0⟩, ⟨32, 3, .ro, 0x0⟩, ⟨35, 1, .w1c, 0x0⟩, ⟨48, 16, .rc, 0x0⟩]⟩
  | .cmdLateDiscardCnt => ⟨0x1000100, 0x8, 1, 0x8, 1, .pf, [⟨0, 32, .rc, 0x0⟩]⟩
  | .cmdFillStat => ⟨0x1000200, 0x8, 32, 0x4000000, 1, .part, [⟨0, 24, .rc, 0x0⟩, ⟨24, 24, .rc, 0x0⟩, ⟨48, 16, .rc, 0x0⟩]⟩
  | .cmdQDb => ⟨0x1010000, 0x8, 4096, 0x4000000, 1, .queue, [⟨0, 32, .wo, 0x0⟩]⟩
  | .cmdQStat => ⟨0x1020000, 0x8, 4096, 0x4000000, 1, .queue, [⟨0, 32, .ro, 0x0⟩, ⟨32, 3, .ro, 0x0⟩, ⟨35, 1, .w1c, 0x0⟩, ⟨48, 16, .rc, 0x0⟩]⟩
  | .coreStat => ⟨0x1400000, 0x1000, 40, 0x4000000, 1, .core, [⟨0, 2, .ro, 0x3⟩, ⟨2, 1, .ro, 0x0⟩, ⟨3, 1, .ro, 0x0⟩, ⟨4, 1, .w1c, 0x0⟩, ⟨5, 1, .ro, 0x0⟩, ⟨6, 1, .w1c, 0x0⟩, ⟨8, 8, .ro, 0x0⟩, ⟨16, 5, .ro, 0x0⟩, ⟨24, 5, .ro, 0x0⟩, ⟨32, 9, .ro, 0x0⟩, ⟨48, 6, .ro, 0x0⟩]⟩
  | .corePc => ⟨0x1400008, 0x1000, 40, 0x4000000, 1, .core, [⟨0, 16, .ro, 0x0⟩, ⟨32, 32, .ro, 0x0⟩]⟩
  | .corePhaseCnt => ⟨0x1400010, 0x1000, 40, 0x4000000, 1, .core, [⟨0, 32, .rc, 0x0⟩, ⟨32, 32, .rc, 0x0⟩]⟩
  | .coreSigsat => ⟨0x1400018, 0x1000, 40, 0x4000000, 1, .core, [⟨0, 32, .rc, 0x0⟩, ⟨32, 6, .ro, 0x0⟩, ⟨48, 16, .rc, 0x0⟩]⟩
  | .coreBankConflict => ⟨0x1400020, 0x1000, 40, 0x4000000, 1, .core, [⟨0, 32, .rc, 0x0⟩]⟩
  | .coreSig => ⟨0x1400100, 0x1000, 40, 0x8, 16, .core, [⟨0, 16, .ro, 0x0⟩, ⟨16, 16, .ro, 0x0⟩, ⟨32, 16, .ro, 0x0⟩, ⟨48, 16, .ro, 0x0⟩]⟩
  | .coreStagger => ⟨0x1440000, 0x8, 32, 0x4000000, 1, .part, [⟨0, 6, .rw, 0x0⟩, ⟨32, 32, .rc, 0x0⟩]⟩
  | .colBarPath => ⟨0x1600000, 0x8, 1, 0x8, 1, .pf, [⟨0, 1, .ro, 0x0⟩, ⟨8, 8, .ro, 0x0⟩, ⟨16, 8, .rc, 0x0⟩]⟩
  | .colBarStat => ⟨0x1600100, 0x8, 32, 0x4000000, 1, .part, [⟨0, 32, .rc, 0x0⟩, ⟨32, 16, .rc, 0x0⟩]⟩
  | .arrStat => ⟨0x1800000, 0x1000, 40, 0x40, 4, .core, [⟨0, 1, .ro, 0x0⟩, ⟨1, 1, .ro, 0x0⟩, ⟨2, 1, .w1c, 0x0⟩, ⟨3, 1, .w1c, 0x0⟩, ⟨4, 1, .w1c, 0x0⟩, ⟨5, 1, .w1c, 0x0⟩, ⟨8, 7, .ro, 0x0⟩, ⟨16, 18, .ro, 0x0⟩]⟩
  | .arrOps => ⟨0x1800008, 0x1000, 40, 0x40, 4, .core, [⟨0, 32, .rc, 0x0⟩, ⟨32, 32, .rc, 0x0⟩]⟩
  | .arrRes => ⟨0x1800010, 0x1000, 40, 0x40, 4, .core, [⟨0, 16, .rc, 0x0⟩, ⟨16, 7, .ro, 0x0⟩, ⟨24, 7, .ro, 0x0⟩]⟩
  | .arrMap => ⟨0x1800018, 0x1000, 40, 0x40, 4, .core, [⟨0, 7, .ro, 0x7f⟩, ⟨8, 7, .ro, 0x7f⟩]⟩
  | .arrHold => ⟨0x1800020, 0x1000, 40, 0x40, 4, .core, [⟨0, 32, .rc, 0x0⟩, ⟨32, 32, .rc, 0x0⟩]⟩
  | .arrFeedStall => ⟨0x1800100, 0x1000, 40, 0x4000000, 1, .core, [⟨0, 32, .rc, 0x0⟩]⟩
  | .vecStat => ⟨0x1c00000, 0x1000, 40, 0x4000000, 1, .core, [⟨0, 1, .ro, 0x0⟩, ⟨1, 1, .w1c, 0x0⟩, ⟨2, 1, .w1c, 0x0⟩, ⟨3, 1, .w1c, 0x0⟩, ⟨4, 1, .w1c, 0x0⟩, ⟨8, 7, .ro, 0x0⟩, ⟨16, 18, .ro, 0x0⟩]⟩
  | .vecOps => ⟨0x1c00008, 0x1000, 40, 0x4000000, 1, .core, [⟨0, 32, .rc, 0x0⟩, ⟨32, 32, .rc, 0x0⟩]⟩
  | .vecFlush => ⟨0x1c00010, 0x1000, 40, 0x4000000, 1, .core, [⟨0, 32, .rc, 0x0⟩, ⟨32, 32, .rc, 0x0⟩]⟩
  | .vecRowstat => ⟨0x1c00018, 0x1000, 40, 0x4000000, 1, .core, [⟨0, 32, .rc, 0x0⟩, ⟨32, 32, .rc, 0x0⟩]⟩
  | .vecCvt => ⟨0x1c00020, 0x1000, 40, 0x4000000, 1, .core, [⟨0, 32, .rc, 0x0⟩]⟩
  | .strStat => ⟨0x2000000, 0x1000, 40, 0x4000000, 1, .core, [⟨0, 1, .ro, 0x0⟩, ⟨1, 1, .ro, 0x0⟩, ⟨2, 1, .ro, 0x0⟩, ⟨3, 1, .w1c, 0x0⟩, ⟨4, 1, .w1c, 0x0⟩, ⟨8, 8, .ro, 0x0⟩, ⟨16, 18, .ro, 0x0⟩]⟩
  | .strOutst => ⟨0x2000008, 0x1000, 40, 0x4000000, 1, .core, [⟨0, 9, .ro, 0x0⟩, ⟨16, 9, .ro, 0x0⟩, ⟨32, 10, .rc, 0x0⟩]⟩
  | .strPark => ⟨0x2000010, 0x1000, 40, 0x4000000, 1, .core, [⟨0, 32, .rc, 0x0⟩, ⟨32, 16, .rc, 0x0⟩, ⟨48, 16, .rc, 0x0⟩]⟩
  | .strFaultAddr => ⟨0x2000018, 0x1000, 40, 0x4000000, 1, .core, [⟨0, 2, .ro, 0x0⟩, ⟨12, 52, .ro, 0x0⟩]⟩
  | .strXfer => ⟨0x2000020, 0x1000, 40, 0x4000000, 1, .core, [⟨0, 32, .rc, 0x0⟩, ⟨32, 32, .rc, 0x0⟩]⟩
  | .strProv => ⟨0x2000028, 0x1000, 40, 0x4000000, 1, .core, [⟨0, 32, .rc, 0x0⟩, ⟨32, 32, .rc, 0x0⟩]⟩
  | .strParkCfg => ⟨0x2080000, 0x8, 1, 0x8, 1, .pf, [⟨0, 32, .rw, 0x186a⟩, ⟨32, 32, .rw, 0x2625a0⟩]⟩
  | .memRunnerCfg => ⟨0x2400000, 0x8, 1, 0x8, 1, .pf, [⟨0, 16, .rw, 0xa⟩, ⟨16, 16, .rw, 0x1000⟩, ⟨32, 8, .rw, 0x4⟩, ⟨40, 12, .rw, 0xc8⟩, ⟨52, 1, .rw, 0x0⟩, ⟨53, 11, .rw, 0x40⟩]⟩
  | .memRunnerStat => ⟨0x2400008, 0x8, 1, 0x8, 1, .pf, [⟨0, 32, .rc, 0x0⟩, ⟨32, 16, .rc, 0x0⟩, ⟨48, 16, .rc, 0x0⟩]⟩
  | .memFarCfg => ⟨0x2400010, 0x8, 1, 0x8, 1, .pf, [⟨0, 32, .rw, 0x30d4⟩, ⟨32, 16, .rw, 0x64⟩]⟩
  | .memXlatStat => ⟨0x2400100, 0x8, 8, 0x4000000, 1, .pf, [⟨0, 32, .rc, 0x0⟩, ⟨32, 16, .rc, 0x0⟩]⟩
  | .memFarStat => ⟨0x2400200, 0x8, 8, 0x4000000, 1, .pf, [⟨0, 16, .rc, 0x0⟩, ⟨16, 16, .rc, 0x0⟩, ⟨32, 16, .rc, 0x0⟩, ⟨48, 16, .rc, 0x0⟩]⟩
  | .memFarMap => ⟨0x2400280, 0x8, 8, 0x4000000, 1, .pf, [⟨0, 1, .ro, 0x0⟩, ⟨1, 3, .ro, 0x0⟩, ⟨8, 19, .ro, 0x0⟩, ⟨32, 16, .ro, 0x0⟩, ⟨48, 16, .ro, 0x0⟩]⟩
  | .memRemapStat => ⟨0x2400300, 0x8, 16, 0x4000000, 1, .pf, [⟨0, 16, .rc, 0x0⟩, ⟨16, 16, .rc, 0x0⟩, ⟨32, 5, .ro, 0x10⟩]⟩
  | .memRefresh => ⟨0x2400400, 0x8, 16, 0x4000000, 1, .pf, [⟨0, 1, .ro, 0x0⟩, ⟨8, 8, .ro, 0x0⟩, ⟨16, 32, .rc, 0x0⟩]⟩
  | .pnmStat => ⟨0x2800000, 0x8, 4, 0x4000000, 1, .pf, [⟨0, 1, .ro, 0x0⟩, ⟨1, 1, .w1c, 0x0⟩, ⟨2, 1, .w1c, 0x0⟩, ⟨3, 1, .w1c, 0x0⟩, ⟨8, 2, .ro, 0x0⟩]⟩
  | .pnmOps => ⟨0x2800040, 0x8, 4, 0x4000000, 1, .pf, [⟨0, 32, .rc, 0x0⟩, ⟨32, 16, .rc, 0x0⟩, ⟨48, 16, .rc, 0x0⟩]⟩
  | .pnmCheck => ⟨0x2800080, 0x8, 4, 0x4000000, 1, .pf, [⟨0, 16, .rc, 0x0⟩, ⟨16, 6, .ro, 0x0⟩, ⟨22, 2, .ro, 0x0⟩]⟩
  | .pnmAddStat => ⟨0x2800100, 0x8, 16, 0x4000000, 1, .pf, [⟨0, 32, .rc, 0x0⟩, ⟨32, 16, .rc, 0x0⟩, ⟨48, 16, .rc, 0x0⟩]⟩
  | .pnmChillStat => ⟨0x2800200, 0x8, 8, 0x4000000, 1, .pf, [⟨0, 17, .rc, 0x0⟩, ⟨32, 16, .rc, 0x0⟩, ⟨48, 16, .rc, 0x0⟩]⟩
  | .cmpExp => ⟨0x2c00000, 0x1000, 40, 0x4000000, 1, .core, [⟨0, 32, .rc, 0x0⟩, ⟨32, 16, .rc, 0x0⟩]⟩
  | .cmpLast => ⟨0x2c00008, 0x1000, 40, 0x4000000, 1, .core, [⟨0, 32, .ro, 0x0⟩, ⟨32, 4, .ro, 0x0⟩]⟩
  | .cmpRefused => ⟨0x2c40000, 0x8, 32, 0x4000000, 1, .part, [⟨0, 16, .rc, 0x0⟩]⟩
  | .embStat => ⟨0x3000000, 0x1000, 40, 0x4000000, 1, .core, [⟨0, 1, .ro, 0x0⟩, ⟨1, 1, .w1c, 0x0⟩, ⟨2, 1, .w1c, 0x0⟩, ⟨3, 1, .w1c, 0x0⟩, ⟨8, 7, .ro, 0x0⟩, ⟨16, 18, .ro, 0x0⟩]⟩
  | .embRows => ⟨0x3000008, 0x1000, 40, 0x4000000, 1, .core, [⟨0, 32, .rc, 0x0⟩, ⟨32, 32, .rc, 0x0⟩]⟩
  | .embOutst => ⟨0x3000010, 0x1000, 40, 0x4000000, 1, .core, [⟨0, 14, .ro, 0x0⟩, ⟨32, 14, .rc, 0x0⟩]⟩
  | .embBadid => ⟨0x3000018, 0x1000, 40, 0x4000000, 1, .core, [⟨0, 32, .rc, 0x0⟩]⟩
  | .embCoal => ⟨0x3000020, 0x1000, 40, 0x4000000, 1, .core, [⟨0, 32, .rc, 0x0⟩, ⟨32, 32, .rc, 0x0⟩]⟩
  | .embYarrowCfg => ⟨0x3040000, 0x8, 32, 0x4000000, 1, .part, [⟨0, 14, .ro, 0x0⟩, ⟨16, 15, .ro, 0x0⟩, ⟨32, 18, .ro, 0x0⟩]⟩
  | .embYarrowHm => ⟨0x3040100, 0x8, 32, 0x4000000, 1, .part, [⟨0, 32, .rc, 0x0⟩, ⟨32, 32, .rc, 0x0⟩]⟩
  | .embYarrowStat => ⟨0x3040200, 0x8, 32, 0x4000000, 1, .part, [⟨0, 16, .rc, 0x0⟩, ⟨16, 16, .rc, 0x0⟩, ⟨32, 16, .rc, 0x0⟩]⟩
  | .cruStat => ⟨0x3400000, 0x8, 8, 0x4000000, 1, .pf, [⟨0, 1, .ro, 0x0⟩, ⟨1, 1, .w1c, 0x0⟩, ⟨2, 1, .w1c, 0x0⟩, ⟨8, 16, .rc, 0x0⟩, ⟨24, 32, .rc, 0x0⟩]⟩
  | .cruApplied => ⟨0x3400040, 0x8, 8, 0x4000000, 1, .pf, [⟨0, 32, .rc, 0x0⟩, ⟨32, 32, .rc, 0x0⟩]⟩
  | .cruLog => ⟨0x3400080, 0x8, 8, 0x4000000, 1, .pf, [⟨0, 17, .ro, 0x0⟩, ⟨32, 16, .rc, 0x0⟩, ⟨48, 16, .rc, 0x0⟩]⟩
  | .cruCfg => ⟨0x3400100, 0x8, 1, 0x8, 1, .pf, [⟨0, 32, .rw, 0x30d4⟩]⟩
  | .cruCtxScale => ⟨0x3410000, 0x8, 256, 0x4000000, 1, .ctx, [⟨0, 8, .ro, 0x0⟩, ⟨8, 1, .ro, 0x0⟩, ⟨16, 16, .ro, 0x0⟩, ⟨32, 16, .rc, 0x0⟩]⟩
  | .cruDigestLast => ⟨0x3411000, 0x8, 256, 0x4000000, 1, .ctx, [⟨0, 64, .ro, 0x0⟩]⟩
  | .cruDigestStat => ⟨0x3420000, 0x8, 32, 0x4000000, 1, .part, [⟨0, 32, .rc, 0x0⟩, ⟨32, 16, .rc, 0x0⟩]⟩
  | .cruCampionHead => ⟨0x3430000, 0x8, 16, 0x4000000, 1, .campion, [⟨0, 64, .rw, 0x0⟩]⟩
  | .cruCampionStat => ⟨0x3430100, 0x8, 16, 0x4000000, 1, .campion, [⟨0, 1, .ro, 0x0⟩, ⟨1, 1, .w1c, 0x0⟩, ⟨8, 8, .ro, 0x0⟩, ⟨16, 32, .rc, 0x0⟩, ⟨48, 16, .rc, 0x0⟩]⟩
  | .detCtx => ⟨0x3c00000, 0x8, 256, 0x4000000, 1, .ctx, [⟨0, 1, .ro, 0x0⟩, ⟨1, 1, .ro, 0x0⟩, ⟨2, 1, .ro, 0x0⟩, ⟨3, 1, .w1c, 0x0⟩]⟩
  | .detLedgerRun => ⟨0x3c01000, 0x8, 256, 0x4000000, 1, .ctx, [⟨0, 64, .ro, 0x0⟩]⟩
  | .detLedgerRefresh => ⟨0x3c02000, 0x8, 256, 0x4000000, 1, .ctx, [⟨0, 64, .ro, 0x0⟩]⟩
  | .detLedgerRetry => ⟨0x3c03000, 0x8, 256, 0x4000000, 1, .ctx, [⟨0, 64, .ro, 0x0⟩]⟩
  | .detMatchCfg => ⟨0x3c04000, 0x8, 1, 0x8, 1, .pf, [⟨0, 1, .ro, 0x0⟩, ⟨1, 1, .ro, 0x0⟩, ⟨2, 1, .ro, 0x0⟩, ⟨3, 1, .ro, 0x0⟩, ⟨4, 5, .ro, 0x0⟩, ⟨9, 7, .ro, 0x0⟩, ⟨16, 5, .ro, 0x0⟩]⟩
  | .detMatchStat => ⟨0x3c04008, 0x8, 1, 0x8, 1, .pf, [⟨0, 32, .rc, 0x0⟩, ⟨32, 16, .rc, 0x0⟩, ⟨48, 1, .w1c, 0x0⟩, ⟨49, 1, .w1c, 0x0⟩]⟩
  | .detMatchDiv => ⟨0x3c04010, 0x8, 1, 0x8, 1, .pf, [⟨0, 32, .ro, 0x0⟩, ⟨32, 8, .ro, 0x0⟩, ⟨40, 5, .ro, 0x0⟩, ⟨48, 16, .ro, 0x0⟩]⟩
  | .detMatchTensor => ⟨0x3c04018, 0x8, 1, 0x8, 1, .pf, [⟨0, 32, .ro, 0x0⟩, ⟨32, 32, .ro, 0x0⟩]⟩
  | .detMatchDigest => ⟨0x3c04020, 0x8, 1, 0x8, 1, .pf, [⟨0, 64, .ro, 0x0⟩]⟩
  | .detMatchPeer => ⟨0x3c04028, 0x8, 1, 0x8, 1, .pf, [⟨0, 64, .ro, 0x0⟩]⟩
  | .glCfg => ⟨0x400000, 0x8, 1, 0x8, 1, .pf, [⟨0, 16, .rw, 0x9c4⟩, ⟨16, 16, .rw, 0x57e4⟩]⟩
  | .glCoord => ⟨0x400008, 0x8, 1, 0x8, 1, .pf, [⟨0, 16, .rw, 0x0⟩, ⟨16, 16, .rw, 0x0⟩, ⟨32, 16, .rw, 0x0⟩, ⟨48, 1, .rw, 0x0⟩]⟩
  | .glLaserCfg => ⟨0x400010, 0x8, 1, 0x8, 1, .pf, [⟨0, 16, .rw, 0x6a4⟩, ⟨16, 16, .rw, 0x578⟩]⟩
  | .glLaser => ⟨0x400100, 0x8, 14, 0x4000000, 1, .pf, [⟨0, 16, .ro, 0x8000⟩, ⟨16, 3, .ro, 0x0⟩, ⟨20, 4, .ro, 0x0⟩, ⟨32, 16, .rc, 0x0⟩]⟩
  | .glPortStat => ⟨0x410000, 0x100, 36, 0x4000000, 1, .pf, [⟨0, 3, .ro, 0x0⟩, ⟨3, 1, .ro, 0x0⟩, ⟨4, 4, .ro, 0x0⟩, ⟨8, 6, .ro, 0x0⟩, ⟨16, 9, .ro, 0x0⟩, ⟨32, 6, .ro, 0x0⟩]⟩
  | .glPortCnt => ⟨0x410008, 0x100, 36, 0x4000000, 1, .pf, [⟨0, 32, .rc, 0x0⟩, ⟨32, 12, .rc, 0x0⟩, ⟨44, 12, .rc, 0x0⟩, ⟨56, 8, .rc, 0x0⟩]⟩
  | .glPortXo => ⟨0x410010, 0x100, 36, 0x4000000, 1, .pf, [⟨0, 16, .rc, 0x0⟩, ⟨16, 16, .rc, 0x0⟩, ⟨32, 16, .rc, 0x0⟩, ⟨48, 13, .ro, 0x0⟩]⟩
  | .glVcCfg => ⟨0x410018, 0x100, 36, 0x4000000, 1, .pf, [⟨0, 8, .rw, 0x10⟩, ⟨8, 8, .rw, 0x10⟩, ⟨16, 8, .rw, 0x10⟩, ⟨24, 8, .rw, 0x10⟩, ⟨32, 8, .rw, 0x10⟩, ⟨40, 8, .rw, 0x10⟩, ⟨48, 8, .rw, 0x10⟩, ⟨56, 8, .rw, 0x10⟩]⟩
  | .glWl => ⟨0x410040, 0x100, 36, 0x8, 9, .pf, [⟨0, 32, .rc, 0x0⟩, ⟨32, 16, .rc, 0x0⟩, ⟨48, 3, .ro, 0x0⟩, ⟨56, 8, .ro, 0x80⟩]⟩
  | .colRing => ⟨0x1601000, 0x20, 32, 0x8, 3, .part, [⟨0, 16, .rw, 0x0⟩, ⟨16, 16, .rw, 0x0⟩]⟩
  | .colCollStat => ⟨0x1602000, 0x8, 32, 0x4000000, 1, .part, [⟨0, 32, .rc, 0x0⟩, ⟨32, 16, .rc, 0x0⟩, ⟨48, 16, .rc, 0x0⟩]⟩
  | .hstCfg => ⟨0x3e00000, 0x8, 1, 0x8, 1, .pf, [⟨0, 32, .rw, 0x2625a0⟩]⟩
  | .hstLinkStat => ⟨0x3e00100, 0x8, 2, 0x4000000, 1, .pf, [⟨0, 3, .ro, 0x0⟩, ⟨3, 3, .ro, 0x0⟩, ⟨6, 5, .ro, 0x0⟩, ⟨11, 1, .ro, 0x0⟩, ⟨12, 1, .ro, 0x0⟩, ⟨13, 1, .ro, 0x0⟩, ⟨14, 1, .ro, 0x0⟩, ⟨15, 1, .ro, 0x0⟩, ⟨16, 1, .ro, 0x0⟩]⟩
  | .hstLinkCnt => ⟨0x3e00110, 0x8, 2, 0x4000000, 1, .pf, [⟨0, 16, .rc, 0x0⟩, ⟨16, 16, .rc, 0x0⟩, ⟨32, 16, .rc, 0x0⟩, ⟨48, 16, .rc, 0x0⟩]⟩
  | .hstAtsStat => ⟨0x3e00120, 0x8, 2, 0x4000000, 1, .pf, [⟨0, 32, .rc, 0x0⟩, ⟨32, 16, .rc, 0x0⟩, ⟨48, 8, .rc, 0x0⟩, ⟨56, 1, .w1c, 0x0⟩, ⟨57, 1, .ro, 0x0⟩, ⟨58, 1, .ro, 0x0⟩]⟩
  | .hstHlcStat => ⟨0x3e00130, 0x8, 2, 0x4000000, 1, .pf, [⟨0, 32, .rc, 0x0⟩, ⟨32, 32, .rc, 0x0⟩]⟩
  | .hstWinCfg => ⟨0x3e00200, 0x8, 1, 0x8, 1, .pf, [⟨0, 1, .rwl, 0x0⟩, ⟨8, 8, .rwl, 0x0⟩, ⟨16, 32, .rwl, 0x0⟩]⟩
  | .hstWinStat => ⟨0x3e00210, 0x8, 2, 0x4000000, 1, .pf, [⟨0, 1, .ro, 0x0⟩, ⟨1, 1, .w1c, 0x0⟩, ⟨16, 16, .rc, 0x0⟩, ⟨32, 32, .rc, 0x0⟩]⟩
  | .fltScrubCfg => ⟨0x3800000, 0x8, 1, 0x8, 1, .pf, [⟨0, 16, .rw, 0x4⟩, ⟨16, 16, .rw, 0x18⟩, ⟨32, 1, .rw, 0x1⟩]⟩
  | .fltScrubStat => ⟨0x3800008, 0x8, 1, 0x8, 1, .pf, [⟨0, 32, .rc, 0x0⟩, ⟨32, 16, .rc, 0x0⟩, ⟨48, 16, .rc, 0x0⟩]⟩
  | .fltPoisonCnt => ⟨0x3800010, 0x8, 1, 0x8, 1, .pf, [⟨0, 32, .rc, 0x0⟩, ⟨32, 32, .rc, 0x0⟩]⟩
  | .fltRiserStat => ⟨0x3800018, 0x8, 1, 0x8, 1, .pf, [⟨0, 32, .rc, 0x0⟩, ⟨32, 16, .rc, 0x0⟩, ⟨48, 8, .ro, 0x0⟩, ⟨56, 8, .ro, 0x0⟩]⟩
  | .fltLedgerStat => ⟨0x3800020, 0x8, 1, 0x8, 1, .pf, [⟨0, 17, .ro, 0x0⟩, ⟨17, 1, .ro, 0x0⟩, ⟨18, 1, .w1c, 0x0⟩, ⟨19, 1, .w1c, 0x0⟩, ⟨20, 12, .rc, 0x0⟩, ⟨32, 32, .ro, 0x0⟩]⟩
  | .fltFwStat => ⟨0x3800028, 0x8, 1, 0x8, 1, .pf, [⟨0, 3, .ro, 0x0⟩, ⟨8, 5, .ro, 0x0⟩, ⟨13, 1, .ro, 0x0⟩, ⟨32, 32, .ro, 0x0⟩]⟩
  | .idDevice => ⟨0x0, 0x8, 1, 0x8, 1, .own, [⟨0, 16, .ro, 0x709⟩, ⟨16, 8, .ro, 0xa1⟩]⟩
  | .idUnique => ⟨0x8, 0x8, 1, 0x8, 1, .own, [⟨0, 64, .ro, 0x0⟩]⟩
  | .prtPart => ⟨0x800000, 0x8, 32, 0x4000000, 1, .part, [⟨0, 32, .ro, 0x0⟩, ⟨32, 10, .ro, 0x0⟩, ⟨42, 11, .ro, 0x0⟩, ⟨53, 1, .ro, 0x0⟩, ⟨54, 2, .ro, 0x0⟩]⟩
  | .prtCtx => ⟨0x810000, 0x8, 256, 0x4000000, 1, .ctx, [⟨0, 1, .ro, 0x0⟩, ⟨1, 5, .ro, 0x0⟩, ⟨8, 20, .ro, 0x0⟩]⟩
  | .prtEvtBase => ⟨0x820000, 0x8, 1, 0x8, 1, .own, [⟨12, 52, .rw, 0x0⟩]⟩
  | .prtEvtCfg => ⟨0x820008, 0x8, 1, 0x8, 1, .own, [⟨0, 5, .rw, 0x6⟩, ⟨5, 1, .rw, 0x0⟩, ⟨6, 2, .rw, 0x0⟩, ⟨32, 32, .ro, 0x0⟩]⟩
  | .prtEvtHead => ⟨0x820010, 0x8, 1, 0x8, 1, .own, [⟨0, 32, .rw, 0x0⟩]⟩
  | .prtEvtStat => ⟨0x820018, 0x8, 1, 0x8, 1, .own, [⟨0, 32, .rc, 0x0⟩]⟩
  | .prtSecStat => ⟨0x830000, 0x8, 1, 0x8, 1, .pf, [⟨0, 16, .rc, 0x0⟩, ⟨16, 16, .rc, 0x0⟩, ⟨32, 6, .ro, 0x0⟩, ⟨38, 3, .ro, 0x0⟩]⟩
  | .pwrGpioCfg => ⟨0x3a80000, 0x8, 16, 0x4000000, 1, .pf, [⟨0, 3, .rw, 0x1⟩, ⟨3, 1, .rw, 0x0⟩, ⟨4, 1, .rw, 0x1⟩, ⟨5, 1, .rw, 0x0⟩, ⟨6, 2, .rw, 0x0⟩, ⟨8, 1, .ro, 0x0⟩, ⟨9, 1, .ro, 0x0⟩, ⟨16, 16, .rw, 0x0⟩]⟩
  | .pwrTach => ⟨0x3a80080, 0x8, 8, 0x4000000, 1, .pf, [⟨0, 16, .ro, 0x0⟩, ⟨16, 16, .rc, 0x0⟩]⟩
  | .pwrMpsync => ⟨0x3a800c0, 0x8, 1, 0x8, 1, .pf, [⟨0, 25, .ro, 0x0⟩, ⟨32, 1, .ro, 0x0⟩, ⟨33, 1, .w1c, 0x0⟩, ⟨48, 16, .rc, 0x0⟩]⟩
  | .clkInputStat => ⟨0x3a800c8, 0x8, 1, 0x8, 1, .pf, [⟨0, 1, .w1c, 0x0⟩, ⟨1, 1, .ro, 0x0⟩, ⟨2, 1, .ro, 0x0⟩, ⟨3, 1, .ro, 0x0⟩, ⟨4, 1, .ro, 0x0⟩]⟩
  | .pwrCfg => ⟨0x3a00000, 0x8, 1, 0x8, 1, .pf, [⟨0, 11, .rw, 0x76c⟩, ⟨16, 16, .rw, 0x3e8⟩, ⟨32, 16, .rw, 0x64⟩, ⟨48, 4, .rw, 0x2⟩]⟩
  | .pwrStat => ⟨0x3a00008, 0x8, 1, 0x8, 1, .pf, [⟨0, 11, .ro, 0x0⟩, ⟨11, 1, .ro, 0x0⟩, ⟨12, 4, .ro, 0x0⟩, ⟨16, 8, .ro, 0x0⟩, ⟨24, 8, .ro, 0x0⟩, ⟨32, 8, .ro, 0x0⟩, ⟨40, 1, .ro, 0x0⟩]⟩
  | .pwrOverrideCnt => ⟨0x3a00010, 0x8, 1, 0x8, 1, .pf, [⟨0, 16, .rc, 0x0⟩, ⟨16, 16, .rc, 0x0⟩, ⟨32, 16, .rc, 0x0⟩, ⟨48, 16, .rc, 0x0⟩]⟩
  | .pwrLinkKeep => ⟨0x3a00018, 0x8, 1, 0x8, 1, .pf, [⟨0, 36, .rw, 0x0⟩]⟩
  | .clkCluster => ⟨0x3a40000, 0x8, 8, 0x4000000, 1, .pf, [⟨0, 11, .rw, 0x190⟩, ⟨16, 11, .rw, 0x5dc⟩, ⟨32, 11, .ro, 0x0⟩, ⟨43, 1, .ro, 0x0⟩, ⟨44, 1, .ro, 0x1⟩]⟩
  | .clkHcc => ⟨0x3a40040, 0x8, 1, 0x8, 1, .pf, [⟨0, 12, .rw, 0x960⟩, ⟨16, 12, .ro, 0x0⟩]⟩
  | .bootStat => ⟨0x3ac0000, 0x8, 1, 0x8, 1, .pf, [⟨0, 4, .ro, 0x0⟩, ⟨4, 8, .ro, 0x0⟩, ⟨12, 1, .ro, 0x0⟩, ⟨13, 1, .ro, 0x0⟩, ⟨14, 1, .ro, 0x0⟩, ⟨15, 1, .ro, 0x0⟩, ⟨16, 2, .ro, 0x0⟩, ⟨32, 16, .ro, 0x0⟩, ⟨48, 16, .ro, 0x0⟩]⟩

/-- Every register. -/
def Reg.all : List Reg := [.fltBktCfg, .fltBktStat, .fltWatchEvictCnt, .cmdAdmqBase, .cmdAdmqCfg, .cmdAdmqDb, .cmdAdmqStat, .cmdLateDiscardCnt, .cmdFillStat, .cmdQDb, .cmdQStat, .coreStat, .corePc, .corePhaseCnt, .coreSigsat, .coreBankConflict, .coreSig, .coreStagger, .colBarPath, .colBarStat, .arrStat, .arrOps, .arrRes, .arrMap, .arrHold, .arrFeedStall, .vecStat, .vecOps, .vecFlush, .vecRowstat, .vecCvt, .strStat, .strOutst, .strPark, .strFaultAddr, .strXfer, .strProv, .strParkCfg, .memRunnerCfg, .memRunnerStat, .memFarCfg, .memXlatStat, .memFarStat, .memFarMap, .memRemapStat, .memRefresh, .pnmStat, .pnmOps, .pnmCheck, .pnmAddStat, .pnmChillStat, .cmpExp, .cmpLast, .cmpRefused, .embStat, .embRows, .embOutst, .embBadid, .embCoal, .embYarrowCfg, .embYarrowHm, .embYarrowStat, .cruStat, .cruApplied, .cruLog, .cruCfg, .cruCtxScale, .cruDigestLast, .cruDigestStat, .cruCampionHead, .cruCampionStat, .detCtx, .detLedgerRun, .detLedgerRefresh, .detLedgerRetry, .detMatchCfg, .detMatchStat, .detMatchDiv, .detMatchTensor, .detMatchDigest, .detMatchPeer, .glCfg, .glCoord, .glLaserCfg, .glLaser, .glPortStat, .glPortCnt, .glPortXo, .glVcCfg, .glWl, .colRing, .colCollStat, .hstCfg, .hstLinkStat, .hstLinkCnt, .hstAtsStat, .hstHlcStat, .hstWinCfg, .hstWinStat, .fltScrubCfg, .fltScrubStat, .fltPoisonCnt, .fltRiserStat, .fltLedgerStat, .fltFwStat, .idDevice, .idUnique, .prtPart, .prtCtx, .prtEvtBase, .prtEvtCfg, .prtEvtHead, .prtEvtStat, .prtSecStat, .pwrGpioCfg, .pwrTach, .pwrMpsync, .clkInputStat, .pwrCfg, .pwrStat, .pwrOverrideCnt, .pwrLinkKeep, .clkCluster, .clkHcc, .bootStat]

/-- The byte offset of a register's instance. -/
def Reg.offset (r : Reg) (i j : Nat) : Nat := r.spec.base + r.spec.s1 * i + r.spec.s2 * j

/-- The instance at an offset, if it is this register's. -/
def Reg.hit (off : Nat) (r : Reg) : Option (Reg × Nat × Nat) :=
  if off < r.spec.base then none else
  let d := off - r.spec.base
  let i := d / r.spec.s1
  let j := (d % r.spec.s1) / r.spec.s2
  if i < r.spec.n1 ∧ j < r.spec.n2 ∧ d = r.spec.s1 * i + r.spec.s2 * j then some (r, i, j) else none

/-- The register at an 8-byte-aligned offset. -/
def Reg.at (off : Nat) : Option (Reg × Nat × Nat) := Reg.all.findSome? (Reg.hit off)

end Sys2Proof.Machine
end

