-- ==== Sys2Proof/Machine/Ops.lean ====
section
/-! DEFINITION. The named operations over memory, registers, queues and the other parts of the state. -/

namespace Sys2Proof.Machine
open Sys2Proof

/-! ### Byte memories -/

/-- Put a byte into a rising list of cells; the value an unlisted address reads as removes the entry. -/
def setCell (a : Nat) (b : Byte) : List Host.Cell → List Host.Cell
  | [] => if b = 0 then [] else [(a, b)]
  | (a', b') :: l =>
    if a < a' then (if b = 0 then (a', b') :: l else (a, b) :: (a', b') :: l)
    else if a = a' then (if b = 0 then l else (a, b) :: l)
    else (a', b') :: setCell a b l

/-- Put a number into a rising list without repeats. -/
def setNum (a : Nat) : List Nat → List Nat
  | [] => [a]
  | x :: l => if a < x then a :: x :: l else if a = x then x :: l else x :: setNum a l

/-- Keys strictly rise from a lower bound. -/
def rising : Nat → List Nat → Bool
  | _, [] => true
  | lo, a :: l => decide (lo ≤ a) && rising (a + 1) l

/-- The one canonical form of a memory: addresses strictly rising, no listed byte 0, poison granules strictly rising. -/
def Mem.wf (m : Mem) : Bool := rising 0 (m.cells.map (·.1)) && m.cells.all (fun c => c.2 ≠ 0) && rising 0 m.poison

/-- The memory in its canonical form. -/
def Mem.tidy (m : Mem) : Mem :=
  { cells := m.cells.foldr (fun c l => setCell c.1 c.2 l) [], poison := m.poison.foldr setNum [] }

/-- What an unlisted address reads as (log entry 3). -/
def Mem.blank : Byte := 0

/-- Read one byte. -/
def Mem.get (m : Mem) (a : Nat) : Byte := ((m.cells.find? (fun c => c.1 == a)).map (·.2)).getD Mem.blank

/-- Read n bytes. -/
def Mem.read (m : Mem) (a n : Nat) : List Byte := (List.range n).map (fun i => m.get (a + i))

/-- Whether a range meets a poisoned 64-byte granule. -/
def Mem.bad (m : Mem) (a n : Nat) : Bool := m.poison.any (fun g => decide (a < (g + 1) * 64 ∧ g * 64 < a + n))

/-- Write bytes; a granule wholly covered with good data loses its poison, one partly covered keeps it (R472). -/
def Mem.write (m : Mem) (a : Nat) (bs : List Byte) : Mem :=
  { cells := (bs.foldl (fun (st : Nat × List Host.Cell) b => (st.1 + 1, setCell st.1 b st.2)) (a, m.cells)).2,
    poison := m.poison.filter (fun g => !decide (a ≤ g * 64 ∧ (g + 1) * 64 ≤ a + bs.length)) }

/-- Mark every granule of a range poisoned. -/
def Mem.mark (m : Mem) (a n : Nat) : Mem :=
  if n = 0 then m else
  { m with poison := (List.range ((a + n - 1) / 64 - a / 64 + 1)).foldl (fun l i => setNum (a / 64 + i) l) m.poison }

/-- Write bytes that are good or poisoned. -/
def Mem.put (m : Mem) (a : Nat) (bs : List Byte) (poisoned : Bool) : Mem :=
  if poisoned then (m.write a bs).mark a bs.length else m.write a bs

/-- Clear a range. -/
def Mem.clear (m : Mem) (a n : Nat) : Mem :=
  { cells := m.cells.filter (fun c => !decide (a ≤ c.1 ∧ c.1 < a + n)),
    poison := m.poison.filter (fun g => !decide (a ≤ g * 64 ∧ g * 64 < a + n)) }

/-! ### Closing a step -/

def tidyObjs (l : List Obj) : List Obj := l.map (fun o => { o with mem := o.mem.tidy })
def tidyCores (l : List Core) : List Core :=
  l.map (fun c => { c with store := c.store.tidy, saved := c.saved.map (fun v => { v with store := v.store.tidy }) })
def tidyHost (l : List (Option (BitVec 20) × Mem)) : List (Option (BitVec 20) × Mem) := l.map (fun p => (p.1, p.2.tidy))

/-- Every memory of the state in its canonical form (log entry 4). -/
def State.tidy (s : State) : State :=
  { s with memory := { s.memory with objs := tidyObjs s.memory.objs },
           cores := { s.cores with cores := tidyCores s.cores.cores },
           host := { s.host with mem := tidyHost s.host.mem } }

/-- The state after a command that takes s to t: memories canonical, the waiting commands as they were. -/
def State.after (s t : State) : State := { t.tidy with pending := s.pending }

/-- The outcome of a command of the always-on domain: its effect on everything but the queue. -/
def State.runAo (s : State) (f : State → State) : Host.Outcome State Fault Refusal := .next (s.after (f s))

/-- The outcome of every other command: while the fast clocks are stopped it has no effect (R519, R542). -/
def State.run (s : State) (f : State → State) : Host.Outcome State Fault Refusal :=
  s.runAo (fun s => if s.power.stopped then s else f s)

/-! ### Free values -/

/-- Draw a free value (log entry 5). -/
def State.draw (s : State) : Nat × State := (Config.freeNat s.free, { s with free := s.free + 1 })

/-- A free number below a bound that is not in use; which one is a free value. -/
def State.pick (s : State) (upTo : Nat) (used : List Nat) : Option Nat × State :=
  (((List.range (min upTo (used.length + 1))).map (fun i => (Config.freeNat s.free + i) % upTo)).find? (fun x => !used.contains x), { s with free := s.free + 1 })

/-- Take n entries of a list; which ones, and in what order, are free values from draw k on. -/
def pickMany : Nat → Nat → List Nat → List Nat
  | 0, _, _ => []
  | n + 1, k, l => match l[Config.freeNat k % max 1 l.length]? with
    | some x => x :: pickMany n (k + 1) (l.filter (fun y => y != x))
    | none => []

/-! ### Registers -/

/-- The default of a class's bucket configuration (R32): THRESH_M1, WINDOW. -/
def bucketDefault : Nat → Nat × Nat
  | 0 => (1, 0x1F6EA086000) | 1 => (1, 0x1F6EA086000) | 2 => (7, 0x14F46B0400) | 3 => (0xF, 0x14F46B0400)
  | 4 => (3, 0x1F6EA086000) | 5 => (2, 0x14F46B0400) | 6 => (7, 0x14F46B0400) | 7 => (2, 0x14F46B0400)
  | 8 => (2, 0x1F6EA086000) | 9 => (2, 0x1F6EA086000) | 10 => (0xF, 0xE8D4A5) | 11 => (3, 0x14F46B0400)
  | 12 => (2, 0xEE6B280) | 13 => (1, 0x14F46B0400) | 14 => (2, 0x14F46B0400) | _ => (3, 0x14F46B0400)

/-- The reset function of a GPIO pin (R521). -/
def gpioReset (n : Nat) : Nat := if n < 2 then 1 else if n < 4 then 0 else if n < 12 then 3 else 4

/-- A register's reset value. -/
def Reg.reset (r : Reg) (i : Nat) : Nat :=
  match r with
  | .fltBktCfg => (bucketDefault i).1 + (bucketDefault i).2 * 2 ^ 8 + 2 ^ 52
  | .pwrGpioCfg => gpioReset i + 16
  | _ => r.spec.fields.foldl (fun v f => v + f.reset * 2 ^ f.lo) 0

/-- The stored bits of a register instance (function 0 for registers that all functions share). -/
def State.reg (s : State) (r : Reg) (i j : Nat := 0) (fn : Nat := 0) : Nat :=
  match mget s.regs (fn, r.offset i j) with
  | some w => w.toNat
  | none => r.reset i

/-- Store a register instance; its reset value is not listed. -/
def State.setReg (s : State) (r : Reg) (i j : Nat) (v : Nat) (fn : Nat := 0) : State :=
  if v = r.reset i then { s with regs := mdel s.regs (fn, r.offset i j) }
  else { s with regs := mset s.regs (fn, r.offset i j) (BitVec.ofNat 64 v) }

/-- Replace bits lo..lo+w-1 of a number. -/
def putBits (v lo w x : Nat) : Nat := v - (v >>> lo) % 2 ^ w * 2 ^ lo + x % 2 ^ w * 2 ^ lo

/-- A register field. -/
def State.field (s : State) (r : Reg) (i j lo w : Nat) (fn : Nat := 0) : Nat := (s.reg r i j fn >>> lo) % 2 ^ w

/-- Set a register field. -/
def State.setField (s : State) (r : Reg) (i j lo w x : Nat) (fn : Nat := 0) : State :=
  s.setReg r i j (putBits (s.reg r i j fn) lo w x) fn

/-- Add to a counter field; it saturates. -/
def State.count (s : State) (r : Reg) (i j lo w : Nat) (n : Nat := 1) (fn : Nat := 0) : State :=
  if n = 0 then s else s.setField r i j lo w (satN w (s.field r i j lo w fn + n)) fn

/-- Add to a counter field in units of 1,024; the remainder is kept. -/
def State.countK (s : State) (r : Reg) (i lo w n : Nat) : State :=
  if n = 0 then s else
  let key := (r.offset i 0, lo)
  let k := mgetD s.memory.rests key 0 + n
  ({ s with memory := { s.memory with rests := mset s.memory.rests key (k % 1024) } }).count r i 0 lo w (k / 1024)

/-- Raise a counter field to at least a value. -/
def State.peak (s : State) (r : Reg) (i j lo w n : Nat) : State :=
  if s.field r i j lo w < n then s.setField r i j lo w (satN w n) else s

/-- Set a flag bit when a condition holds. -/
def State.flag (s : State) (r : Reg) (i j lo : Nat) (b : Bool := true) : State := if b then s.setField r i j lo 1 1 else s

/-- Return register instances to their reset values. -/
def State.clearRegs (s : State) (p : Nat → Bool) : State := { s with regs := s.regs.filter (fun e => !p e.1.2) }

/-! ### Lookups -/

def State.part? (s : State) (p : Nat) : Option Part := s.tenants.parts.find? (·.id == p)
def State.ctx? (s : State) (x : Nat) : Option Ctx := s.tenants.ctxs.find? (·.id == x)
def State.queue? (s : State) (q : QueueId) : Option Queue := s.queues.find? (fun e => e.id == q)
def State.core (s : State) (c : Nat) : Core := (s.cores.cores.find? (·.id == c)).getD { id := c }
def State.launch? (s : State) (n : Nat) : Option Launch := s.cores.launches.find? (·.id == n)
/-- What launched a program. -/
def State.launcher (s : State) (n : Nat) : Option Launcher := (s.launch? n).map (fun l => l.by_)
def State.pairedPart (s : State) (p : Nat) : Bool := s.pair.active && s.pair.part == p

def State.modPart (s : State) (p : Nat) (f : Part → Part) : State :=
  { s with tenants := { s.tenants with parts := upd s.tenants.parts (·.id == p) f } }
def State.modCtx (s : State) (x : Nat) (f : Ctx → Ctx) : State :=
  { s with tenants := { s.tenants with ctxs := upd s.tenants.ctxs (·.id == x) f } }
def State.modQueue (s : State) (q : QueueId) (f : Queue → Queue) : State := { s with queues := upd s.queues (fun e => e.id == q) f }
def State.putCore (s : State) (c : Core) : State :=
  { s with cores := { s.cores with cores := put s.cores.cores (·.id == c.id) c } }
def State.modCore (s : State) (c : Nat) (f : Core → Core) : State := s.putCore (f (s.core c))
def State.modRun (s : State) (c : Nat) (f : Run → Run) : State := s.modCore c (fun k => { k with run := k.run.map f })
def State.modLaunch (s : State) (n : Nat) (f : Launch → Launch) : State :=
  { s with cores := { s.cores with launches := upd s.cores.launches (·.id == n) f } }
def State.modObj (s : State) (x h : Nat) (f : Obj → Obj) : State :=
  { s with memory := { s.memory with objs := upd s.memory.objs (fun o => o.ctx == x && o.handle == h) f } }
def State.modSlot (s : State) (p n : Nat) (f : Slot → Slot) : State :=
  { s with tenants := { s.tenants with slots := upd s.tenants.slots (fun t => t.part == p && t.slot == n) f } }
def State.slot? (s : State) (p n : Nat) : Option Slot := s.tenants.slots.find? (fun t => t.part == p && t.slot == n)
def State.link (s : State) (l : Nat) : Link := if l = 0 then s.host.links.1 else s.host.links.2
def State.setLink (s : State) (l : Nat) (k : Link) : State :=
  { s with host := { s.host with links := if l = 0 then (k, s.host.links.2) else (s.host.links.1, k) } }
def State.modLink (s : State) (l : Nat) (f : Link → Link) : State := s.setLink l (f (s.link l))

/-- The running command of a number, and its queue. -/
def State.cmd? (s : State) (uid : Nat) : Option Running := (s.queues.flatMap (·.running)).find? (·.uid == uid)
def State.modCmd (s : State) (uid : Nat) (f : Running → Running) : State :=
  { s with queues := s.queues.map (fun q => { q with running := upd q.running (·.uid == uid) f }) }

/-- A core's program leaves it; its registers go on showing where it stood (R119, DEDUCED, log entry 20). -/
def Core.leave (k : Core) : Core :=
  { k with run := none, last := match k.run with
      | some r => some { pc := r.pc, yields := r.yields, ctx := r.ctx, logical := r.logical }
      | none => k.last }

/-- A running command gets its outcome; a command ends at its first error (R64). -/
def State.reply (s : State) (uid : Nat) (r : Reply) : State :=
  s.modCmd uid (fun c => if c.reply.isSome then c else { c with reply := some r, work := .none })

/-- The admin queue of a function until CMD_ADMQ_CFG enables it (R48). -/
def adminQueue (f : Fin 33) : Queue := { id := .admin f, state := .absent }

/-- A queue; an admin queue always exists. -/
def State.findQueue (s : State) (q : QueueId) : Option Queue :=
  match s.queue? q, q with
  | some e, _ => some e
  | none, .admin f => some (adminQueue f)
  | none, .ctx _ => none

/-- Make sure an admin queue has its entry. -/
def State.openAdmin (s : State) (q : QueueId) : State :=
  match s.queue? q, q with
  | none, .admin f => { s with queues := s.queues ++ [adminQueue f] }
  | _, _ => s

/-! ### Clocks and pins (19, 20) -/

def State.clock (s : State) (k : Nat) : Clock := (s.power.clocks[k]?).getD {}
def State.setClock (s : State) (k : Nat) (c : Clock) : State := { s with power := { s.power with clocks := setAt s.power.clocks k c } }
def State.modClock (s : State) (k : Nat) (f : Clock → Clock) : State := s.setClock k (f (s.clock k))

/-- A core leaves the power-gated state, and its cluster's PLL starts where it was stopped; a cluster that runs a Chill command goes to its ceiling (R375, R536, R537). -/
def State.wake (s : State) (c : Nat) (chill : Bool) : State :=
  let k := c / 5
  (s.modCore c (fun e => { e with gated := false })).modClock k (fun e =>
    { e with starting := e.starting || e.cur == 0, target := if chill then s.field .clkCluster k 0 16 11 else e.target })

/-- A GPIO pin, and its function. -/
def State.pin (s : State) (n : Nat) : Gpio := (s.pins.gpio[n]?).getD {}
def State.setPin (s : State) (n : Nat) (g : Gpio) : State := { s with pins := { s.pins with gpio := setAt s.pins.gpio n g } }
def State.pinFunc (s : State) (n : Nat) : Nat := s.field .pwrGpioCfg n 0 0 3

/-- Whether this device drives and watches MP_SYNC: a pair is formed and GPIO2 holds the function outside a park (R525). -/
def State.mpOn (s : State) : Bool := s.pair.active && s.pinFunc 2 == 2 && !(s.pin 2).parking

/-- Hold MP_SYNC low at a divergence or a broken pair (R525). -/
def State.holdSync (s : State) : State := if s.mpOn then { s with pins := { s.pins with mpHold := true } } else s

end Sys2Proof.Machine

namespace Sys2Proof
/-- The context that owns a numbered queue. -/
def QueueId.owner : QueueId → Nat
  | .ctx n => n.val / 16
  | .admin _ => 0

/-- The key that orders queues: admin queues first, then by number (R56). -/
def QueueId.key : QueueId → Nat
  | .admin f => f.val
  | .ctx n => 64 + n.val
end Sys2Proof

namespace Sys2Proof.Machine
open Sys2Proof

/-- The function of a queue: an admin queue's own; a context queue's is its partition's VF, or the PF when that VF is absent (R450). -/
def State.queueFn (s : State) : QueueId → Nat
  | .admin f => f.val
  | .ctx n => match s.ctx? (n.val / 16) with
    | some c => if c.part + 1 ≤ max s.host.links.1.numVFs s.host.links.2.numVFs then c.part + 1 else 0
    | none => 0

/-- The partition that function fn serves: VF v serves partition v - 1, the PF serves all (R450). -/
def serves (fn part : Nat) : Bool := fn == 0 || fn == part + 1

/-! ### Core positions -/

/-- The state and generation of a unit: before any change a spare position is SPARE, every other ACTIVE, at generation 1 (R36, R37, R39). -/
def unitSpare (u : Nat) : Bool :=
  let c := bits u 31 24
  if c = 1 then decide (bits u 5 0 % 5 = 4)
  else if c = 2 ∨ c = 3 then decide (bits u 6 0 = 64)
  else if c = 4 then decide (48 ≤ bits u 5 0)
  else if c = 5 then decide (bits u 4 0 = 8 ∨ bits u 4 0 = 17)
  else if c = 7 then decide (32 ≤ bits u 5 0)
  else if c = 8 then decide (32 ≤ bits u 5 0)
  else if c = 9 then decide (bits u 3 0 = 8)
  else if c = 0xA then decide (12 ≤ bits u 3 0)
  else if c = 0xB then decide (bits u 0 0 = 1)
  else if c = 0xC then decide (bits u 0 0 = 1)
  else false

def State.unit (s : State) (u : Nat) : UnitRec :=
  match s.riser.units.find? (·.id == u) with
  | some r => r
  | none =>
    let st : UnitState := if unitSpare u then .spare else .active
    { id := u, state := st, gen := 1, backs := if unitSpare u then 0 else u, lstate := st, lgen := 1 }

def coreUnit (c : Nat) : Nat := 0x01000000 + c

/-- The physical core that backs a core position: position 4c + s is the s-th active slot of cluster c (18). -/
def State.posCore (s : State) (k : Nat) : Option Nat :=
  let home := k / 4 * 5 + k % 4
  (List.range 40).find? (fun c =>
    let u := s.unit (coreUnit c)
    (u.state = .active ∨ u.state = .retiring) ∧ u.backs = coreUnit home ∧
      (u.state = .active ∨ ¬ (List.range 40).any (fun d => decide ((s.unit (coreUnit d)).state = .active ∧ (s.unit (coreUnit d)).backs = coreUnit home))))

/-- The core positions of a partition, in ascending position (18). -/
def Part.positions (p : Part) : List Nat := setBits 32 p.carve.coreMask

/-- Whether adds of a command await their replies (R272). -/
def State.cmdAdds (s : State) (uid : Nat) : Bool := s.embed.adds.any (fun r => r.uid == uid) || s.memory.far.any (fun f => f.uid == uid && (match f.use with
  | .add _ _ _ _ => true
  | .rowAdd _ _ _ _ => true
  | _ => false))

/-- The physical cores on which a launch runs. -/
def State.launchCores (s : State) (n : Nat) : List Nat := (s.cores.cores.filter (fun k => (k.run.map (fun r => r.launch == n)).getD false)).map (·.id)

/-- Whether adds that a launch's cores have issued, for one of some commands, await their replies (R272). -/
def State.launchAdds (s : State) (n : Nat) (uids : List Nat) : Bool :=
  let member (c : Nat) : Bool := (s.launchCores n).contains c || (s.core c).saved.any (fun v => (v.run.map (fun r => r.launch == n)).getD false)
  let by_ (core : Option Nat) : Bool := match core with
    | some c => member c
    | none => true
  s.embed.adds.any (fun r => uids.contains r.uid && by_ r.core) || s.memory.far.any (fun f => uids.contains f.uid && (match f.use with
    | .add core _ _ _ => by_ core
    | .rowAdd core _ _ _ => by_ core
    | _ => false))

def State.runOf (s : State) (c : Nat) : Option Run := (s.core c).run

/-- The unit in service that backs a position (R36, R39): the position's own unit unless another has been bound in its place. -/
def State.backer (s : State) (home : Nat) : Nat :=
  match s.riser.units.find? (fun u => u.backs == home && u.state == .active) with
  | some u => u.id
  | none => home

end Sys2Proof.Machine
end

