-- ==== Sys2Proof/Machine/Flags.lean ====
section
/-! DEFINITION. Flags and notices: host writes, MSI-X messages, event records, poison marks, status replies. -/

namespace Sys2Proof.Machine
open Sys2Proof

/-! ### Status replies (R63) -/

def ok : Reply := {}
def okProgress (p : Nat) (extra : Nat := 0) : Reply := { progress := p, extra := extra }
def okSkipped : Reply := { status := 0x01 }
def errFormat (d : Nat) (p : Nat := 0) : Reply := { status := 0x10, detail := d, progress := p }
def errNofit (d extra : Nat) : Reply := { status := 0x11, detail := d, extra := satN 32 extra }
def errPartition (d : Nat) : Reply := { status := 0x12, detail := d }
def errConflict (d extra : Nat) : Reply := { status := 0x13, detail := d, extra := extra }
def errPage (engine addr : Nat) (p : Nat := 0) : Reply := { status := 0x20, detail := engine, extra := bits addr 43 12, progress := p }
def errFarTimeout (port tag : Nat) : Reply := { status := 0x21, detail := port, extra := tag }
def errFarFail (port code : Nat) : Reply := { status := 0x22, detail := port, extra := code }
def errLinkLost (port tag : Nat) : Reply := { status := 0x23, detail := port, extra := tag }
def errPoison (block unit : Nat) : Reply := { status := 0x24, detail := block, extra := unit }
def errDamaged (check block : Nat) (p : Nat := 0) : Reply := { status := 0x30, detail := check, extra := block, progress := p }
def errDigest (tensor shard : Nat) : Reply := { status := 0x31, detail := tensor % 2 ^ 16, extra := shard }
def errOverflow (k : Int) : Reply := { status := 0x32, progress := unsgn 64 k }
def errSaturated (sig core : Nat) : Reply := { status := 0x33, detail := sig, extra := core }
def errDiverged (engine tensor p : Nat) : Reply := { status := 0x34, detail := engine, extra := tensor, progress := p }
def preempted (p : Nat) : Reply := { status := 0x40, progress := p }
def errAborted (p : Nat := 0) : Reply := { status := 0x41, progress := p }
def errTimeout (p : Nat := 0) : Reply := { status := 0x42, progress := p }

/-- Why a command does not run to its outcome at once: it ends with a reply, its inputs lie on a host page that is not translated, or an order or a busy engine holds its start. -/
inductive Stop where
  | done (r : Reply)
  | park (link : Nat) (pasid : Option (BitVec 20)) (page : Nat)
  | held
  deriving DecidableEq, Repr

/-- End with an error unless a condition holds. -/
def need (b : Bool) (e : Reply) : Except Stop Unit := if b then .ok () else .error (.done e)

/-- End with an error. -/
def fail {α : Type} (e : Reply) : Except Stop α := .error (.done e)

/-! ### Host memory and messages (16) -/

/-- The host memory under a PASID, as the device sees it. -/
def State.hostMem (s : State) (pasid : Option (BitVec 20)) : Mem := (mget s.host.mem pasid).getD {}
def State.setHostMem (s : State) (pasid : Option (BitVec 20)) (m : Mem) : State :=
  { s with host := { s.host with mem := mset s.host.mem pasid m } }

/-- A posted write on a link: it reaches host memory, or is held in order while the link is down (R467). -/
def State.hostPost (s : State) (l : Nat) (pasid : Option (BitVec 20)) (addr : Nat) (bs : List Byte) (poison : Bool := false) (by_ : Option QueueId := none) : State :=
  if (s.link l).state = .up ∨ (s.link l).state = .recovery then s.setHostMem pasid ((s.hostMem pasid).put addr bs poison)
  else s.modLink l (fun k => { k with held := k.held ++ [.data pasid addr bs poison by_] })

/-- An MSI-X message of a function over a link: sent, made pending by its mask, or held (R464, R465, R467). -/
def State.msix (s : State) (l fn vector : Nat) : State :=
  s.modLink l (fun k =>
    if k.masked.contains (fn, vector) then { k with msixPending := if k.msixPending.contains (fn, vector) then k.msixPending else k.msixPending ++ [(fn, vector)] }
    else if k.state = .up ∨ k.state = .recovery then { k with msixSent := k.msixSent ++ [(fn, vector)] }
    else { k with held := k.held ++ [.msix fn vector] })

/-! ### Events (R509) -/

/-- The block number of an event's CODE. -/
def eventBlock : EventKind → Nat
  | .queueFetch => 0x01 | .deadlock => 0x02 | .portRefused | .xoResolved | .xlatMulti | .remapMulti => 0x06
  | .rowNonfinite => 0x07 | .yarrowMulti => 0x09 | .digestMismatch | .crucibleResidue | .campionLost => 0x0A
  | .packetDropped | .noLight => 0x0C
  | .authFail => 0x10 | .unitRepair | .noSpare | .quarantine | .replayStop | .ledgerNew | .scrubPoison => 0x0F
  | .sensorSplit | .noSensor | .limitEntry | .capUnmet | .thermTrip | .aoLoss | .tachLow => 0x11

/-- An event's CODE. -/
def eventCode (k : EventKind) : Nat := eventBlock k * 256 + (Config.eventLow k).toNat

/-- An event's severity: as its rule says, otherwise open (log entry 6). -/
def eventSev : EventKind → Nat
  | .sensorSplit => 1
  | .noSensor => 2
  | k => (Config.eventSeverity k).toNat

/-- The 32 bytes of an event record. -/
def EventRec.bytes (e : EventRec) : List Byte :=
  toLe 2 e.code ++ toLe 1 e.severity ++ toLe 1 e.part ++ toLe 4 e.unit ++ toLe 8 e.time ++ slice e.data 0 16

/-- The link that a function's event ring is written over: HL0 while it is up, otherwise HL1 (DESIGN CHOICE, log entry 11). -/
def State.eventLink (s : State) : Nat := if s.host.links.1.state = .up then 0 else 1

/-- Write an event to a function's ring, or drop and count it. -/
def State.ringEvent (s : State) (fn : Nat) (e : EventRec) : State :=
  let cfg := s.reg .prtEvtCfg 0 0 fn
  let size := 2 ^ bits cfg 4 0
  let tail := bits cfg 63 32
  let head := s.field .prtEvtHead 0 0 0 32 fn
  if !bit cfg 5 then s.count .prtEvtStat 0 0 0 32 1 fn
  else if bits cfg 7 6 ≠ 0 ∧ e.severity < bits cfg 7 6 then s
  else if size ≤ (tail + 2 ^ 32 - head) % 2 ^ 32 then s.count .prtEvtStat 0 0 0 32 1 fn
  else
    let s1 := s.hostPost s.eventLink none (s.reg .prtEvtBase 0 0 fn / 4096 * 4096 + tail % size * 32) e.bytes
    (s1.setField .prtEvtCfg 0 0 32 32 ((tail + 1) % 2 ^ 32) fn).msix s.eventLink fn 0

/-- Whether the VF of a partition is enabled on a link (R450). -/
def State.vfOn (s : State) (p : Nat) : Bool := decide (p + 1 ≤ max s.host.links.1.numVFs s.host.links.2.numVFs)

/-- Raise an event: it is kept among the 1,024 most recent and waits for the end of its tick, when it is written (R509). -/
def State.event (s : State) (k : EventKind) (part : Nat := 0xFF) (unit : Nat := 0) (data : List Byte := []) : State :=
  let e : EventRec := { code := eventCode k, severity := eventSev k, part := part, unit := unit, time := s.now, data := data }
  { s with events := (s.events ++ [e]).drop (s.events.length + 1 - 1024), fresh := s.fresh ++ [e] }

/-- Write an event to the PF's ring and to the ring of its partition's VF where that is enabled (R509). -/
def State.writeEvent (s : State) (e : EventRec) : State :=
  let s1 := s.ringEvent 0 e
  if e.part < 32 ∧ s1.vfOn e.part then s1.ringEvent (e.part + 1) e else s1

/-- The events of a tick are written at its end, in ascending CODE (R509). -/
def State.writeEvents (s : State) : State := (insSort (·.code) s.fresh).foldl State.writeEvent { s with fresh := [] }

/-! ### Objects and device virtual memory (08) -/

def pageBytes : Nat := 2097152

/-- The object that an address resolves to: of those that hold it, the one of highest priority (R225). -/
def State.objAt (s : State) (x addr : Nat) : Option Obj :=
  (s.memory.objs.filter (fun o => o.ctx == x && decide (o.base ≤ addr ∧ addr < o.base + o.size))).foldl
    (fun best o => match best with
      | none => some o
      | some b => if b.prio < o.prio then some o else some b) none

def State.objOf (s : State) (x h : Nat) : Option Obj := s.memory.objs.find? (fun o => o.ctx == x && o.handle == h)

/-- The object and page of an address. -/
def State.pageAt (s : State) (x addr : Nat) : Option (Obj × Page) :=
  match s.objAt x addr with
  | none => none
  | some o => match o.pages[(addr - o.base) / pageBytes]? with
    | some p => some (o, p)
    | none => none

/-- The pieces of a range that lie in one page each. -/
def pagePieces : Nat → Nat → Nat → List (Nat × Nat)
  | 0, _, _ => []
  | f + 1, addr, n =>
    if n = 0 then [] else
    let k := min n (pageBytes - addr % pageBytes)
    (addr, k) :: pagePieces f (addr + k) (n - k)

def pieces (addr n : Nat) : List (Nat × Nat) := pagePieces (n / pageBytes + 2) addr n

/-- Whether every byte of a range is mapped. -/
def State.mapped (s : State) (x addr n : Nat) : Bool :=
  (pieces addr n).all (fun p => (s.objAt x p.1).isSome && decide (p.1 + p.2 ≤ 2 ^ 52))

/-- The first unmapped address of a range. -/
def State.unmapped (s : State) (x addr n : Nat) : Option Nat := ((pieces addr n).find? (fun p => (s.objAt x p.1).isNone)).map (·.1)

/-- Bytes of device virtual memory, with whether a granule of them is poisoned. -/
def State.vaRead (s : State) (x addr n : Nat) : Option (List Byte × Bool) :=
  (pieces addr n).foldl (fun acc p => match acc, s.objAt x p.1 with
    | some (bs, bad), some o => some (bs ++ o.mem.read (p.1 - o.base) p.2, bad || o.mem.bad (p.1 - o.base) p.2)
    | _, _ => none) (some ([], false))

/-- Count granules that a write newly marks poisoned. -/
def newMarks (m : Mem) (a n : Nat) : Nat :=
  if n = 0 then 0 else ((List.range ((a + n - 1) / 64 - a / 64 + 1)).filter (fun i => !m.poison.contains (a / 64 + i))).length

/-- Write device virtual memory (a mapped range). -/
def State.vaWrite (s : State) (x addr : Nat) (bs : List Byte) (poison : Bool := false) : State :=
  (pieces addr bs.length).foldl (fun st p => match st.objAt x p.1 with
    | some o =>
      let st1 := st.modObj x o.handle (fun o => { o with mem := o.mem.put (p.1 - o.base) ((bs.drop (p.1 - addr)).take p.2) poison })
      if poison then st1.count .fltPoisonCnt 0 0 0 32 (newMarks o.mem (p.1 - o.base) p.2) else st1
    | none => st) s

/-- Count the granules read or written in each page of a range (R229). -/
def State.vaTouch (s : State) (x addr n : Nat) : State :=
  (pieces addr n).foldl (fun st p => match st.objAt x p.1 with
    | some o => st.modObj x o.handle (fun o =>
        { o with pages := match o.pages[(p.1 - o.base) / pageBytes]? with
          | some g => setAt o.pages ((p.1 - o.base) / pageBytes) { g with count := satN 16 (g.count + ((p.1 + p.2 - 1) / 64 - p.1 / 64 + 1)) }
          | none => o.pages })
    | none => st) s

/-- The entries of a translation cache that match a page, lowest index first (R221). -/
def xlatHits (l : List XlatEntry) (cache x page : Nat) : List XlatEntry :=
  insSort (·.index) (l.filter (fun e => e.cache == cache && e.ctx == x && e.page == page))

/-- A translation cache after a miss: the translation is put at an index that the TK9 chooses, and at the next one too where the free value has a second walk fill it (log entry 87). -/
def xlatFill (l : List XlatEntry) (cache size k x page : Nat) (dest : Page) : List XlatEntry :=
  let at_ := if k % 2 = 1 then [k / 2 % size, (k / 2 + 1) % size] else [k / 2 % size]
  l.filter (fun e => !(e.cache == cache && at_.contains e.index)) ++ at_.map (fun i => { cache := cache, index := i, ctx := x, page := page, dest := dest })

/-- One translation by a stream or gather engine of a core: its core cache of 64 entries, then its cluster's of 4,096, then the page tables. Of two entries of one cache
that match, the one with the lower index is used, and the match is counted against the core's cluster (R221). -/
def State.translatePage (s : State) (core x page : Nat) (dest : Page) : State :=
  let t := s.memory.xlat
  let k := core / 5
  let own := xlatHits t.entries core x page
  let beyond := xlatHits t.entries (64 + k) x page
  let e1 := if own.isEmpty then xlatFill t.entries core 64 (Config.freeNat s.free) x page dest else t.entries
  let e2 := if own.isEmpty ∧ beyond.isEmpty then xlatFill e1 (64 + k) 4096 (Config.freeNat (s.free + 1)) x page dest else e1
  let many := decide (1 < own.length) || (own.isEmpty && decide (1 < beyond.length))
  let t1 : Xlat := {
    entries := e2
    last := (own ++ beyond).head?
    misses := mset t.misses k (satN 32 (mgetD t.misses k 0 + (own.isEmpty && beyond.isEmpty).toNat))
    multi := mset t.multi k (satN 16 (mgetD t.multi k 0 + many.toNat))
    found := if many then t.found ++ [k] else t.found }
  { s with free := s.free + 2, memory := { s.memory with xlat := t1 } }

/-- A stream or gather engine of a core translates the pages of a range (R221). -/
def State.translate (s : State) (core : Option Nat) (x addr n : Nat) : State := match core with
  | some c => (pieces addr n).foldl (fun st p => match st.pageAt x p.1 with
    | some (_, g) => st.translatePage c x (p.1 / pageBytes) g
    | none => st) s
  | none => s

/-- It reads or writes the range: its granules are counted as well (R229). -/
def State.vaAccess (s : State) (core : Option Nat) (x addr n : Nat) : State := (s.translate core x addr n).vaTouch x addr n

/-- The translations of a range of pages leave every core and cluster translation cache (R222, R231). -/
def State.xlatDrop (s : State) (x addr n : Nat) : State :=
  let t := s.memory.xlat
  { s with memory := { s.memory with xlat := { t with entries := t.entries.filter (fun e => !(e.ctx == x && decide (addr / pageBytes ≤ e.page ∧ e.page < (addr + n) / pageBytes))) } } }

/-- Where a byte of a page lies in the DRAM of its cluster or stack: logical channel, bank group, bank, row, byte of the row (R219). -/
structure DramPlace where
  channel : Nat
  bankGroup : Nat
  bank : Nat
  row : Nat
  byte : Nat
  deriving DecidableEq, Repr

/-- The stripe mapping of R219 for an offset in the page with physical page number ppn. -/
def dramPlace (ppn off : Nat) : DramPlace :=
  let st := off / 256
  let w := st / 32
  let j := w / 16
  { channel := (st + ppn) % 32, bankGroup := w % 4, bank := w / 4 % 4, row := ppn * 4 + j / 4, byte := 256 * (j % 4) + off % 256 }

/-- The physical channel that backs a logical channel of a stack (R36, R219). -/
def State.stackChannel (s : State) (k ch : Nat) : Nat := s.backer (0x07000000 + k * 256 + ch)

/-- The unit identifier that ERR_POISON names for a device virtual source: the stack channel for T2, 0 for T1 and T3 (R474, R219). -/
def State.vaUnit (s : State) (x addr : Nat) : Nat :=
  match s.pageAt x addr with
  | some (_, p) => if p.tier = .t2 then s.stackChannel p.place (dramPlace p.ppn (addr % pageBytes)).channel else 0
  | none => 0

/-- The physical bank that backs the logical bank of a core store offset (R86, R474). -/
def Core.bankUnit (c : Core) (off : Nat) : Nat := 0x04000000 + c.id * 65536 + mgetD c.bankMap (off / 64 % 48) (off / 64 % 48)

/-- The first poisoned 64-byte granule of a range. -/
def Mem.firstBad (m : Mem) (a n : Nat) : Nat := ((m.poison.find? (fun g => decide (a < (g + 1) * 64 ∧ g * 64 < a + n))).getD (a / 64)) * 64

/-- Poison a command consumed: it ends with ERR_POISON once its other effects have been applied (R473); the first found stands. -/
def State.taint (s : State) (uid block unit : Nat) : State :=
  s.modCmd uid (fun c => if c.poison.isSome then c else { c with poison := some (block, unit) })

/-! ### Core stores -/

def storeBytes : Nat := 0xC00000

def State.storeWrite (s : State) (c off : Nat) (bs : List Byte) (poison : Bool := false) : State :=
  let s1 := s.modCore c (fun k => { k with store := k.store.put off bs poison })
  if poison then s1.count .fltPoisonCnt 0 0 0 32 (newMarks (s.core c).store off bs.length) else s1

/-- A memory whose marks are joined with those it had before a write, so that a granule poisoned before and after it is not newly marked. -/
def Mem.markedWith (m old : Mem) : Mem := { m with poison := m.poison ++ old.poison }

/-- Mark bytes of a core store poisoned; granules newly marked since the state `old` are counted (R472). -/
def State.storeMarkFrom (s old : State) (c off n : Nat) : State :=
  (s.count .fltPoisonCnt 0 0 0 32 (newMarks ((s.core c).store.markedWith (old.core c).store) off n)).modCore c (fun k => { k with store := k.store.mark off n })

def State.storeMark (s : State) (c off n : Nat) : State := s.storeMarkFrom s c off n

/-- Mark bytes of device virtual memory poisoned; granules newly marked since the state `old` are counted. -/
def State.vaMarkFrom (s old : State) (x addr n : Nat) : State :=
  (pieces addr n).foldl (fun st p => match st.objAt x p.1 with
    | some o =>
      let was := ((old.objAt x p.1).map (·.mem)).getD {}
      (st.count .fltPoisonCnt 0 0 0 32 (newMarks (o.mem.markedWith was) (p.1 - o.base) p.2)).modObj x o.handle (fun o => { o with mem := o.mem.mark (p.1 - o.base) p.2 })
    | none => st) s

def State.vaMark (s : State) (x addr n : Nat) : State := s.vaMarkFrom s x addr n

/-! ### Provisional buffers (R210, R211) -/

/-- Whether two ranges share a 64-byte granule. -/
def sharesGranule (a n b m : Nat) : Bool := decide (n ≠ 0 ∧ m ≠ 0 ∧ a / 64 ≤ (b + m - 1) / 64 ∧ b / 64 ≤ (a + n - 1) / 64)

/-- Whether two places overlap. -/
def overlaps (p q : Place × Nat) : Bool := match p.1, q.1 with
  | .core c a, .core d b => c == d && sharesGranule a p.2 b q.2
  | .dev x a, .dev y b => x == y && sharesGranule a p.2 b q.2
  | _, _ => false

/-- Whether a provisional place is in reach: one of a core store only while the store holds its context, with which it is saved and restored (R211). -/
def State.provHere (s : State) (v : Provisional) (q : Place × Nat) : Bool := match q.1 with
  | .core c _ => (s.core c).storeCtx == some v.ctx
  | _ => true

/-- Whether an access meets a granule that another stream holds provisional: it stalls (R211). -/
def State.provHeld (s : State) (sid : Option Nat) (ps : List (Place × Nat)) : Bool :=
  s.memory.provisional.any (fun v => some v.sid != sid && v.places.any (fun q => s.provHere v q && ps.any (overlaps q)))

/-- Rows of bytes in a core store. -/
def rowPlaces (c base rows stride n : Nat) : List (Place × Nat) := (List.range rows).map (fun r => (.core c (base + r * stride), n))

/-! ### Matchplate digests (R389) -/

/-- Whether this device writes the host-side effects of a partition: the follower of a pair does not (R387). -/
def State.silent (s : State) (part : Nat) : Bool := s.pairedPart part && !s.pair.lead

/-- The same for a command of a partition. -/
def State.silentCmd (s : State) (uid : Nat) : Bool := ((s.cmd? uid).map (fun c => s.silent c.part)).getD false

/-- Record the bytes that a command of a paired partition writes, at their place in the order the operation produces them. -/
def State.digestWrite (s : State) (uid tensor lcore engine : Nat) (bs : List Byte) (key : Nat := 0) : State :=
  match s.cmd? uid with
  | some c =>
    if s.pairedPart c.part then
      let mine (w : Written) : Bool := w.uid == uid && w.tensor == tensor && w.lcore == lcore
      if s.pair.writes.any mine then
        { s with pair := { s.pair with writes := upd s.pair.writes mine (fun w => { w with parts := w.parts ++ [(key, bs)] }) } }
      else { s with pair := { s.pair with writes := s.pair.writes ++ [{ uid := uid, tensor := tensor, lcore := lcore, engine := engine, parts := [(key, bs)] }] } }
    else s
  | none => s

/-- The command and plan entry that a core works for. -/
def State.coreWork (s : State) (c : Nat) : Option (Nat × Nat) :=
  let k := s.core c
  match k.run with
  | some r => match s.launcher r.launch with
    | some (.cmd u) => some (u, 0)
    | some (.entry u e) => some (u, e)
    | some (.batch p g b) => (((s.cores.fills.filter (fun f => f.part == p && f.group == g)).flatMap (·.issued)).find? (·.id == b)).bind (fun b => (b.reqs.find? (fun q => (s.cmd? q.uid).isSome)).map (fun q => (q.uid, 0)))
    | none => none
  | none => k.user.map (fun u => (u, ((s.moves.jobs.find? (fun j => j.uid == u && j.cores.contains c)).map (·.entry)).getD 0))

/-- The context that a core works for. -/
def State.coreCtx (s : State) (c : Nat) : Option Nat :=
  match (s.core c).run with
  | some r => some r.ctx
  | none => (s.core c).user.bind (fun u => (s.cmd? u).map (·.ctx))

/-- The logical core of a physical core in its command. -/
def State.coreLogical (s : State) (c : Nat) : Nat :=
  match (s.core c).run with
  | some r => r.logical
  | none => ((s.moves.jobs.findSome? (fun j => j.cores.findIdx? (· == c)))).getD 0

/-- The output tensor of an engine's operation (R389). -/
def State.tensorOf (s : State) (c e : Nat) : Nat :=
  let entry := ((s.coreWork c).map (·.2)).getD 0
  let index := match (s.core c).run with
    | some r => (((r.engines[e]?).bind (·.cur)).map (·.index)).getD 0
    | none => (s.core c).stage
  index % 2 ^ 16 + entry % 2 ^ 12 * 2 ^ 16

/-- The operation of an engine writes device or host memory, or what it issues to an adder: its bytes join the command's digest. -/
def State.digestCore (s : State) (c e engine : Nat) (bs : List Byte) : State :=
  match s.coreWork c with
  | some (u, _) => s.digestWrite u (s.tensorOf c e) (s.coreLogical c) engine bs
  | none => s

/-- The operation of an engine writes its core store; the bytes are digested when the pair covers T0. -/
def State.opWrite (s : State) (c e off : Nat) (bs : List Byte) (poison : Bool := false) : State :=
  let s1 := s.storeWrite c off bs poison
  if s.pair.t0 then s1.digestCore c e e bs else s1

end Sys2Proof.Machine
end

