-- ==== Sys2Proof/Machine/Ports.lean ====
section
/-! DEFINITION. Gedralink ports as every family meets them: roles, siblings, packets, flits, credits, tags, outstanding packets (R397, R405 to R413, R421 to R424). -/

namespace Sys2Proof.Machine
open Sys2Proof

/-! ### Ports and roles (R397, R398) -/

def State.port (s : State) (k : Nat) : Port :=
  (s.fabric.ports.find? (·.id == k)).getD { id := k, role := if k < 32 then k else 0x3F }
def State.putPort (s : State) (p : Port) : State := { s with fabric := { s.fabric with ports := put s.fabric.ports (·.id == p.id) p } }
def State.modPort (s : State) (k : Nat) (f : Port → Port) : State := s.putPort (f (s.port k))

def portUnit (k : Nat) : Nat := 0x08000000 + k
def wlUnit (k w : Nat) : Nat := 0x09000000 + k * 256 + w

/-- Whether a port serves a memory role, or a fabric role and its direction. -/
def Port.memory (p : Port) : Bool := decide (24 ≤ p.role ∧ p.role < 32)
def Port.direction (p : Port) : Option Nat := if p.role < 24 then some (p.role % 6) else none

/-- The chiplet of a port (R397). -/
def portChiplet (k : Nat) : Nat := if k < 24 then k / 6 else if k < 32 then (k - 24) / 2 else k - 32

/-- The port that serves a role now: the role's own port unless a spare serves it. -/
def State.rolePort (s : State) (r : Nat) : Nat :=
  ((s.fabric.ports.find? (fun p => p.role == r && p.state != .offline)).map (·.id)).getD r

/-- The ports of a direction that are up, in ascending port number; a pair link carries no fabric traffic. -/
def State.dirPorts (s : State) (d : Nat) : List Nat :=
  insSort id ((s.fabric.ports.filter (fun p => p.state == .up && p.direction == some d && !p.pairLink)).map (·.id))

/-- The ports that packets of a direction go out on: those that are up, or while none is those that retrain. -/
def State.outPorts (s : State) (d : Nat) : List Nat :=
  match s.dirPorts d with
  | [] => insSort id ((s.fabric.ports.filter (fun p => p.state == .retraining && p.direction == some d && !p.pairLink)).map (·.id))
  | l => l

/-- The siblings of a fabric port, in ascending port number starting after it (R397, R422). -/
def State.siblings (s : State) (k : Nat) : List Nat :=
  let p := s.port k
  match p.direction with
  | some d =>
    let l := (s.dirPorts d).filter (fun j => j != k && (s.port j).partnerUnique == p.partnerUnique)
    if p.pairLink then [] else l.filter (fun j => decide (k < j)) ++ l.filter (fun j => decide (j < k))
  | none => []

/-- The wavelengths usable at a port: those neither retiring, retired nor quarantined (R415). -/
def State.wlUsable (s : State) (k : Nat) : Nat :=
  (List.range 9).foldl (fun m w => match (s.unit (wlUnit k w)).state with
    | .active | .spare => m + 2 ^ w
    | _ => m) 0

/-- A port that is up starts a retrain (R418): data stops, the replay window opens, the proposal names every usable wavelength up to 8. -/
def State.startRetrain (s : State) (k : Nat) : State :=
  let p := s.port k
  if p.state = .up then
    (s.putPort { p with state := .retraining, windowAt := some s.now, dropped := false, heard := false, attempt := (p.attempt + 1) % 256,
                        proposal := some { retrain := true, width := min 8 (popcount 9 (s.wlUsable k)) } }).count .glPortCnt k 0 44 12
  else s

/-! ### Packets as flits (R405, R410, R412) -/

/-- The virtual channel of a packet type (R410). -/
def vcOf (ptype : Nat) : Nat :=
  if ptype = 1 then 0 else if ptype = 2 then 2 else if ptype = 7 then 3 else if ptype = 3 then 4 else if ptype = 4 then 5 else if ptype = 5 then 6 else 7

/-- The packet header (R412). -/
def packetHeader (ptype : Nat) (reissue xo enc : Bool) (plen tag orig part : Nat) : List Byte :=
  toLe 1 ptype ++ toLe 1 (reissue.toNat + 2 * xo.toNat + 4 * enc.toNat) ++ toLe 2 plen ++ toLe 2 tag ++ toLe 1 orig ++ toLe 1 part

/-- The key slot that a partition's carve names for its link encryption; 0 names none (R493, R501). -/
def State.linkKey (s : State) (part : Nat) : Nat := ((s.part? part).map (·.carve.linkKey)).getD 0

/-- A packet's flits: 240 bytes in each but the last. -/
def flitsOf (num vc : Nat) (bs : List Byte) : List TxFlit :=
  let cs := chunks 240 (bs.length / 240 + 1) bs
  cs.zipIdx.map (fun p => { vc := vc, sop := p.2 == 0, eop := p.2 + 1 == cs.length, bytes := p.1, num := num })

/-- Take a credit for a flit: one of its channel's reserve, otherwise a shared one (R411). -/
def Port.takeCredit (p : Port) (vc : Nat) : Option Port :=
  if 0 < mgetD p.credit vc 0 then some { p with credit := mset p.credit vc (mgetD p.credit vc 0 - 1) }
  else if 0 < p.shared then some { p with shared := p.shared - 1 } else none

/-- Send waiting flits in order, each channel held up at its first flit without a credit, until the replay buffer is full (R408, R411). -/
def Port.sendFlits : List TxFlit → List Nat → Port → Port
  | [], _, p => p
  | f :: l, blocked, p =>
    if blocked.contains f.vc ∨ 4096 ≤ p.replay.length then Port.sendFlits l (f.vc :: blocked) { p with tx := p.tx ++ [f] }
    else match p.takeCredit f.vc with
      | some q => Port.sendFlits l blocked { q with replay := q.replay ++ [(q.txSeq, f)], txSeq := (q.txSeq + 1) % 2 ^ 24 }
      | none => Port.sendFlits l (f.vc :: blocked) { p with tx := p.tx ++ [f] }

/-- Propose a width change (R419). -/
def Port.propose (p : Port) (w : Nat) : Port := { p with proposal := some { retrain := false, width := w }, attempt := (p.attempt + 1) % 256 }

/-- A port that is up sends what it can; a narrowed port with a packet waiting first proposes its trained width (R541). -/
def Port.pump (p : Port) : Port :=
  if p.state ≠ .up ∨ p.tx.isEmpty then p
  else if p.narrow then (if p.proposal.isNone then p.propose p.trained else p)
  else Port.sendFlits p.tx [] { p with tx := [] }

/-- The packets whose flits a port still holds. -/
def Port.holds (p : Port) (num : Nat) : Bool := p.tx.any (fun f => f.num == num) || p.replay.any (fun f => f.2.num == num)

/-- Packets without XO leave once every flit of theirs has been accepted (R421). -/
def Port.settle (p : Port) : Port := { p with outstanding := p.outstanding.filter (fun o => o.xo || p.holds o.num) }

/-- Take a packet off a port. -/
def Port.dropPacket (p : Port) (num : Nat) : Port :=
  { p with tx := p.tx.filter (fun f => f.num != num), replay := p.replay.filter (fun f => f.2.num != num), outstanding := p.outstanding.filter (fun o => o.num != num) }

/-- Give a packet's flits to a port; under a link key its tag counts in PLEN and its port key's count rises (R501). -/
def State.transmit (s : State) (k : Nat) (o : OutPkt) : State :=
  let key := if o.ptype = 1 then 0 else s.linkKey o.part
  let enc := key != 0
  let bs := packetHeader o.ptype o.reissue o.xo enc (o.payload.length + (if enc then 16 else 0)) o.tag o.orig o.part ++ o.payload ++ (if enc then toLe 16 (Config.freeNat s.free) else [])
  let s1 : State := if enc then { s with free := s.free + 1 } else s
  s1.modPort k (fun p => ({ p with
    tx := p.tx ++ flitsOf o.num (vcOf o.ptype) bs, outstanding := p.outstanding ++ [o],
    nonce := if enc then mset p.nonce key (mgetD p.nonce key 0 + 1) else p.nonce } : Port).pump)

/-- The tags of a port's ORIG that wait for an ACK (R423). -/
def State.tagsOf (s : State) (k : Nat) : List Nat := (s.fabric.ports.flatMap (·.outstanding)).filterMap (fun o => if o.orig == k && o.xo then some o.tag else none)

/-- The next tag of a port that no packet without an ACK carries, or carried before it was lost (R423). -/
def State.freeTag (s : State) (k : Nat) : Option Nat :=
  let used := s.tagsOf k ++ (s.port k).lostTags
  ((List.range (min 4096 (used.length + 1))).map (fun i => ((s.port k).nextTag + i) % 4096)).find? (fun t => !used.contains t)

/-- Send a packet of this device from a port; an XO packet waits while every tag of the port awaits its ACK (R412, R414, R423). -/
def State.sendPacket (s : State) (k ptype part uid : Nat) (payload : List Byte) (xo : Bool) (chill : Bool := false) : State :=
  let o : OutPkt := { num := s.fabric.nextNum, ptype := ptype, tag := 0, orig := k, part := part, xo := xo, uid := uid, payload := payload, firstAt := s.now, chill := chill }
  let s1 : State := { s with fabric := { s.fabric with nextNum := s.fabric.nextNum + 1 } }
  match (if xo then s1.freeTag k else some (s1.port k).nextTag) with
  | some t => (s1.modPort k (fun p => { p with nextTag := (t + 1) % 4096 })).transmit k { o with tag := t }
  | none => s1.modPort k (fun p => { p with waiting := p.waiting ++ [o] })

/-- Send the packets that waited for a tag, while tags are free. -/
def State.sendWaiting (s : State) (k : Nat) : State :=
  (s.port k).waiting.foldl (fun st o => match st.freeTag k with
    | some t => (st.modPort k (fun p => { p with nextTag := (t + 1) % 4096, waiting := p.waiting.filter (fun w => w.num != o.num) })).transmit k { o with tag := t, firstAt := st.now }
    | none => st) s

/-- The packets of a command that have not left for good: outstanding, or waiting for a tag (R439). -/
def State.unsent (s : State) (uid : Nat) : Bool := s.fabric.ports.any (fun p => p.outstanding.any (fun o => o.uid == uid) || p.waiting.any (fun o => o.uid == uid))

/-! ### Receiving (R409, R411) -/

/-- A DATA flit takes a credit of its channel's reserve, otherwise a shared one. -/
def Port.useCredit (p : Port) (vc : Nat) : Port :=
  if mgetD p.rxUse vc 0 < mgetD p.rsv vc 0 then { p with rxUse := mset p.rxUse vc (mgetD p.rxUse vc 0 + 1) } else { p with rxShared := p.rxShared + 1 }

/-- Freed credits go back to the channel's reserve until it is full, and to the shared pool otherwise. -/
def Port.freeCredits (p : Port) (vc n : Nat) : Port :=
  let back := min n (mgetD p.rxUse vc 0)
  { p with rxUse := mset p.rxUse vc (mgetD p.rxUse vc 0 - back), rxShared := p.rxShared - (n - back) }

/-- Take a whole packet out of a port's pool; its credits go back. -/
def Port.take : List (Nat × List Byte) → (List Byte → Bool) → Option ((Nat × List Byte) × List (Nat × List Byte))
  | [], _ => none
  | x :: l, f => if f x.2 then some (x, l) else (Port.take l f).map (fun r => (r.1, x :: r.2))

def State.takePacket (s : State) (k : Nat) (f : List Byte → Bool) : State :=
  match Port.take (s.port k).received f with
  | some (x, l) => s.modPort k (fun p => { p with received := l }.freeCredits x.1 (cdiv x.2.length 240))
  | none => s

/-- Whether received bytes begin with the header of a packet of a row. -/
def headerIs (ptype : Nat) (p : FabPacket) (bs : List Byte) : Bool :=
  fld bs 0 1 == ptype && fld bs 1 1 == p.reissue.toNat + 2 * p.xo.toNat + 4 * p.enc.toNat && fld bs 4 2 == p.tag.val && fld bs 6 1 == p.orig.val && fld bs 7 1 == p.part.val

/-! ### The end of start-up (R550, R553) -/

/-- Whether a port has heard its partner and is not up yet. -/
def State.fabricWaits (s : State) : Bool := s.fabric.ports.any (fun p => p.state == .training && p.heard)

/-- Steps 8 and 9: a host link is up, and every port with a partner is (R550). -/
def State.bootProgress (s : State) : State :=
  let ms := satN 16 ((s.now - s.boot.origin) / 25000)
  let s1 : State := if s.boot.step = 7 ∧ (s.host.links.1.state = .up ∨ s.host.links.2.state = .up) then { s with boot := { s.boot with step := 8, hostReadyMs := ms } } else s
  if s1.boot.step = 8 ∧ !s1.fabricWaits then { s1 with boot := { s1.boot with step := 9, fabricMs := ms } } else s1

/-! ### Holds of Chill contexts (R377) -/

/-- Requests of Chill commands whose flits a predicate picks hold their context's cores until their replies arrive. -/
def State.holdPackets (s : State) (nums : List Nat) : State :=
  { s with memory := { s.memory with far := s.memory.far.map (fun (f : Far) => if f.chill ∧ nums.contains f.num then { f with held := true } else f) },
           fabric := { s.fabric with ports := s.fabric.ports.map (fun (p : Port) =>
             { p with outstanding := p.outstanding.map (fun (o : OutPkt) => if o.chill ∧ nums.contains o.num then { o with held := true } else o) }) } }

/-- The packets in a port's replay buffer from a SEQ on enter link replay. -/
def State.replayed (s : State) (k from_ : Nat) : State :=
  s.holdPackets (((s.port k).replay.filter (fun f => decide ((f.1 + 2 ^ 24 - from_) % 2 ^ 24 < 2 ^ 23))).map (·.2.num))

/-- Whether a request in replay or reissued holds a context's cores. -/
def State.retryHeld (s : State) (x : Nat) : Bool :=
  let mine (uid : Nat) : Bool := ((s.cmd? uid).map (fun c => c.ctx == x)).getD false
  s.memory.far.any (fun f => f.held && mine f.uid) || s.fabric.ports.any (fun p => p.outstanding.any (fun o => o.held && mine o.uid))

end Sys2Proof.Machine
end

