-- ==== Sys2Proof/Machine/Operands.lean ====
section
/-! DEFINITION. The operand forms: packet fields, encoded addresses, host addresses, tickets, core ranges. -/

namespace Sys2Proof.Machine
open Sys2Proof

/-! ### Packet fields (R50) -/

def Running.u (c : Running) (off n : Nat) : Nat := fld c.pkt.bytes off n
def Running.opcode (c : Running) : Nat := c.u 0 2
def Running.flags (c : Running) : Nat := c.u 2 1
def Running.seq (c : Running) : Nat := c.u 4 4
def Running.step (c : Running) : Nat := c.u 8 8
def Running.record (c : Running) : Nat := c.u 16 8
def Running.scope (c : Running) : Nat := c.u 24 1
def Running.timeout (c : Running) : Nat := c.u 28 4
def Running.ticket (c : Running) : Nat := c.u 32 8
def Running.preemptible (c : Running) : Bool := bit c.flags 4
def Running.admin (c : Running) : Bool := match c.queue with
  | .admin _ => true
  | .ctx _ => false

/-- PLEN of a packet. -/
def packetPlen (p : Packet) : Nat := fld p.bytes 26 2
def packetOpcode (p : Packet) : Nat := fld p.bytes 0 2

/-- A whole packet: a header, and PLEN bytes of parameters where PLEN is one R51 accepts. -/
def packetWhole (p : Packet) : Bool :=
  decide (p.bytes.length = 64 + (if packetPlen p % 8 = 0 ∧ packetPlen p ≤ 448 then packetPlen p else 0))

/-- The first nonzero byte of a reserved range ends the command (R12). -/
def reserved (c : Running) (off n : Nat) : Except Stop Unit :=
  match (List.range n).find? (fun i => c.u (off + i) 1 ≠ 0) with
  | some i => fail (errFormat (off + i))
  | none => .ok ()

/-- The parameter length that an opcode with extended parameters states; another PLEN is a bad field (DEDUCED, log entry 12). An opcode without extended parameters ignores them. -/
def plenIs (c : Running) (n : Nat) : Except Stop Unit := need (c.u 26 2 == n) (errFormat 26)

/-- An opcode that takes TICKET 0 (DEDUCED, log entry 12). -/
def noTicket (c : Running) : Except Stop Unit := need (c.ticket == 0) (errFormat 32)

/-! ### Host addresses (16) -/

/-- The PASID of a command's host addresses: none on an admin queue, otherwise its context's (R455). -/
def State.pasidOf (s : State) (c : Running) : Option (BitVec 20) :=
  if c.admin then none else (s.ctx? c.ctx).map (·.pasid)

/-- The link a queue is bound to (R451). -/
def State.linkOf (s : State) (q : QueueId) : Nat := match s.findQueue q with
  | some e => e.link
  | none => 0

/-- The first 4 KiB page of a host range that is not ready: the link is down, or ATS is enabled and the page is not cached. -/
def State.hostMiss (s : State) (l : Nat) (pasid : Option (BitVec 20)) (addr n : Nat) : Option Nat :=
  let k := s.link l
  let pgs := (List.range ((addr + max n 1 - 1) / 4096 - addr / 4096 + 1)).map (fun i => addr / 4096 + i)
  if k.state = .down ∨ k.state = .training then some (addr / 4096)
  else if k.atsEn then pgs.find? (fun p => !k.atc.contains (pasid, p))
  else none

/-- Host bytes as the device reads them: a line its own agent holds Modified is read there (R453). -/
def State.hostRead (s : State) (l : Nat) (pasid : Option (BitVec 20)) (addr n : Nat) : List Byte :=
  (List.range n).map (fun i =>
    match s.host.hlc.find? (fun h => h.die == l && h.pasid == pasid && h.modified && h.line == (addr + i) / 64) with
    | some h => (h.data.drop ((addr + i) % 64)).headD 0
    | none => (s.hostMem pasid).get (addr + i))

/-- Write the Modified lines that a test picks back to host memory (R454). -/
def State.writeBack (s : State) (p : HlcLine → Bool) : State :=
  let out := s.host.hlc.filter (fun h => h.modified && p h)
  let s1 : State := { s with host := { s.host with hlc := s.host.hlc.filter (fun h => !(h.modified && p h)) } }
  out.foldl (fun st h => st.hostPost h.die h.pasid (h.line * 64) h.data false h.by_) s1

/-- Lines that a test picks leave the host-line caches, written back if they are Modified (R453, R454). -/
def State.dropLines (s : State) (p : HlcLine → Bool) : State :=
  let s1 := s.writeBack p
  { s1 with host := { s1.host with hlc := s1.host.hlc.filter (fun h => !p h) } }

/-- The line of a die's host-line cache that holds an address. -/
def HlcLine.holds (h : HlcLine) (l : Nat) (pasid : Option (BitVec 20)) (line : Nat) : Bool := h.die == l && h.pasid == pasid && h.line == line

/-- Put a line into its die's host-line cache of 65,536; in a full one a line that the TK9 chooses leaves (R453, R454). -/
def State.keepLine (s : State) (h : HlcLine) : State :=
  let others := s.host.hlc.filter (fun e => !e.holds h.die h.pasid h.line)
  let mine := others.filter (fun e => e.die == h.die)
  let s1 : State := { s with host := { s.host with hlc := others } }
  let s2 := match (if mine.length < 65536 then none else mine[Config.freeNat s.free % 65536]?) with
    | some v => ({ s1 with free := s.free + 1 } : State).dropLines (· == v)
    | none => s1
  { s2 with host := { s2.host with hlc := s2.host.hlc ++ [h] } }

/-- A request of the device meets its die's host-line cache: a hit, or a miss (R453, R468). -/
def State.lookLine (s : State) (l : Nat) (pasid : Option (BitVec 20)) (line : Nat) : State :=
  s.countK .hstHlcStat l (if s.host.hlc.any (·.holds l pasid line) then 0 else 32) 32 1

/-- A read of host memory by a command: without NO_ALLOCATE the lines that missed stay Shared in the cache (R453); without CXL.cache there is none (R448). -/
def State.hostTouch (s : State) (l : Nat) (pasid : Option (BitVec 20)) (addr n : Nat) (keep : Bool) : State :=
  if !(s.link l).cxlCache ∨ n = 0 then s else
  (List.range ((addr + n - 1) / 64 - addr / 64 + 1)).foldl (fun st i =>
    let line := addr / 64 + i
    let st1 := st.lookLine l pasid line
    if keep && !st.host.hlc.any (·.holds l pasid line) then st1.keepLine { die := l, pasid := pasid, line := line, modified := false, uid := 0 } else st1) s

/-- Store one piece of a line: a whole line goes out, part of a line is merged and left Modified (R453); without CXL.cache it is written through (R448). The follower of a pair stores nothing in its host (R387). -/
def State.hostLine (s : State) (l : Nat) (pasid : Option (BitVec 20)) (uid addr : Nat) (bs : List Byte) (poison : Bool) : State :=
  if s.silentCmd uid then s else
  let by_ := (s.cmd? uid).map (·.queue)
  let others := s.host.hlc.filter (fun h => !h.holds l pasid (addr / 64))
  if bs.length = 64 ∨ !(s.link l).cxlCache ∨ poison then
    let s1 : State := { s with host := { s.host with hlc := others } }
    (if bs.length = 64 then s1 else { s1 with host := { s1.host with hlc := s.host.hlc } }).hostPost l pasid addr bs poison by_
  else
    let old := s.hostRead l pasid (addr / 64 * 64) 64
    let new := old.take (addr % 64) ++ bs ++ old.drop (addr % 64 + bs.length)
    (s.lookLine l pasid (addr / 64)).keepLine { die := l, pasid := pasid, line := addr / 64, modified := true, uid := uid, by_ := by_, data := new }

/-- Store host bytes through the die's agent, line by line. -/
def State.hostStore (s : State) (l : Nat) (pasid : Option (BitVec 20)) (uid addr : Nat) (bs : List Byte) (poison : Bool := false) : State :=
  (List.range ((addr + bs.length + 63) / 64 - addr / 64)).foldl (fun st i =>
    let lo := max addr ((addr / 64 + i) * 64)
    let hi := min (addr + bs.length) ((addr / 64 + i + 1) * 64)
    if lo < hi then st.hostLine l pasid uid lo ((bs.drop (lo - addr)).take (hi - lo)) poison else st) s

/-- Whether a queue's data writes reach: its bound link, or every link for the guarantee of CS_SYSTEM (R66, R202). -/
def reaches (l : Nat) (sys : Bool) (k : Nat) : Bool := sys || k == l

/-- Send the Modified lines that a queue's commands have left on their way (R202). -/
def State.flushQueue (s : State) (q : QueueId) (sys : Bool) : State := s.writeBack (fun h => h.by_ == some q && reaches (s.linkOf q) sys h.die)

/-- Whether a data write of a queue's commands is held for a link (R202, R467). -/
def State.postsHeld (s : State) (q : QueueId) (sys : Bool) : Bool :=
  [0, 1].any (fun k => reaches (s.linkOf q) sys k && (s.link k).held.any (fun w => match w with
    | .data _ _ _ _ b => b == some q
    | .msix _ _ => false))

/-! ### Encoded addresses -/

/-- The context whose device virtual range a command's addresses lie in: its header's CONTEXT on an admin queue (R569). -/
def Running.space (c : Running) : Nat := if c.admin then c.u 3 1 else c.ctx

/-- Read a command's own inputs from host memory or device memory; poison ends it with DETAIL 0x000E before any effect (R571). -/
def State.input (s : State) (c : Running) (host : Bool) (addr n : Nat) : Except Stop (List Byte) :=
  if n = 0 then .ok [] else
  if host then
    let l := s.linkOf c.queue
    match s.hostMiss l (s.pasidOf c) addr n with
    | some p => .error (.park l (s.pasidOf c) p)
    | none =>
      if (s.hostMem (s.pasidOf c)).bad addr n then fail (errPoison 0x0E 0) else .ok (s.hostRead l (s.pasidOf c) addr n)
  else match s.vaRead c.space addr n with
    | some (bs, bad) =>
      if bad then
        let o := s.objAt c.space addr
        let at_ := match o with
          | some o => o.base + o.mem.firstBad (addr - o.base) n
          | none => addr
        fail (errPoison 0x0E (s.vaUnit c.space at_))
      else .ok bs
    | none => fail (errPage 0 ((s.unmapped c.space addr n).getD addr))

/-- A command's inputs that lie in device memory count in their pages (R229); those in host memory pass the host-line cache (R453). -/
def State.sawInput (s : State) (c : Running) (host : Bool) (addr n : Nat) : State := if host then s.hostTouch (s.linkOf c.queue) (s.pasidOf c) addr n true else s.vaTouch c.space addr n

/-- The same for inputs that an IMAGE field names. -/
def State.sawImage (s : State) (c : Running) (field n : Nat) : State := s.sawInput c (bit field 0) (field / 64 * 64) n

/-- An address field of the IMAGE form: [0] HOST, [5:1] 0, [63:6] address ÷ 64. -/
def imageField (c : Running) (off : Nat) : Except Stop (Bool × Nat) := do
  let v := c.u off 8
  need (bits v 5 1 == 0) (errFormat off)
  .ok (bit v 0, v / 64 * 64)

/-- A destination field of the RECORD form: [0] HOST, [4:1] 0, [63:5] address ÷ 32. -/
def recordField (c : Running) (off : Nat) : Except Stop (Bool × Nat) := do
  let v := c.u off 8
  need (bits v 4 1 == 0) (errFormat off)
  .ok (bit v 0, v / 32 * 32)

/-- Write a command's result to host or device memory; the runs (offset, bytes) of it that poison reached are written poisoned (R472, R473). -/
def State.output (s : State) (c : Running) (host : Bool) (addr : Nat) (bs : List Byte) (tensor : Nat := 0) (bad : List (Nat × Nat) := []) : Except Stop State :=
  if host then
    let l := s.linkOf c.queue
    let pas := s.pasidOf c
    let put (w : State → Nat → List Byte → Bool → State) : State :=
      (bad.foldl (fun (st : State) r => w st (addr + r.1) ((bs.drop r.1).take r.2) true) (w s addr bs false)).digestWrite c.uid tensor 0 9 bs
    match s.hostMiss l pas addr bs.length with
    | some p => if (s.link l).state = .down then .ok (put (fun st a b x => if s.silent c.part then st else st.hostPost l pas a b x (some c.queue)))
                else .error (.park l pas p)
    | none => .ok (put (fun st a b x => st.hostStore l pas c.uid a b x))
  else if s.mapped c.space addr bs.length then
    .ok (bad.foldl (fun (st : State) r => st.vaMarkFrom s c.space (addr + r.1) r.2) (((s.vaWrite c.space addr bs).vaTouch c.space addr bs.length).digestWrite c.uid tensor 0 9 bs))
  else fail (errPage 0 ((s.unmapped c.space addr bs.length).getD addr))

/-! ### Tickets (R70, R71) -/

/-- A ticket's 64 bits. -/
def ticketWord (slot part ctx gen : Nat) : Nat := slot + part * 2 ^ 12 + ctx * 2 ^ 24 + gen * 2 ^ 32

/-- Which loading opcodes a command accepts a ticket of. -/
inductive Issuer where
  | prog | plan | progOrPlan | fill | tables | group | any
  deriving DecidableEq, Repr

def Issuer.accepts (i : Issuer) (p : Payload) : Bool := match i, p with
  | .prog, .prog _ | .plan, .plan _ | .progOrPlan, .prog _ | .progOrPlan, .plan _ => true
  | .any, _ => true
  | .fill, .fill _ | .tables, .tables _ | .group, .group _ => true
  | _, _ => false

/-- The format of the ticket a command carries (R71): not 0, no reserved bit, and not one of the command's own partition and context that another opcode issued. A command judges it before its later fields, and its partition and generation after them (R63, R64). -/
def State.ticketFormat (s : State) (c : Running) (i : Issuer) : Except Stop Unit := do
  let t := c.ticket
  need (t ≠ 0 && bits t 23 17 == 0) (errFormat 32)
  match s.slot? c.part (bits t 11 0) with
  | some { live := some k, gen := g, .. } => need (bits t 16 12 != c.part || bits t 31 24 != c.ctx || g != bits t 63 32 || k.ctx != c.ctx || i.accepts k.payload) (errFormat 32)
  | _ => .ok ()

/-- The ticket a command carries, judged as R71 states. -/
def State.useTicket (s : State) (c : Running) (i : Issuer) : Except Stop (Nat × Ticket) := do
  let t := c.ticket
  need (t ≠ 0) (errFormat 32)
  need (bits t 23 17 == 0) (errFormat 32)
  need (bits t 16 12 == c.part && bits t 31 24 == c.ctx) (errPartition 32)
  match s.slot? c.part (bits t 11 0) with
  | none => fail (errConflict 1 (bits t 11 0))
  | some sl => match sl.live with
    | none => fail (errConflict 1 (bits t 11 0))
    | some k =>
      need (sl.gen == bits t 63 32 && k.ctx == c.ctx) (errConflict 1 (bits t 11 0))
      need (i.accepts k.payload) (errFormat 32)
      .ok (bits t 11 0, k)

/-- Judge a command's ticket: its format before the fields that do not depend on it, its partition and generation after them; where the ticket is good the command checks all its fields in order (R63, R64, R71). -/
def State.judgeTicket (s : State) (c : Running) (i : Issuer) (fields : Except Stop Unit) : Except Stop (Nat × Ticket) := do
  s.ticketFormat c i
  match s.useTicket c i with
  | .ok r => .ok r
  | .error e => do
    fields
    .error e

/-- FIRST_CORE and CORES of a command: the core range of the ticket (R191). -/
def coreRange (k : Ticket) (first cores off : Nat) : Except Stop (List Nat) := do
  let n := if cores = 0 then k.cores.length - first else cores
  need (decide (first < k.cores.length)) (errFormat off)
  need (decide (cores ≤ 32 ∧ first + n ≤ k.cores.length)) (errFormat (off + 1))
  .ok ((k.cores.drop first).take n)

/-! ### Contexts that commands name (R570) -/

/-- A live context that a parameter names; whether its partition is the function's is judged after the command's format, whose error has the lower code (R64, R570). -/
def State.liveCtx (s : State) (x off : Nat) : Except Stop Ctx :=
  match s.ctx? x with
  | none => fail (errFormat off)
  | some k => .ok k

/-- A context must lie in a partition that the issuing function serves (R570). -/
def servedCtx (fn : Nat) (k : Ctx) (off : Nat) : Except Stop Unit := need (serves fn k.part) (errPartition off)

/-- A context named by a command, judged as R570 states. -/
def State.namedCtx (s : State) (fn x off : Nat) : Except Stop Ctx := do
  let k ← s.liveCtx x off
  servedCtx fn k off
  .ok k

/-! ### The work of a core -/

/-- Whether the work on a core runs in Chill mode. -/
def State.coreChill (s : State) (c : Nat) : Bool :=
  match (s.core c).run with
  | some r => ((s.launch? r.launch).map (·.chill)).getD false
  | none => ((s.core c).user.bind (fun u => (s.cmd? u).map (·.chill))).getD false

/-- The STEP that the work on a core carries. -/
def State.coreStep (s : State) (c : Nat) : Nat :=
  match (s.core c).run with
  | some r => ((s.launch? r.launch).map (·.step)).getD 0
  | none => ((s.core c).user.bind (fun u => (s.cmd? u).map (·.step))).getD 0

/-- The seed of the context that a core works for. -/
def State.coreSeed (s : State) (c : Nat) : Nat := (((s.coreCtx c).bind s.ctx?).map (·.seed)).getD 0

/-- What comes of trying an operation: it waits (only links have changed), or it has run. -/
inductive Attempt where
  | wait (s : State)
  | go (s : State)
  deriving DecidableEq, Repr

/-! ### Loop bindings (R124) -/

/-- A bound field: the field plus the increment times the named register's iteration, in i64; `sel` is register and enable. -/
def bound (loops : List Nat) (sel field : Nat) (inc : Int) : Int :=
  if bit sel 2 then (field : Int) + inc * ((loops[sel % 4]?).getD 0 : Nat) else field

end Sys2Proof.Machine
end

