-- ==== Sys2Proof/Machine/Progress.lean ====
section
/-! DEFINITION. Streams, transfers and jobs in the state, and what a running command's PROGRESS reads (R76, R191, R204, R207, R345, R347). -/

namespace Sys2Proof.Machine
open Sys2Proof

/-- The digits of q in a mixed radix, least significant first. -/
def digits (q : Nat) : List Nat → List Nat
  | [] => []
  | r :: l => q % r :: digits (q / r) l

/-- Indices of a linear index. -/
def indices (counts : List Nat) (lin : Nat) : List Nat := digits lin counts

/-- A timeout of this tick, evaluated at the end of the tick (R80). -/
def State.expire (s : State) (e : Expiry) : State := { s with due := s.due ++ [e] }

/-! ### Move slots (R94) -/

/-- The physical cores of a partition. -/
def State.partCores (s : State) (p : Part) : List Nat := p.positions.filterMap s.posCore

/-- The partition that owns a physical core. -/
def State.corePart (s : State) (c : Nat) : Option Part := s.tenants.parts.find? (fun p => (s.partCores p).contains c)

/-- The most cores of a partition that hold a move slot at once; 0 sets no limit. -/
def State.moveSlots (s : State) (p : Nat) : Nat := s.field .coreStagger p 0 0 6

/-- The limit that a core stands under. -/
def State.slotLimit (s : State) (c : Nat) : Nat := ((s.corePart c).map (fun p => s.moveSlots p.id)).getD 0

/-- Whether a core may start a move operation: it holds a slot, or slots are not limited. -/
def State.mayMove (s : State) (c : Nat) : Bool := (s.core c).slot || s.slotLimit c == 0

/-! ### Owners and progress (R191, R204, R207) -/

def State.stream? (s : State) (id : Nat) : Option Stream := s.moves.streams.find? (·.id == id)
def State.modStream (s : State) (id : Nat) (f : Stream → Stream) : State :=
  { s with moves := { s.moves with streams := upd s.moves.streams (·.id == id) f } }
def State.modTransfer (s : State) (id : Nat) (f : Transfer → Transfer) : State :=
  { s with moves := { s.moves with transfers := upd s.moves.transfers (·.id == id) f } }
def State.modJob (s : State) (id : Nat) (f : Job → Job) : State :=
  { s with moves := { s.moves with jobs := upd s.moves.jobs (·.id == id) f } }

/-- The outstanding transfers of a stream. -/
def State.outstanding (s : State) (id : Nat) : List Transfer := s.moves.transfers.filter (·.stream == id)

/-- LOW: the lowest linear index not yet landed. -/
def State.low (s : State) (t : Stream) : Nat :=
  ((s.outstanding t.id).map (·.piece.first) ++ t.todo.map (·.first)).foldl min t.total

/-- NEXT: the lowest linear index not yet issued. -/
def Stream.nextIndex (t : Stream) : Nat := (t.todo.map (·.first)).foldl min t.total

/-- PROGRESS of a command's streams: the lowest LOW over its cores (R191, R208). -/
def State.jobLow (s : State) (uid : Nat) : Nat :=
  let j := s.moves.jobs.find? (·.uid == uid)
  match j with
  | some j => match j.fused with
    | some f => ((List.range f.tiles).find? (fun i => !f.done.contains i)).getD f.tiles
    | none => ((s.moves.streams.filter (·.uid == uid)).map s.low).foldl min j.total
  | none => 0

/-- Element size of a parameter or moment format. -/
def cruEs (fmt : Nat) : Nat := if fmt = 3 then 2 else 4
def Group.esp (g : Group) : Nat := cruEs g.pfmt
/-- Elements of an apply granule. -/
def Group.gpe (g : Group) : Nat := 64 / g.esp

/-- PROGRESS of work on a Crucible group: its next granule, or the lowest of its granules whose writes are still logged; in elements for CRU_APPLY, in granules for CRU_DEFERRED_FLUSH (R345, R347). -/
def State.cruLow (s : State) (q : CruJob) : Nat :=
  let low := ((s.cru.log.filter (fun e => e.uid == q.uid && e.ctx == q.ctx && e.group == q.gid)).map (·.granule)).foldl min q.next
  if q.flush then low else match s.cru.groups.find? (fun g => g.ctx == q.ctx && g.id == q.gid) with
    | some g => min (low * g.gpe) g.elems
    | none => low

/-- PROGRESS of a running command in its opcode's unit (R76): elements or tiles of its streams, layers of a plan, bags or rows of an embedding command, elements or granules of a Crucible command. -/
def State.progressOf (s : State) (uid : Nat) : Nat :=
  match s.cmd? uid with
  | none => 0
  | some c =>
    let adds := s.memory.far.filterMap (fun f => match f.use with
      | .rowAdd _ _ _ i => if f.uid = uid then some i else none
      | _ => none)
    let lowest (l : List Nat) : Nat := match l with
      | [] => c.progress
      | a :: r => r.foldl min a
    match c.work with
    | .plan k => k
    | _ =>
      if c.opcode = 0x602 then lowest ((s.embed.gathers.filter (fun g => g.uid == uid)).map (·.lo))
      else if c.opcode = 0x603 then lowest (adds ++ (s.embed.adds.filter (fun r => r.uid == uid)).map (fun r => r.index))
      else if c.opcode = 0x702 ∨ c.opcode = 0x704 then lowest ((s.cru.jobs.filter (·.uid == uid)).map s.cruLow)
      else if s.moves.jobs.any (fun j => j.uid == uid && !j.done) then s.jobLow uid else c.progress

/-- The progress descriptor (R204); the earliest parked transfer is the one issued first (DEDUCED, log entry 38). -/
def State.progressBytes (s : State) (t : Stream) (state : Nat) : List Byte :=
  let ts := (s.outstanding t.id).filter (·.parked.isSome)
  let fault : Nat × Nat := match ts with
    | x :: _ => (x.faultAddr, if x.parked = some .hostPage then 1 else 2)
    | [] => if t.faultKind = 3 then (t.faultAddr, 3) else (0, 0)
  let six (l : List Nat) : List Byte := (List.range 6).flatMap (fun i => toLe 4 ((l[i]?).getD 0))
  six (indices t.counts t.nextIndex) ++ six (indices t.counts (s.low t)) ++ toLe 8 fault.1 ++
  toLe 1 state ++ toLe 1 fault.2 ++ toLe 2 ts.length ++ toLe 4 0

/-- Write the progress descriptor of a core-program stream (R204). -/
def State.showProgress (s : State) (id : Nat) (failed : Bool := false) : State :=
  match s.stream? id with
  | some t => match t.descOff, t.core with
    | some off, some c =>
      let outs := s.outstanding id
      let state := if failed then 4 else if outs.any (·.parked.isSome) then 2 else if outs.isEmpty ∧ t.todo.isEmpty then 3 else 1
      s.storeWrite c (off + 128) (s.progressBytes t state)
    | _, _ => s
  | none => s

end Sys2Proof.Machine
end

