-- ==== Sys2Proof/Machine/Queues.lean ====
section
/-! DEFINITION. Queues: doorbells, fetching, starting and ending commands, records, and the queue opcodes (03). -/

namespace Sys2Proof.Machine
open Sys2Proof

/-- What an opcode does once its header has passed: its new state, with its outcome where it has one at once. -/
abbrev Body := Running → State → Except Stop (State × Option Reply)

/-! ### Ending the work of a command -/

/-- The bytes of a place of a context become unspecified: free values; a core store that another context holds is changed where it is saved (R211, R213). -/
def State.scramble (x : Nat) (s : State) (p : Place × Nat) : State :=
  let bs := toLe p.2 (Config.freeNat s.free)
  let s1 : State := { s with free := s.free + 1 }
  match p.1 with
  | .core c off =>
    if (s.core c).storeCtx = some x then s1.storeWrite c off bs
    else s1.modCore c (fun k => { k with saved := k.saved.map (fun (v : Saved) => if v.ctx = x then { v with store := v.store.write off bs } else v) })
  | .dev x a => s1.vaWrite x a bs
  | _ => s1

/-- Discard uncommitted provisional buffers (R213, R444). -/
def State.discard (s : State) (p : Provisional → Bool) : State :=
  let mine (v : Provisional) : Bool := p v && !v.committed
  let s1 := (s.memory.provisional.filter mine).foldl (fun (st : State) v =>
    let st1 := v.places.foldl (State.scramble v.ctx) st
    if v.coll.isSome then st1 else st1.count .strProv v.core 0 32 32) s
  { s1 with memory := { s1.memory with provisional := s1.memory.provisional.filter (fun v => !mine v) } }

/-- Discard the provisional buffers of a command that ends (R213); those of a run-ahead collective that has completed stay until a barrier (R444). -/
def State.discardProv (s : State) (uid : Nat) : State := s.discard (fun v => v.uid == uid && !(v.coll.isSome && v.done))

/-- A queue enters ERROR: the run-ahead collectives of its context are discarded (R444). -/
def State.queueError (s : State) (q : QueueId) : State :=
  let s1 := s.modQueue q (fun e => { e with state := .error })
  match q with
  | .ctx n => s1.discard (fun v => (v.coll.map (fun c => c.2 == n.val / 16)).getD false)
  | .admin _ => s1

def Launcher.uid : Launcher → Option Nat
  | .cmd u => some u
  | .entry u _ => some u
  | .batch _ _ _ => none

/-- Take a launch off its cores. -/
def State.endLaunch (s : State) (n : Nat) : State :=
  let mine (r : Run) : Bool := r.launch == n
  let cs := (s.cores.cores.filter (fun k => (k.run.map mine).getD false)).map (·.id)
  let on (o : Owner) : Bool := match o with
    | .engine c _ => cs.contains c
    | .job _ => false
  let ids := (s.moves.streams.filter (fun t => on t.owner)).map (·.id)
  let s0 : State := { s with
    moves := { s.moves with transfers := s.moves.transfers.filter (fun t => !ids.contains t.stream), streams := s.moves.streams.filter (fun t => !on t.owner) },
    embed := { s.embed with gathers := s.embed.gathers.filter (fun g => !on g.owner), adds := s.embed.adds.filter (fun r => !(r.owner.map on).getD false && r.launch != some n) } }
  let s1 : State := { s0 with
   cores := { s0.cores with
    cores := s0.cores.cores.map (fun (k : Core) => { (if (k.run.map mine).getD false then k.leave else k) with
      saved := k.saved.map (fun (v : Saved) => if (v.run.map mine).getD false then { v with run := none } else v) }),
    launches := s0.cores.launches.filter (fun l => l.id ≠ n) },
   fabric := { s0.fabric with bars := s0.fabric.bars.filter (fun b => (b.launch.map (·.1)) ≠ some n) } }
  { s1 with memory := { s1.memory with staged := s1.memory.staged.filter (fun g => g.launch ≠ some n) },
            embed := { s1.embed with scratch := s1.embed.scratch.filter (fun g => g.launch ≠ some n) } }

/-- Invalidations whose transfers have all ended, or parked, complete (R456). -/
def State.settleInv (s : State) : State :=
  let live (t : Nat) : Bool := s.moves.transfers.any (fun x => x.id == t && x.parked.isNone && !x.atsWait)
  let settle (k : Link) : Link := { k with invPending := (k.invPending.map (fun (e : Option (BitVec 20) × Nat × List Nat) => (e.1, e.2.1, e.2.2.filter live))).filter (fun e => !e.2.2.isEmpty) }
  if s.host.links.1.invPending.isEmpty ∧ s.host.links.2.invPending.isEmpty then s
  else { s with host := { s.host with links := (settle s.host.links.1, settle s.host.links.2) } }

/-- A request leaves the open batch it waits in; a batch that every request has left closes (R85). -/
def State.leaveBatches (s : State) (uid : Nat) : State :=
  { s with cores := { s.cores with fills := s.cores.fills.map (fun (k : FillGroup) => { k with openBatch := match k.openBatch with
    | some b =>
      let l := b.reqs.filter (fun q => q.uid != uid)
      if l.isEmpty then none else some { b with reqs := l }
    | none => none }) } }

/-- The commands that own a launch. -/
def State.launchCmds (s : State) (n : Nat) : List Nat :=
  match s.launch? n with
  | none => []
  | some l => match l.by_ with
    | .cmd u => [u]
    | .entry u _ => [u]
    | .batch p g b => (((s.cores.fills.filter (fun k => k.part == p && k.group == g)).flatMap (·.issued) |>.filter (·.id == b)).flatMap (fun b => b.reqs.map (·.uid))).filter (fun u => (s.cmd? u).isSome)

/-- Whether a program of a command runs a LADLE operation, which no stop interrupts (R260). -/
def State.inLadle (s : State) (uid : Nat) : Bool :=
  s.cores.cores.any (fun k => match k.run with
    | some r => (s.launchCmds r.launch).contains uid && (((r.engines[8]?).bind (·.cur)).map (fun q => q.op.op == 0x20)).getD false
    | none => false)

/-- The launch of a fill batch that a stream or gather belongs to; it goes on without the request that the work names (R85). -/
def State.batchLaunch (s : State) (o : Owner) : Option Nat := match o with
  | .engine c _ => ((s.core c).run.map (·.launch)).bind (fun n => match s.launcher n with
    | some (.batch _ _ _) => some n
    | _ => none)
  | .job _ => none

/-- The work of a batch's program passes from a request that ends to another of the batch (R85). -/
def State.passOn (s : State) (uid : Nat) : State :=
  let heir (u : Nat) (o : Owner) : Nat := if u ≠ uid then u else match s.batchLaunch o with
    | some n => ((s.launchCmds n).find? (· != uid)).getD uid
    | none => u
  { s with
    moves := { s.moves with streams := s.moves.streams.map (fun (t : Stream) => { t with uid := heir t.uid t.owner }) },
    embed := { s.embed with gathers := s.embed.gathers.map (fun (g : Gather) => { g with uid := heir g.uid g.owner }),
                            adds := s.embed.adds.map (fun (r : RowReq) => { r with uid := (r.owner.map (heir r.uid)).getD r.uid }) } }

/-- End everything that a command still has under way: its place in an open batch, its transfers, streams, programs, collectives, barriers, staged adds. -/
def State.killWork (s : State) (uid : Nat) : State :=
  let ls := (s.cores.launches.filter (fun l => l.by_.uid == some uid)).map (·.id)
  let s1 := ((ls.foldl State.endLaunch s).leaveBatches uid).passOn uid
  let ids := (s1.moves.streams.filter (fun t => t.uid == uid)).map (·.id)
  let ts := (s1.moves.transfers.filter (fun t => ids.contains t.stream)).map (·.id)
  let gs := (s1.embed.gathers.filter (fun g => g.uid == uid)).map (·.id)
  let mine (f : Far) : Bool := match f.use with
    | .read t _ => ts.contains t
    | .write t => ts.contains t
    | .row g _ => gs.contains g
    | .out g => gs.contains g
    | .cru u _ => u == uid
    | _ => false
  let voted := (s1.queues.flatMap (·.running)).filter (fun c => c.uid == uid && c.work == .vote)
  let s2 : State := { s1 with
    fw := if s1.fw.rollUid = some uid then { s1.fw with rollUid := none, stat := 4 } else s1.fw,
    tenants := { s1.tenants with ctxs := s1.tenants.ctxs.map (fun (x : Ctx) => { x with pendingVotes := x.pendingVotes.filter (fun n => !voted.any (fun c => c.ctx == x.id && c.step == n)) }) },
    cru := { s1.cru with jobs := s1.cru.jobs.filter (fun q => q.uid != uid) },
    moves := { s1.moves with
      transfers := s1.moves.transfers.filter (fun t => !ids.contains t.stream),
      streams := s1.moves.streams.filter (fun t => t.uid != uid),
      jobs := s1.moves.jobs.filter (fun j => j.uid != uid) },
    memory := { s1.memory with far := s1.memory.far.filter (fun f => !mine f), staged := s1.memory.staged.filter (fun g => !(g.launch.isNone && g.uid == uid)) },
    cores := { s1.cores with cores := s1.cores.cores.map (fun (k : Core) => if k.user = some uid then { k with user := none } else k) },
    embed := { s1.embed with scratch := s1.embed.scratch.filter (fun g => !(g.launch.isNone && g.uid == uid)), gathers := s1.embed.gathers.filter (fun g => g.uid != uid), adds := s1.embed.adds.filter (fun r => r.uid != uid) },
    pair := if s1.pair.pending = some uid then {} else { s1.pair with unpairing := s1.pair.unpairing.filter (· != uid) },
    fabric := { s1.fabric with
      ports := if s1.pair.pending = some uid then s1.fabric.ports.map (fun (p : Port) => if p.id = s1.pair.port then { p with pairLink := false } else p) else s1.fabric.ports,
      colls := s1.fabric.colls.filter (fun k => k.uid ≠ uid), bars := s1.fabric.bars.filter (fun k => k.uid ≠ uid) } }
  s2.settleInv

/-- A running command ends with an error: its work stops, its applied effects stand (R64). -/
def State.failCmd (s : State) (uid : Nat) (r : Reply) : State :=
  if ((s.cmd? uid).map (fun c => c.reply.isSome)).getD true then s else (s.killWork uid).reply uid r

/-- A running command ends with an error, with the PROGRESS it has reached (R64, R76). -/
def State.failAt (s : State) (uid : Nat) (r : Reply) : State := s.failCmd uid { r with progress := s.progressOf uid }

/-! ### Ending programs, batches and streams -/

/-- Release a ticket slot: its reservations return, its generation rises, and what the ticket kept alive goes (R70, R72, R331). -/
def State.release (s : State) (p n : Nat) : State :=
  let s1 := s.modSlot p n (fun t => { t with live := none, gen := t.gen + 1 })
  let owner := ((s.slot? p n).bind (·.live)).map (·.ctx)
  let gone := (s1.embed.tsets.filter (fun t => t.part == p && t.slot == n)).map (fun t => (t.ctx, t.id))
  { s1 with
    embed := { s1.embed with tsets := s1.embed.tsets.filter (fun t => !(t.part == p && t.slot == n)), yarrow := s1.embed.yarrow.filter (fun y => !gone.contains (y.ctx, y.tset)) },
    cru := { s1.cru with groups := s1.cru.groups.filter (fun g => !(g.part == p && g.slot == n)) },
    cores := { s1.cores with fills := s1.cores.fills.filter (fun g => !(g.part == p && g.slot == n)) },
    memory := { s1.memory with objs := s1.memory.objs.map (fun o => if some o.ctx = owner ∧ o.slot = n then { o with slot := 4096 } else o) } }

/-- The completed yields of a launch: every core has passed that many (R100). -/
def State.launchYields (s : State) (n : Nat) : Nat :=
  let rs := s.cores.cores.flatMap (fun k => (k.run.toList ++ k.saved.filterMap (·.run)).filter (·.launch == n))
  match rs with
  | [] => 0
  | r :: l => l.foldl (fun m q => min m q.yields) r.yields

def State.modFill (s : State) (p g : Nat) (f : FillGroup → FillGroup) : State :=
  { s with cores := { s.cores with fills := upd s.cores.fills (fun k => k.part == p && k.group == g) f } }

def State.fill? (s : State) (p g : Nat) : Option FillGroup := s.cores.fills.find? (fun k => k.part == p && k.group == g)

/-- Every request of a batch ends with a reply and the batch goes; a group being destroyed ends with its last batch (R85, R575). -/
def State.endBatch (s : State) (p g b : Nat) (r : Reply) : State :=
  match s.fill? p g with
  | none => s
  | some k =>
    let reqs := (k.issued.filter (·.id == b)).flatMap (·.reqs)
    let s1 := reqs.foldl (fun st q => st.reply q.uid r) s
    let s2 := s1.modFill p g (fun k => { k with issued := k.issued.filter (·.id != b) })
    if k.destroying ∧ k.issued.all (·.id == b) then
      let ds := (s2.queues.flatMap (·.running)).filter (fun c => c.work == .groupDrain p g)
      (ds.foldl (fun st c => st.reply c.uid ok) s2).release p k.slot
    else s2

/-- A program's command ends with an error: the program ends on every core (R64, R128). -/
def State.failLaunch (s : State) (n : Nat) (r : Reply) : State :=
  match s.launch? n with
  | none => s
  | some l =>
    let r1 := { r with progress := s.launchYields n }
    match l.by_ with
    | .cmd u => s.failCmd u r1
    | .entry u _ => s.failCmd u { r with progress := ((s.cmd? u).map (·.progress)).getD 0 }
    | .batch p g b => (s.endLaunch n).endBatch p g b r1

/-- The program of a core ends at an operation with an error (R64, R128). -/
def State.failCore (s : State) (c : Nat) (r : Reply) : State :=
  match (s.core c).run, (s.core c).user with
  | some run, _ => s.failLaunch run.launch r
  | none, some u => s.failCmd u r
  | none, none => s

/-- A stream ends its command or program with an error; the registers and its progress descriptor record it (R183, R205, R208). -/
def State.failStream (s : State) (id : Nat) (r : Reply) : State :=
  match s.stream? id with
  | none => s
  | some t =>
    let s1 := s.showProgress id true
    let s2 := match t.core with
      | some c => if r.status = 0x20 then (s1.flag .strStat c 0 4).count .strPark c 0 48 16 else s1
      | none => s1
    match t.owner with
    | .engine c _ => s2.failCore c r
    | .job _ => s2.failCmd t.uid { r with progress := s2.progressOf t.uid }

/-- The issued batch of a fill group that a command is a request of. -/
def State.issuedOf (s : State) (uid : Nat) : Option (FillGroup × Batch) :=
  s.cores.fills.findSome? (fun k => (k.issued.find? (fun b => b.reqs.any (fun q => q.uid == uid))).map (fun b => (k, b)))

/-- A command ends with an error of its work: with the PROGRESS it has reached, and with its whole batch where it is a request of one that has issued (R76, R85). -/
def State.failWork (s : State) (uid : Nat) (r : Reply) : State :=
  match s.issuedOf uid with
  | some (k, b) => match b.launch with
    | some n => s.failLaunch n r
    | none => s.endBatch k.part k.group b.id r
  | none => s.failAt uid r

/-! ### Records (R60, R61) -/

/-- The 32 bytes of a completion record. -/
def recordBytes (seq opcode ctx time flags : Nat) (r : Reply) : List Byte :=
  toLe 4 seq ++ toLe 2 r.status ++ toLe 2 r.detail ++ toLe 8 r.progress ++ toLe 8 time ++ toLe 4 r.extra ++ toLe 2 opcode ++ toLe 1 ctx ++ toLe 1 flags

/-- Write a record at a command's RECORD address; RECORD 0 writes none (R50). -/
def State.writeRecord (s : State) (c : Running) (flags : Nat) (r : Reply) : State :=
  if c.record = 0 then s else
  let bs := recordBytes c.seq c.opcode (c.u 3 1) s.now flags r
  let addr := c.record / 32 * 32
  if bit c.record 0 then (if s.silent c.part then s else s.hostPost (s.linkOf c.queue) (s.pasidOf c) addr bs)
  else if s.mapped c.space addr 32 then (s.vaWrite c.space addr bs).vaTouch c.space addr 32 else s

/-- Raise a queue's vector where NOTIFY asks it (R53). -/
def State.notify (s : State) (c : Running) : State :=
  if bit c.flags 3 ∧ !s.silent c.part then
    match s.findQueue c.queue with
    | some q => s.msix q.link (s.queueFn c.queue) q.vector
    | none => s
  else s

/-- The outcome as the record states it: poison a command consumed ends it with ERR_POISON, a lost host line with ERR_PAGE, unless it ended with a lower code (R473, R467, R64). -/
def Running.outcome (c : Running) (r : Reply) : Reply :=
  let r1 := match c.poison with
    | some (d, e) => if r.status < 0x10 ∨ 0x24 < r.status then { (errPoison d e : Reply) with progress := r.progress } else r
    | none => r
  if c.lostLine ∧ (r1.status < 0x10 ∨ 0x20 < r1.status) then { (errPage 0 0 : Reply) with progress := r1.progress } else r1

/-- Whether a command's comparison under Matchplate lets its record be written (R390). -/
def State.compared (s : State) (c : Running) : Bool :=
  !(s.pairedPart c.part && c.matchIndex != 0 && s.pair.compares.any (fun k => k.index == c.matchIndex))

/-- A queue that was to stop has stopped; ERROR and PREEMPTED are left only through QUEUE_START (R49). -/
def Queue.halted (e : Queue) : Queue := { e with state := if e.state = .running then .stopped else e.state, stopping := false }

/-- Meet the guarantee of a command's SCOPE before its record: CS_LINK writes back the lines of its data on its queue's link, CS_SYSTEM on both (R66). -/
def State.meetScope (s : State) (c : Running) : State :=
  let l := s.linkOf c.queue
  if c.scope = 0 then s.writeBack (fun h => h.uid == c.uid && h.die == l)
  else if c.scope = 3 then s.writeBack (fun h => h.uid == c.uid) else s

/-- Complete a command that has its outcome: scope, record, NOTIFY, history, STOP_ON_ERROR, run-ahead discard (R53, R58, R61, R65, R66, R213). -/
def State.finish (s : State) (c : Running) (r0 : Reply) : State :=
  let r := c.outcome r0
  let s2 := ((s.meetScope c).writeRecord c 1 r).notify c
  let s3 := s2.modQueue c.queue (fun q => { q with
    fenceAfter := if bit c.flags 1 ∨ c.opcode = 0x403 then some (c.scope == 3 || q.fenceAfter.getD false) else q.fenceAfter,
    running := q.running.filter (fun k => k.uid ≠ c.uid),
    history := (q.history ++ [({ seq := c.seq, reply := r, opcode := c.opcode } : Done)]).drop (q.history.length + 1 - 64) })
  let stops := decide (0x10 ≤ r.status ∧ r.status ≠ 0x40) && ((s3.queue? c.queue).map (fun q => q.stopOnError && q.state == .running)).getD false
  let s3 := if stops then s3.queueError c.queue else s3
  let s4 := if r.status = 0x24 then s3.count .fltPoisonCnt 0 0 32 32 else s3
  let s5 := if c.chill then s4.modCtx c.ctx (fun x => { x with chillCmds := x.chillCmds + 1 }) else s4
  let s6 := (s5.discardProv c.uid).killWork c.uid
  s6.modQueue c.queue (fun q => if q.stopping ∧ q.running.all (fun k => k.work == .queueStop c.queue) then q.halted else q)

/-- A command whose outcome is decided completes (R61); one without an outcome, or whose pair comparison is outstanding, goes on. -/
def State.complete (s : State) (uid : Nat) : State :=
  match s.cmd? uid with
  | some c => match c.reply with
    | some r => if s.compared c then s.finish c r else s
    | none => s
  | none => s

/-- A batch whose every request has been destroyed ends with its program (R49, R85). -/
def State.dropBatches (s : State) : State :=
  (s.cores.launches.filter (fun l => (match l.by_ with
    | .batch _ _ _ => true
    | _ => false) && (s.launchCmds l.id).isEmpty)).foldl (fun st l => st.failLaunch l.id (errAborted)) s

/-- End every started and every fetched command of a queue with its one final ERR_ABORTED record (R49). -/
def State.abortQueue (s : State) (q : QueueId) : State :=
  match s.queue? q with
  | none => s
  | some e =>
    let s1 := e.running.foldl (fun st c =>
      ((((st.killWork c.uid).discardProv c.uid |>.meetScope c).writeRecord c 1 (errAborted (st.progressOf c.uid))).notify c).modQueue q (fun e => { e with running := e.running.filter (fun k => k.uid != c.uid) })) s
    let s2 := e.fetched.foldl (fun st p =>
      let c : Running := { uid := 0, queue := q, pkt := p, ctx := q.owner, part := ((st.ctx? q.owner).map (·.part)).getD 0 }
      (st.writeRecord c 1 (errAborted)).notify c) s1
    (s2.modQueue q (fun e => { e with running := [], fetched := [] })).dropBatches

/-! ### Pre-emption (R74, R78) -/

/-- Whether every command of a program is PREEMPTIBLE (R74). -/
def State.launchPreemptible (s : State) (n : Nat) : Bool := (s.launchCmds n).all (fun u => ((s.cmd? u).map (·.preemptible)).getD true)

/-- The interim PREEMPTED record of a command that has stopped (R78). -/
def State.interim (s : State) (uid : Nat) : State :=
  match s.cmd? uid with
  | some c => if c.interim ∨ c.reply.isSome then s else
      (s.writeRecord c 2 (preempted (s.progressOf uid))).modCmd uid (fun k => { k with interim := true })
  | none => s

/-- Whether the row adds of a command that wait stand at tile boundaries, each core's first at one with the adds before it answered (R316). -/
def State.addsStopped (s : State) (uid : Nat) : Bool :=
  let mine := s.embed.adds.filter (fun r => r.uid == uid)
  mine.all (fun r => ((mine.find? (fun q => q.core == r.core)).map (·.edge)).getD true) &&
  (mine.isEmpty || !s.memory.far.any (fun f => f.uid == uid && (match f.use with
    | .rowAdd _ _ _ _ => true
    | _ => false)))

/-- Whether a command that R78 stops has stopped everywhere: no core runs a program of it, and each stream and Crucible job of it has stopped. -/
def State.stopped (s : State) (c : Running) : Bool :=
  !s.cores.cores.any (fun k => (k.run.map (fun r => (s.launchCmds r.launch).contains c.uid)).getD false) &&
  (s.moves.streams.filter (fun t => t.uid == c.uid)).all (·.stopped) && (s.embed.gathers.filter (fun g => g.uid == c.uid)).all (·.stopped) && s.addsStopped c.uid && (s.cru.jobs.filter (fun q => q.uid == c.uid)).all (·.stopped)

/-- Whether a command has pre-emption points within it: a program, streams, a plan, a fill batch, an apply (R74, R358). -/
def Work.preempts : Work → Bool
  | .launch _ | .jobs | .plan _ | .fill _ _ | .apply => true
  | _ => false

/-- Every command that R78 stops, and that has stopped, writes its interim record. -/
def State.settleStops (s : State) : State :=
  ((s.queues.flatMap (·.running)).filter (fun c => c.halt && !c.interim && c.work.preempts && s.stopped c)).foldl (fun st c => st.interim c.uid) s

/-- Stop the PREEMPTIBLE commands that a test picks at their next pre-emption point (R74, R78): programs at a YIELD, streams and Crucible jobs at a tile boundary; `halt` holds them there. -/
def State.stopCmds (s : State) (p : Running → Bool) (halt : Bool) : State :=
  let us := ((s.queues.flatMap (·.running)).filter (fun c => p c && c.preemptible && c.reply.isNone && c.work.preempts)).map (·.uid)
  let at_ (r : Run) : Bool := (s.launchCmds r.launch).any us.contains
  { s with
    queues := s.queues.map (fun (q : Queue) => { q with running := q.running.map (fun (c : Running) => if us.contains c.uid then { c with halt := c.halt || halt } else c) }),
    cores := { s.cores with cores := s.cores.cores.map (fun (k : Core) => if (k.run.map at_).getD false then { k with switchPending := true } else k) },
    moves := { s.moves with streams := s.moves.streams.map (fun (t : Stream) => if us.contains t.uid then { t with stopping := true } else t) },
    embed := { s.embed with gathers := s.embed.gathers.map (fun (g : Gather) => if us.contains g.uid then { g with stopping := true } else g) },
    cru := { s.cru with jobs := s.cru.jobs.map (fun (q : CruJob) => if us.contains q.uid then { q with stopping := true } else q) } }

/-! ### Starting a command -/

/-- The header checks of R51, R12, R59, R66 and R569. -/
def headerCheck (c : Running) (s : State) (adminOnly pfOnly : Bool) : Except Stop Unit := do
  need (bits c.flags 7 6 == 0) (errFormat 2)
  need (bits c.record 4 1 == 0) (errFormat 16)
  need (decide (c.scope ≤ 3)) (errFormat 24)
  need (bits (c.u 25 1) 7 3 == 0) (errFormat 25)
  need (c.u 26 2 % 8 == 0 && decide (c.u 26 2 ≤ 448)) (errFormat 26)
  need (!(adminOnly && !c.admin)) (errPartition 0)
  need (!(pfOnly && c.fn != 0)) (errPartition 0)
  need (c.admin || c.u 3 1 == c.ctx) (errPartition 3)
  if c.admin ∧ c.record ≠ 0 ∧ !bit c.record 0 then
    let _ ← s.namedCtx c.fn (c.u 3 1) 3
  .ok ()

/-- The entry of a packet that starts now. -/
def State.newCmd (s : State) (q : QueueId) (pkt : Packet) : Running :=
  let hdr := fld pkt.bytes 3 1
  let admin := match q with
    | .admin _ => true
    | .ctx _ => false
  let ctx := if admin then hdr else q.owner
  let x := s.ctx? ctx
  { uid := s.nextUid, queue := q, pkt := pkt, ctx := ctx, part := (x.map (·.part)).getD 0, fn := s.queueFn q,
    chill := (fld pkt.bytes 2 1).testBit 2 || (x.map (·.chill)).getD false, startedAt := s.now, order := s.nextUid }

/-- Whether a command of this opcode acts on the context of its header on an admin queue, or carries addresses of it; NOP and FENCE do neither (R569). -/
def actsOnHeader (op : Nat) : Bool := (0x200 ≤ op && op < 0x800 && op != 0x403) || op == 0x802 || 0xA00 ≤ op || op == 0x131

/-- Run a command's body and record what comes of it. -/
def State.runBody (s : State) (body : Body) (c : Running) : State :=
  match body c s with
  | .ok (s', some r) => s'.reply c.uid r
  | .ok (s', none) => s'
  | .error (.done r) => s.reply c.uid r
  | .error .held => s.modCmd c.uid (fun k => { k with work := .held })
  | .error (.park l p g) =>
    (s.modCmd c.uid (fun k => { k with work := .hostPage l p g })).modLink l (fun k =>
      if k.atsReqs.contains (p, g) ∨ k.pageReqs.contains (p, g) then k else { k with atsReqs := k.atsReqs ++ [(p, g)] })

/-- Run the body of a command that waits, if it is still there. -/
def State.rerun (s : State) (body : Body) (uid : Nat) : State :=
  match s.cmd? uid with
  | some c => s.runBody body c
  | none => s

/-- A paired partition refuses the opcodes that name a fabric axis (R388). -/
def State.refuseAxis (s : State) (c : Running) : Except Stop Unit :=
  need (!(s.pairedPart c.part && ((0x501 ≤ c.opcode && c.opcode ≤ 0x505) || (c.opcode == 0x506 && c.u 40 1 % 8 != 0)))) (errPartition 40)

/-- The checks before a body: header, the acting context. -/
def guardCheck (c : Running) (s : State) (adminOnly pfOnly : Bool) : Except Stop Unit := do
  headerCheck c s adminOnly pfOnly
  if c.admin ∧ actsOnHeader c.opcode then
    let _ ← s.namedCtx c.fn (c.u 3 1) 3

/-- A body behind its checks. -/
def guarded (adminOnly pfOnly : Bool) (body : Body) : Body := fun c s => do
  guardCheck c s adminOnly pfOnly
  body c s

/-- Send a Matchplate packet over the pair link (R413). -/
def State.sendMatch (s : State) (kind index : Nat) (bs : List Byte) : State :=
  s.sendPacket s.pair.port 5 s.pair.part 0 (toLe 1 kind ++ toLe 3 0 ++ toLe 4 index ++ bs) false

/-- A packet of a queue joins the running commands; under a pair it takes its place in the pair's order, and the lead forwards it (R54, R387). -/
def State.enter (s : State) (q : QueueId) (pkt : Packet) : Running × State :=
  let s0 := s.openAdmin q
  let c0 := s0.newCmd q pkt
  let paired := s0.pairedPart c0.part && !c0.admin
  let mine (k : Compare) : Bool := k.index == s0.pair.nextIndex
  let c := if paired then { c0 with matchIndex := s0.pair.nextIndex } else c0
  let s1 := { (s0.modQueue q (fun e => { e with running := e.running ++ [c] })) with nextUid := s0.nextUid + 1 }
  let s2 := if !paired then s1 else
    let k : Compare := { (s1.pair.compares.find? mine).getD { index := c.matchIndex } with uid := c.uid }
    let s3 : State := { s1 with pair := { s1.pair with nextIndex := s1.pair.nextIndex + 1, compares := put s1.pair.compares mine k } }
    if s3.pair.lead then s3.sendMatch 1 c.matchIndex (toLe 2 (q.key - 64) ++ toLe 6 0 ++ pkt.bytes) else s3
  (c, s2)

/-- A packet of a queue starts: it joins the running commands and its body runs. -/
def State.start (s : State) (q : QueueId) (pkt : Packet) (body : Body) : State := (s.enter q pkt).2.runBody body (s.enter q pkt).1

/-- The meaning of an opcode row: a whole packet of this opcode starts on an existing queue. -/
def opcodeStep (op : Nat) (adminOnly pfOnly : Bool) (body : Body) (q : QueueId) (pkt : Packet) (s : State) : Host.Outcome State Fault Refusal :=
  if packetWhole pkt ∧ packetOpcode pkt = op then
    match s.findQueue q with
    | none => .next s
    | some _ => s.run (fun s => s.start q pkt (guarded adminOnly pfOnly body))
  else .fault .illFormed

/-! ### Doorbells and fetching -/

/-- Evaluate a doorbell value (R46). -/
def State.doorbell (s : State) (q : QueueId) (v : Nat) : State :=
  let s1 := s.openAdmin q
  match s1.queue? q with
  | none => s1
  | some e =>
    let d := (v + 2 ^ 32 - e.tail) % 2 ^ 32
    if e.state = .absent then s1
    else if d = 0 ∨ 2 ^ 31 ≤ d then s1.modQueue q (fun e => { e with backward := satN 16 (e.backward + 1) })
    else if 2 ^ e.sizeLog2 < (v + 2 ^ 32 - e.head) % 2 ^ 32 then (s1.modQueue q (fun e => { e with overrun := true })).queueError q
    else s1.modQueue q (fun e => { e with tail := v })

/-- Whether a function's BAR shows a queue's registers (R48). -/
def State.seesQueue (s : State) (fn : Nat) (q : QueueId) : Bool :=
  match q with
  | .admin f => f.val == fn
  | .ctx n => (s.queue? q).isSome && (fn == 0 || ((s.ctx? (n.val / 16)).map (fun c => c.part + 1 == fn)).getD false)

/-- DOORBELL_WRITE (R46). -/
def execDoorbellWrite (fn : Fin 33) (q : QueueId) (value : BitVec 32) (s : State) : Host.Outcome State Fault Refusal :=
  s.run (fun s => if s.seesQueue fn q then s.doorbell q value.toNat else s)

/-- Ring bytes: slots from a slot count, wrapping at the end of the ring. -/
def ringAddrs (e : Queue) (slots : Nat) : List Nat := (List.range slots).map (fun i => e.base + (e.head + i) % 2 ^ e.sizeLog2 * 64)

/-- The partition whose event ring tells of a queue: its context's, or that of the function an admin queue belongs to; none for the PF's. -/
def State.eventPart (s : State) : QueueId → Nat
  | .admin f => if f.val = 0 then 0xFF else f.val - 1
  | .ctx n => ((s.ctx? (n.val / 16)).map (·.part)).getD 0xFF

/-- Put a queue into ERROR for a fetch fault, with its event (R572). The event names the queue by eight bytes, f for the admin queue of function f and 64 + n for context queue n, and then the faulting address: the spec gives the event's contents no layout (DESIGN CHOICE, log entry 63). -/
def State.fetchError (s : State) (q : QueueId) (addr : Nat) : State :=
  ((s.modQueue q (fun e => { e with fetchWait := none })).queueError q).event .queueFetch (s.eventPart q) 0 (toLe 8 q.key ++ toLe 8 addr)

/-- Read ring slots: bytes, a host page to wait for, or a fault's address. Where the host has disabled ATS, the read of one slot may complete with an error (R457, R572). -/
def State.ringRead (s : State) (e : Queue) (addrs : List Nat) (failing : Option Nat) : Except (Option Nat × Nat) (List Byte) :=
  addrs.zipIdx.foldl (fun acc p => do
    let bs ← acc
    let (a, i) := p
    if e.inDevice then
      match s.vaRead e.id.owner a 64 with
      | some (b, bad) => if bad then .error (none, a) else .ok (bs ++ b)
      | none => .error (none, a)
    else
      let p := match e.id with
        | .admin _ => none
        | .ctx n => (s.ctx? (n.val / 16)).map (·.pasid)
      match s.hostMiss e.link p a 64 with
      | some g => .error (some g, a)
      | none => if (!(s.link e.link).atsEn && failing == some i) || (s.hostMem p).bad a 64 then .error (none, a) else .ok (bs ++ s.hostRead e.link p a 64)) (.ok [])

/-- Ring slots read from device memory count in their pages (R229). -/
def State.sawSlots (s : State) (e : Queue) (addrs : List Nat) : State := if e.inDevice then addrs.foldl (fun st a => st.vaTouch e.id.owner a 64) s else s

/-- Sprue copies in the packet at HEAD once all of its slots lie before the tail (R44, R47, R572); `failing` is the slot of the packet whose untranslated read completes with an error, if one does. -/
def State.fetch (s : State) (q : QueueId) (failing : Option Nat) : State :=
  match s.findQueue q with
  | none => s
  | some e =>
    let avail := (e.tail + 2 ^ 32 - e.head) % 2 ^ 32
    let follower := !s.pair.lead && s.pairedPart (((s.ctx? q.owner).map (·.part)).getD 32) && q.key ≥ 64
    if e.state ≠ .running ∨ e.stopping ∨ e.fetchWait.isSome ∨ avail = 0 ∨ follower then s
    else if !e.inDevice ∧ (s.link e.link).state = .down then s
    else
      let pasid := match q with
        | .admin _ => none
        | .ctx n => (s.ctx? (n.val / 16)).map (·.pasid)
      let fault (f : Option Nat × Nat) : State := match f.1 with
        | some g => (s.modQueue q (fun e => { e with fetchWait := some (g, f.2) })).modLink e.link (fun k =>
            if k.atsReqs.contains (pasid, g) ∨ k.pageReqs.contains (pasid, g) then k else { k with atsReqs := k.atsReqs ++ [(pasid, g)] })
        | none => s.fetchError q f.2
      match s.ringRead e (ringAddrs e 1) failing with
      | .error f => fault f
      | .ok h =>
        let p := fld h 26 2
        if p % 8 ≠ 0 ∨ 448 < p then
          (s.sawSlots e (ringAddrs e 1)).modQueue q (fun e => { e with head := (e.head + 1) % 2 ^ 32, fetched := e.fetched ++ [{ bytes := h }] })
        else if avail < 1 + cdiv p 64 then s
        else match s.ringRead e (ringAddrs e (1 + cdiv p 64)) failing with
          | .error f => fault f
          | .ok bs => (s.sawSlots e (ringAddrs e (1 + cdiv p 64))).modQueue q (fun e => { e with head := (e.head + 1 + cdiv p 64) % 2 ^ 32, fetched := e.fetched ++ [{ bytes := bs.take (64 + p) }] })

/-- PACKET_FETCH (R47). -/
def execPacketFetch (q : FetchRead) (s : State) : Host.Outcome State Fault Refusal := s.run (fun s => s.fetch q.queue (q.failing.map (·.val)))

/-! ### Starting from a queue (R54 to R58) -/

/-- Whether a packet waits for the earlier commands of its queue: FENCE_BEFORE, a FENCE, or DET_LEDGER_READ, which behaves as though FENCE_BEFORE were set (R55, R380). -/
def packetFences (p : Packet) : Bool := (fld p.bytes 2 1).testBit 0 || fld p.bytes 0 2 == 0x403 || fld p.bytes 0 2 == 0x801

/-- Whether the next packet of a queue may start under its fences (R55) and the queue's state. -/
def Queue.ready (e : Queue) : Bool :=
  e.state == .running && !e.stopping &&
  (match e.fetched with
   | [] => false
   | p :: _ =>
     (!packetFences p || e.running.isEmpty) && e.running.all (fun c => !(bit c.flags 1 || c.opcode == 0x403)))

def Queue.priority (e : Queue) : Nat := match e.fetched with
  | [] => 0
  | p :: _ => fld p.bytes 25 1 % 8

/-- The group in which R56 orders queues: admin queues together, others by partition. -/
def State.queuePart (s : State) : QueueId → Nat
  | .admin _ => 0xFF
  | .ctx n => ((s.ctx? (n.val / 16)).map (·.part)).getD 0xFE

/-! ### Queue opcodes -/

/-- A queue number in bytes 40 and 41, judged as R49, R64 and R570 state; the rest of the inline bytes is reserved. -/
def queueArg (c : Running) (s : State) : Except Stop QueueId := do
  let n := c.u 40 2
  if h : n < 4096 then
    let q : QueueId := .ctx ⟨n, h⟩
    let x ← (if c.admin then do
        let x ← s.liveCtx (n / 16) 40
        need (!serves c.fn x.part || (s.queue? q).isSome) (errFormat 40)
        .ok x
      else do
        need (n / 16 == c.ctx && (s.queue? q).isSome) (errFormat 40)
        s.liveCtx c.ctx 40)
    reserved c 42 22
    need (!c.admin || serves c.fn x.part) (errPartition 40)
    .ok q
  else fail (errFormat 40)

/-- Queues of a partition. -/
def State.partQueues (s : State) (p : Nat) : List Queue := s.queues.filter (fun e => decide (64 ≤ e.id.key) && s.queuePart e.id == p)

/-- QUEUE_CREATE (R43, R570, R464, R451). The queue is RUNNING from its creation: the spec does not say (DESIGN CHOICE, log entry 88). -/
def bodyQueueCreate : Body := fun c s => do
  noTicket c
  need (bits (c.u 40 1) 7 4 == 0) (errFormat 40)
  let x ← s.liveCtx (c.u 41 1) 41
  let mine := serves c.fn x.part
  let q : QueueId := .ctx (Fin.ofNat 4096 (x.id * 16 + c.u 40 1))
  need (!mine || (s.queue? q).isNone) (errFormat 40)
  need (decide (6 ≤ c.u 42 1 ∧ c.u 42 1 ≤ 16)) (errFormat 42)
  need (bits (c.u 43 1) 7 2 == 0) (errFormat 43)
  need (decide (c.u 44 2 < (if c.fn = 0 then 2048 else 512))) (errFormat 44)
  reserved c 46 2
  let base := c.u 48 8
  let bytes := 2 ^ c.u 42 1 * 64
  need (base % 4096 == 0) (errFormat 48)
  if mine ∧ bit (c.u 43 1) 0 then
    match s.objAt x.id base with
    | some o => need ((o.policy == 1 || o.policy == 2) && decide (base + bytes ≤ o.base + o.size)) (errFormat 48)
    | none => fail (errFormat 48)
  reserved c 59 5
  servedCtx c.fn x 41
  let quota := ((s.part? x.part).map (·.carve.queues)).getD 0
  need (decide ((s.partQueues x.part).length < quota)) (errNofit 18 0)
  let e : Queue :=
    { id := q, sizeLog2 := c.u 42 1, inDevice := bit (c.u 43 1) 0, stopOnError := bit (c.u 43 1) 1,
      vector := c.u 44 2, base := base, peerMask := c.u 56 3, link := s.linkOf c.queue }
  .ok ({ s with queues := s.queues ++ [e] }, some ok)

/-- QUEUE_DESTROY (R49). -/
def bodyQueueDestroy : Body := fun c s => do
  noTicket c
  let q ← queueArg c s
  let s1 := s.abortQueue q
  .ok ({ s1 with queues := s1.queues.filter (fun e => e.id ≠ q) }, some ok)

/-- QUEUE_STOP (R49): started commands end first, then STOPPED. -/
def bodyQueueStop : Body := fun c s => do
  noTicket c
  let q ← queueArg c s
  let others := ((s.queue? q).map (fun e => e.running.filter (fun k => k.uid ≠ c.uid))).getD []
  if others.isEmpty then .ok (s.modQueue q Queue.halted, some ok)
  else .ok ((s.modQueue q (fun e => { e with stopping := true })).modCmd c.uid (fun k => { k with work := .queueStop q }), none)

/-- NOP (R59). -/
def bodyNop : Body := fun c s => do
  noTicket c
  .ok (s, some ok)

/-- FENCE (R203): a NOP with both fences set; it completes once earlier commands of its queue have. -/
def bodyFence : Body := fun c s => do
  noTicket c
  let earlier := ((s.queue? c.queue).map (fun e => e.running.any (fun k => decide (k.order < c.order)))).getD false
  if earlier then .error .held else .ok (s, some ok)

def execQueueCreate := opcodeStep 0x0101 true false bodyQueueCreate
def execQueueDestroy := opcodeStep 0x0102 true false bodyQueueDestroy
def execQueueStop := opcodeStep 0x0104 false false bodyQueueStop
def execNop := opcodeStep 0x0130 false false bodyNop
def execFence := opcodeStep 0x0403 false false bodyFence

end Sys2Proof.Machine
end

