-- ==== Sys2Proof/Machine/Far.lean ====
section
/-! DEFINITION. Far requests: tags, exactly-once slots, sending and releasing (R239 to R248). -/

namespace Sys2Proof.Machine
open Sys2Proof

/-- The lowest-numbered memory port of an expander group that is up (log entry 16). -/
def State.farPort (s : State) (group : Nat) : Option Nat :=
  match s.memory.groups.find? (·.group == group) with
  | some g => (insSort id g.ports).head?
  | none => none

/-- Whether a partition holds a memory port (R493). -/
def State.holdsPort (s : State) (part m : Nat) : Bool := ((s.part? part).map (fun p => p.carve.mports.testBit m)).getD true

/-- The group of a memory port. -/
def State.groupOf (s : State) (port : Nat) : Option Nat := (s.memory.groups.find? (fun g => g.ports.contains port)).map (·.group)

/-- The epoch of a group. -/
def State.epochOf (s : State) (group : Nat) : Nat := ((s.memory.groups.find? (·.group == group)).map (·.epoch)).getD 0

/-- The next tag of a port (R243). -/
def State.farTag (s : State) (port : Nat) : Nat × State :=
  let n := mgetD s.memory.nextTag port 0
  (n, { s with memory := { s.memory with nextTag := mset s.memory.nextTag port ((n + 1) % 2 ^ 20) } })

/-- A free exactly-once slot of an original port (R247). -/
def State.freeSlot (s : State) (port : Nat) : Option Nat :=
  firstFree 4096 ((s.memory.xoBusy.filter (fun p => p.1 == port)).map (·.2))

/-- The format code of an ATOMIC_ADD (R243). -/
def farFmt (use : FarUse) : Nat := match use with
  | .add _ _ _ f => if f = 5 then 0 else if f = 3 then 1 else if f = 4 then 2 else if f = 0xC then 4 else 3
  | _ => 0

/-- The request header of R243, and the payload of its opcode. -/
def Far.bytes (f : Far) : List Byte :=
  toLe 1 f.op ++ toLe 1 (f.xo.toNat + 2 * f.reissue.toNat) ++ toLe 2 f.granules ++ toLe 3 (f.tag + f.orig * 2 ^ 20) ++ toLe 1 (farFmt f.use) ++ toLe 6 f.addr ++ toLe 2 (f.slot.getD 0) ++ f.payload

/-- Put the flits of a MEM packet on a memory port (R410, R412, R413). -/
def State.memFlits (s : State) (m num part : Nat) (bs : List Byte) : State :=
  s.modPort (s.rolePort (24 + m)) (fun p => ({ p with tx := p.tx ++ flitsOf num 0 (packetHeader 1 false false false bs.length 0 0 part ++ bs) } : Port).pump)

/-- A far request goes out on its port. -/
def State.farOut (s : State) (f : Far) : State := s.memFlits f.port f.num (((s.cmd? f.uid).map (·.part)).getD 0) f.bytes

/-- The port that a command's request goes out on: of the ports its partition holds where it holds one (log entry 16). -/
def State.farPortFor (s : State) (uid group : Nat) : Option Nat :=
  match s.cmd? uid with
  | some c =>
    let own := ((s.memory.groups.find? (·.group == group)).map (fun g => g.ports.filter (fun m => s.holdsPort c.part m))).getD []
    match (insSort id own).head? with
    | some m => some m
    | none => s.farPort group
  | none => s.farPort group

/-- Whether a far request may leave: a request on a memory port that its partition does not hold is dropped (R494). -/
def State.farLeaves (s : State) (f : Far) : Bool := ((s.cmd? f.uid).map (fun c => s.holdsPort c.part f.port)).getD true && !(f.xo && f.slot.isNone)

/-- The expander address of an offset within a page. -/
def Page.farAddr (p : Page) (off : Nat) : Nat := p.ppn * pageBytes + off

/-- The granules of a far page that a request of a group writes or adds to. -/
def Page.granulesOf (p : Page) (group addr granules : Nat) : List Nat :=
  if p.tier = .t3 ∧ p.place = group then
    (List.range granules).filterMap (fun i => if addr / 64 + i < p.ppn * 32768 ∨ (p.ppn + 1) * 32768 ≤ addr / 64 + i then none else some (addr / 64 + i - p.ppn * 32768))
  else []

/-- A move of a far page marks the granules that a write or an add of anyone else reaches dirty (R231). -/
def PageMove.dirtied (m : PageMove) (op : Nat) (use : FarUse) (group addr granules : Nat) : PageMove :=
  let own : Bool := match use with
    | .move _ _ => true
    | _ => false
  if 2 ≤ op ∧ op ≤ 5 ∧ !own then { m with dirty := distinct (m.dirty ++ m.src.granulesOf group addr granules) } else m

/-- Send a far request; none where no port of the group is up. -/
def State.sendFar (s : State) (op : Nat) (use : FarUse) (uid group addr granules : Nat) (payload : List Byte) (chill : Bool) : Option State :=
  match s.farPortFor uid group with
  | none => none
  | some p =>
    let (tag, s1) := s.farTag p
    let xo := op == 4 || op == 5
    let slot := if xo then s1.freeSlot p else none
    let f : Far := { op := op, orig := p, tag := tag, port := p, use := use, uid := uid, granules := granules, xo := xo, slot := slot,
                     epoch := s1.epochOf group, addr := addr, payload := payload, issuedAt := s1.now, chill := chill, num := s1.fabric.nextNum }
    let s2 : State := { s1 with
      fabric := { s1.fabric with nextNum := s1.fabric.nextNum + 1 }
      memory := { s1.memory with far := s1.memory.far ++ [f], pageMoves := s1.memory.pageMoves.map (fun m => m.dirtied op use group addr granules), xoBusy := match slot with
        | some n => s1.memory.xoBusy ++ [(p, n)]
        | none => s1.memory.xoBusy } }
    some (if s2.farLeaves f then s2.farOut f else s2)

/-- Change an outstanding far request. -/
def State.modFar (s : State) (orig tag : Nat) (f : Far → Far) : State :=
  { s with memory := { s.memory with far := upd s.memory.far (fun g => g.orig == orig && g.tag == tag) f } }

/-- Give free slots of a port to the requests that wait for one, in order; they go out then. -/
def State.giveSlots (s : State) (port : Nat) : State :=
  (s.memory.far.filter (fun f => f.orig == port && f.xo && f.slot.isNone)).foldl (fun st f =>
    match st.freeSlot port with
    | some n =>
      let g : Far := { f with slot := some n, issuedAt := st.now }
      let st1 := st.modFar f.orig f.tag (fun _ => g)
      ({ st1 with memory := { st1.memory with xoBusy := st1.memory.xoBusy ++ [(port, n)] } } : State).farOut g
    | none => st) s

/-- Send RELEASE for the answered slots of a port, up to 32 a request, once 32 wait or no exactly-once request of the port is outstanding (R244, R247). -/
def State.releaseSlots (s : State) (port : Nat) : State :=
  let done := (s.memory.xoDone.filter (fun p => p.1 == port)).map (·.2)
  if done.isEmpty ∨ (done.length < 32 ∧ s.memory.far.any (fun f => f.orig == port && f.xo)) then s else
  match s.groupOf port with
  | none => s
  | some g =>
    (chunks 32 (done.length / 32 + 1) done).foldl (fun st l =>
      let bs := (List.range 32).flatMap (fun i => toLe 2 ((l[i]?).getD 0xFFFF))
      match st.sendFar 7 (.release l) 0 g 0 1 bs false with
      | some st1 => { st1 with memory := { st1.memory with xoDone := st1.memory.xoDone.filter (fun p => !(p.1 == port && l.contains p.2)) } }
      | none => st) s

/-- A slot may be used again. -/
def State.unbusy (s : State) (port : Nat) (slots : List Nat) : State :=
  ({ s with memory := { s.memory with
    xoBusy := s.memory.xoBusy.filter (fun p => !(p.1 == port && slots.contains p.2)),
    xoDone := s.memory.xoDone.filter (fun p => !(p.1 == port && slots.contains p.2)) } }).giveSlots port

/-- A port that meets R242 joins the group of its expander; a first port gives the group its number. The group's capacity is what CAPS_DATA offers, 2 TiB for each port of the group at most (R15, R242). -/
def State.admitPort (s : State) (e : Expander) : State :=
  match s.memory.groups.find? (fun g => g.id == e.id) with
  | some g =>
    let ports := setNum ((e.ports.head?).getD 0) g.ports
    { s with memory := { s.memory with groups := upd s.memory.groups (fun x => x.id == e.id) (fun _ => { e with group := g.group, ports := ports, capGib := min e.capGib (2048 * ports.length) }) } }
  | none => { s with memory := { s.memory with groups := s.memory.groups ++ [{ e with capGib := min e.capGib 2048 }] } }

/-- During start-up the memory ports wait until each has trained and been answered, or has reached its limit; then they are admitted in ascending order (R242). -/
def State.admitHeld (s : State) : State :=
  if !s.memory.trainWait.isEmpty then s else
  (insSort (fun e => (e.ports.head?).getD 0) s.memory.capsHeld).foldl State.admitPort { s with memory := { s.memory with capsHeld := [] } }

/-- A memory port of start-up has been answered, refused or lost: the others wait for it no more (R242). -/
def State.trainedOff (s : State) (m : Nat) : State := ({ s with memory := { s.memory with trainWait := s.memory.trainWait.filter (· != m) } } : State).admitHeld

/-- An outstanding far request. -/
def State.far? (s : State) (orig tag : Nat) : Option Far := s.memory.far.find? (fun f => f.orig == orig && f.tag == tag)

def State.dropFar (s : State) (orig tag : Nat) : State :=
  { s with memory := { s.memory with far := s.memory.far.filter (fun f => !(f.orig == orig && f.tag == tag)) } }

/-- Write a range of one T3 page: whole granules by WR, parts of a granule by WR_MASK (R244). -/
def State.farWrite (s : State) (use : FarUse) (uid : Nat) (p : Page) (off : Nat) (bs : List Byte) (chill : Bool) : Option (State × Nat) :=
  let lo := off / 64
  let hi := (off + bs.length + 63) / 64
  let gran (i : Nat) : List Byte × Nat × Bool :=
    let a := max off (i * 64)
    let b := min (off + bs.length) ((i + 1) * 64)
    ((bs.drop (a - off)).take (b - a), a, decide (b - a = 64))
  let whole := (List.range (hi - lo)).filter (fun i => (gran (lo + i)).2.2)
  let part := (List.range (hi - lo)).filter (fun i => !(gran (lo + i)).2.2)
  let s1 := (chunks 64 (whole.length / 64 + 1) whole).foldl (fun (acc : Option (State × Nat)) (ch : List Nat) => match acc, ch with
      | some (st, n), j :: _ => (st.sendFar 2 use uid p.place (p.farAddr ((lo + j) * 64)) ch.length (ch.flatMap (fun k => (gran (lo + k)).1)) chill).map (fun st1 => (st1, n + 1))
      | o, _ => o) (some (s, 0))
  part.foldl (fun (acc : Option (State × Nat)) i => match acc with
    | some (st, n) =>
      let g := gran (lo + i)
      let at_ := g.2.1 % 64
      let mask := (List.range g.1.length).foldl (fun m k => m + 2 ^ (at_ + k)) 0
      (st.sendFar 3 use uid p.place (p.farAddr ((lo + i) * 64)) 1 (toLe 8 mask ++ List.replicate at_ 0 ++ g.1 ++ List.replicate (64 - at_ - g.1.length) 0) chill).map (fun st1 => (st1, n + 1))
    | none => none) s1

/-! ### When a link drops (R421, R422, R241, R247) -/

/-- Whether a request or packet has outlived GL_CFG.REQ_LIFE. -/
def State.outlived (s : State) (first : Nat) : Bool := decide (first + s.field .glCfg 0 0 16 16 < s.now)

/-- Page moves end: the requests of theirs that are unanswered are forgotten. -/
def State.dropMoves (s : State) (p : PageMove → Bool) : State :=
  let ids := (s.memory.pageMoves.filter p).map (fun m => m.id)
  { s with memory := { s.memory with
    pageMoves := s.memory.pageMoves.filter (fun m => !p m)
    far := s.memory.far.filter (fun f => match f.use with
      | .move id _ => !ids.contains id
      | _ => true) } }

/-- A page move is abandoned: the page stays at its source, and MEM_RUNNER_STAT.ABANDONED counts it (R233). -/
def State.abandonMove (s : State) (id : Nat) : State := (s.dropMoves (fun m => m.id == id)).count .memRunnerStat 0 0 32 16

/-- A far request of a page move is answered: granules read take the data in the model's image of the page, but for those written since; poison read marks them (R231, R233). -/
def State.moveReply (s : State) (id off : Nat) (data : List Byte) (poison : Nat) : State :=
  match s.memory.pageMoves.find? (fun m => m.id == id) with
  | none => s
  | some m =>
    let gs := (chunks 64 (data.length / 64 + 1) data).zipIdx.filter (fun g => !m.dirty.contains (off / 64 + g.2))
    let s1 := s.modObj m.ctx m.handle (fun o => { o with mem := gs.foldl (fun mem g => mem.put (m.index * pageBytes + off + 64 * g.2) g.1 (poison.testBit g.2)) o.mem })
    { s1 with memory := { s1.memory with pageMoves := upd s1.memory.pageMoves (fun m => m.id == id) (fun m => { m with pending := m.pending - 1 }) } }

/-- What issued a far request ends with an error: its stream, with its progress descriptor, or its command (R76, R208). -/
def State.failFar (s : State) (f : Far) (r : Reply) : State :=
  let ofTransfer (t : Nat) : State := match s.moves.transfers.find? (·.id == t) with
    | some x => s.failStream x.stream r
    | none => s.failWork f.uid r
  match f.use with
  | .read t _ => ofTransfer t
  | .write t => ofTransfer t
  | .move m _ => s.abandonMove m
  | _ => s.failWork f.uid r

/-- A far request that finds no sibling up, or has outlived REQ_LIFE, ends its command (R422). -/
def State.loseFar (s : State) (f : Far) : State :=
  ((s.count .glPortXo (24 + f.orig) 0 32 16).dropFar f.orig f.tag).failFar f (errLinkLost (24 + f.orig) f.tag)

/-- Reissue the requests of a dropped memory port on the other up ports of its group in turn, with TAG, ORIG and SLOT kept and REISSUE set (R241, R247). -/
def State.reissueFar (s : State) (m : Nat) : State :=
  let sibs := ((s.memory.groups.find? (fun g => g.ports.contains m)).map (fun g => insSort id (g.ports.filter (· != m)))).getD []
  let order := sibs.filter (fun j => decide (m < j)) ++ sibs.filter (fun j => decide (j < m))
  ((s.memory.far.filter (fun f => f.port == m && !(f.xo && f.slot.isNone))).foldl (fun (acc : State × Nat) f =>
    match order[acc.2 % max 1 order.length]? with
    | some j =>
      if acc.1.outlived f.issuedAt then (acc.1.loseFar f, acc.2) else
      let g : Far := { f with port := j, reissue := true, held := f.held || f.chill }
      (((acc.1.modFar f.orig f.tag (fun _ => g)).count .memFarStat f.orig 0 32 16).farOut g, acc.2 + 1)
    | none => (acc.1.loseFar f, acc.2)) (s, 0)).1

def sameBar (a b : RingBar) : Bool := a.part == b.part && a.axis == b.axis && a.id == b.id && a.epoch == b.epoch && a.vote == b.vote && a.step == b.step
def State.putBar (s : State) (b : RingBar) : State := { s with fabric := { s.fabric with bars := put s.fabric.bars (sameBar b) b } }
def State.delBar (s : State) (b : RingBar) : State := { s with fabric := { s.fabric with bars := s.fabric.bars.filter (fun e => !sameBar b e) } }

/-- A barrier whose packet cannot go on is counted, and ends the command or program that holds it (R118). -/
def State.barLost (s : State) (b : RingBar) (e : Reply) : State :=
  let s1 := (s.delBar b).count .colBarStat b.part 0 32 16
  match b.uid, b.launch with
  | some u, _ => s1.failAt u e
  | none, some l => s1.failLaunch l.1 e
  | none, none => s1

/-- The barrier that a barrier packet's payload names. -/
def packetBar (part : Nat) (h : List Byte) : RingBar :=
  { part := part, axis := fld h 1 1, id := fld h 2 2, epoch := fld h 4 4, vote := decide (2 ≤ fld h 0 1), step := fld h 16 8 }

/-- A packet that finds no sibling, or has outlived REQ_LIFE, ends the command that issued it; a barrier packet also counts as a failed barrier (R118, R422). Its TAG stays taken until its ACK arrives (R423). -/
def State.losePacket (s : State) (o : OutPkt) : State :=
  let s1 := (s.modPort o.orig (fun p => if o.xo then { p with lostTags := p.lostTags ++ [o.tag] } else p)).count .glPortXo o.orig 0 32 16
  let e := errLinkLost o.orig o.tag
  match (if o.ptype = 3 then s1.fabric.bars.find? (sameBar (packetBar o.part o.payload)) else none) with
  | some b => s1.barLost b e
  | none => s1.failWork o.uid e

/-- Deal the outstanding packets of a dropped fabric port whole to its siblings in turn (R422). -/
def State.reissuePackets (s : State) (k : Nat) : State :=
  let p := s.port k
  let order := s.siblings k
  let s1 := s.modPort k (fun p => { p with tx := [], replay := [], outstanding := [], waiting := [] })
  let s2 := (p.outstanding.foldl (fun (acc : State × Nat) o =>
    match order[acc.2 % max 1 order.length]? with
    | some j =>
      if acc.1.outlived o.firstAt then (acc.1.losePacket o, acc.2) else
      ((acc.1.count .glPortXo o.orig 0 0 16).transmit j { o with reissue := true, held := o.held || o.chill }, acc.2 + 1)
    | none => (acc.1.losePacket o, acc.2)) (s1, 0)).1
  p.waiting.foldl (fun st o => match order.head? with
    | some j => st.sendPacket j o.ptype o.part o.uid o.payload o.xo o.chill
    | none => st.losePacket o) s2

/-- A port's outstanding packets leave it: to siblings, or their commands end (R421, R422). -/
def State.reissuePort (s : State) (k : Nat) : State :=
  let p := s.port k
  if p.memory then
    let m := p.role - 24
    let s1 := (s.modPort k (fun p => { p with tx := [], replay := [] })).reissueFar m
    { s1 with memory := { s1.memory with groups := s1.memory.groups.map (fun (g : Expander) => { g with ports := g.ports.filter (· != m) }), capsHeld := s1.memory.capsHeld.filter (fun (g : Expander) => !g.ports.contains m) } }
  else s.reissuePackets k

end Sys2Proof.Machine
end

