-- ==== Sys2Proof/Machine/Codes.lean ====
section
/-! DEFINITION. The checks and the generator: CRC-16 (R284), CRC-32 (R406), CRC-64 (R359), Philox4x32-10 and the words drawn from it (R381 to R383). -/

namespace Sys2Proof.Machine
open Sys2Proof

/-- One byte into an unreflected CRC of n bits, most significant bit first. -/
def crcByte (n poly : Nat) (c : Nat) (b : Nat) : Nat :=
  (List.range 8).foldl (fun c _ => if c.testBit (n - 1) then (c * 2 % 2 ^ n) ^^^ poly else c * 2 % 2 ^ n) (c ^^^ (b <<< (n - 8)))

/-- CRC-16 of R284. -/
def crc16 (bs : List Byte) : Nat := bs.foldl (fun c b => crcByte 16 0x1021 c b.toNat) 0xFFFF

/-- CRC-64/ECMA-182 of R359, from a starting value. -/
def crc64From (c : Nat) (bs : List Byte) : Nat := bs.foldl (fun c b => crcByte 64 0x42F0E1EBA9EA3693 c b.toNat) c
def crc64 (bs : List Byte) : BitVec 64 := BitVec.ofNat 64 (crc64From 0 bs)

/-- CRC-32 of R406: reflected, initial value and final XOR all ones. -/
def crc32 (bs : List Byte) : Nat :=
  bs.foldl (fun c b => (List.range 8).foldl (fun c _ => if c.testBit 0 then (c >>> 1) ^^^ 0xEDB88320 else c >>> 1) (c ^^^ b.toNat)) 0xFFFFFFFF
    ^^^ 0xFFFFFFFF

/-- A counter or an output of the generator: four 32-bit words. -/
structure Quad where
  a : Nat
  b : Nat
  c : Nat
  d : Nat
  deriving DecidableEq, Repr

def Quad.at (q : Quad) (i : Nat) : Nat := if i = 0 then q.a else if i = 1 then q.b else if i = 2 then q.c else q.d

/-- n rounds of the generator (R381). -/
def philoxRounds : Nat → Quad → Nat → Nat → Quad
  | 0, q, _, _ => q
  | n + 1, q, k0, k1 =>
    let p0 := 0xD2511F53 * q.a
    let p1 := 0xCD9E8D57 * q.c
    philoxRounds n ⟨p1 / 2 ^ 32 ^^^ q.b ^^^ k0, p1 % 2 ^ 32, p0 / 2 ^ 32 ^^^ q.d ^^^ k1, p0 % 2 ^ 32⟩
      ((k0 + 0x9E3779B9) % 2 ^ 32) ((k1 + 0xBB67AE85) % 2 ^ 32)

def philox (ctr : Quad) (k0 k1 : Nat) : Quad := philoxRounds 10 ctr k0 k1

/-- The key of a seed, tag and domain (R382). -/
def randKey (seed tag domain : Nat) : Nat × Nat :=
  let o := philox ⟨tag % 2 ^ 32, domain, 0, 0⟩ (seed % 2 ^ 32) (seed / 2 ^ 32 % 2 ^ 32)
  (o.a, o.b)

/-- A word under a key (R382). -/
def randWord (k : Nat × Nat) (step i : Nat) : Nat :=
  let n := i / 4
  (philox ⟨n % 2 ^ 32, n / 2 ^ 32 % 2 ^ 32, step % 2 ^ 32, step / 2 ^ 32 % 2 ^ 32⟩ k.1 k.2).at (i % 4)

/-- A word of a seed, tag, domain, step and index (R383). -/
def rand (seed tag domain step i : Nat) : Nat := randWord (randKey seed tag domain) step i

end Sys2Proof.Machine
end

