-- ==== Sys2Proof/Machine/Float.lean ====
section
/-! DEFINITION. Number formats and exact arithmetic: a finite value is a sign, a natural significand and a power of two; every rounding is to nearest even (R125, R133 to R136, R163 to R165). -/

namespace Sys2Proof.Machine
open Sys2Proof

/-- An exact value: ±m × 2^e, an infinity, or NaN. -/
inductive Num where
  | nan
  | inf (neg : Bool)
  | fin (neg : Bool) (m : Nat) (e : Int)
  deriving DecidableEq, Repr

/-- A binary format: exponent bits, fraction bits, bias, the code of the largest finite magnitude, the code of infinity (none without one), the code of the canonical NaN (none without one). -/
structure Fmt where
  eb : Nat
  mb : Nat
  bias : Int
  maxCode : Nat
  infCode : Option Nat
  nanCode : Option Nat
  deriving DecidableEq, Repr

def f32 : Fmt := ⟨8, 23, 127, 0x7F7FFFFF, some 0x7F800000, some 0x7FC00000⟩
def bf16 : Fmt := ⟨8, 7, 127, 0x7F7F, some 0x7F80, some 0x7FC0⟩
def f16 : Fmt := ⟨5, 10, 15, 0x7BFF, some 0x7C00, some 0x7E00⟩
def e4m3 : Fmt := ⟨4, 3, 7, 0x7E, none, some 0x7F⟩
def e5m2 : Fmt := ⟨5, 2, 15, 0x7B, some 0x7C, some 0x7F⟩
/-- The MXFP8 elements: those of R135 for E4M3 and E5M2. -/
def e2m3 : Fmt := ⟨2, 3, 1, 0x1F, none, none⟩
def e3m2 : Fmt := ⟨3, 2, 3, 0x1F, none, none⟩
def e2m1 : Fmt := ⟨2, 1, 1, 0x7, none, none⟩

/-- The bits of a format without its sign. -/
def Fmt.mag (f : Fmt) : Nat := f.eb + f.mb
def Fmt.width (f : Fmt) : Nat := f.eb + f.mb + 1

/-- The value of an encoding. -/
def Fmt.dec (f : Fmt) (x : Nat) : Num :=
  let neg := x.testBit f.mag
  let c := x % 2 ^ f.mag
  if c ≤ f.maxCode then
    (if c < 2 ^ f.mb then .fin neg c (1 - f.bias - f.mb)
     else .fin neg (2 ^ f.mb + c % 2 ^ f.mb) ((c / 2 ^ f.mb : Nat) - f.bias - f.mb))
  else if f.infCode = some c then .inf neg else .nan

/-- n ÷ 2^s rounded to nearest, ties to even. -/
def rneShift (n s : Nat) : Nat :=
  let q := n >>> s
  let r := n % 2 ^ s
  if s = 0 then n else if 2 ^ (s - 1) < r ∨ (r = 2 ^ (s - 1) ∧ q % 2 = 1) then q + 1 else q

/-- The magnitude code of m × 2^e rounded to a format; it may lie above the largest finite code. -/
def Fmt.code (f : Fmt) (m : Nat) (e : Int) : Nat :=
  if m = 0 then 0 else
  let top : Int := (lg m : Int) + e
  let q := max (top - f.mb) (1 - f.bias - f.mb)
  let k := if q ≤ e then m * 2 ^ (e - q).toNat else rneShift m (q - e).toNat
  ((q + f.mb + f.bias - 1).toNat) * 2 ^ f.mb + k

def Fmt.signBit (f : Fmt) (neg : Bool) : Nat := if neg then 2 ^ f.mag else 0

/-- An encoding with whether a finite value overflowed or a value was written as a finite limit. -/
structure Enc where
  bits : Nat
  ovf : Bool := false
  sat : Bool := false
  deriving DecidableEq, Repr

/-- Round a value to a format as R164 states; `sat` is SAT 1. -/
def Fmt.enc (f : Fmt) (sat : Bool) (x : Num) : Enc :=
  match x with
  | .nan => ⟨f.nanCode.getD 0, false, false⟩
  | .inf neg => match f.infCode with
    | some c => ⟨f.signBit neg + c, false, false⟩
    | none =>
      if f.nanCode.isSome ∧ !sat then ⟨f.nanCode.getD 0, true, false⟩ else ⟨f.signBit neg + f.maxCode, true, true⟩
  | .fin neg m e =>
    let c := f.code m e
    if c ≤ f.maxCode then ⟨f.signBit neg + c, false, false⟩
    else if sat then ⟨f.signBit neg + f.maxCode, true, true⟩
    else match f.infCode with
      | some i => ⟨f.signBit neg + i, true, false⟩
      | none => match f.nanCode with
        | some n => ⟨n, true, false⟩
        | none => ⟨f.signBit neg + f.maxCode, true, true⟩

/-! ### Exact arithmetic -/

def Num.neg : Num → Num
  | .nan => .nan
  | .inf n => .inf (!n)
  | .fin n m e => .fin (!n) m e

def Num.isNan : Num → Bool
  | .nan => true
  | _ => false

def Num.isFin : Num → Bool
  | .fin _ _ _ => true
  | _ => false

def Num.isNeg : Num → Bool
  | .nan => false
  | .inf n => n
  | .fin n _ _ => n

def Num.isZero : Num → Bool
  | .fin _ 0 _ => true
  | _ => false

/-- ±m × 2^e as an integer multiple of 2^b, for b at most e. -/
def scaled (neg : Bool) (m : Nat) (e b : Int) : Int := (if neg then -1 else 1) * ((m * 2 ^ (e - b).toNat : Nat) : Int)

/-- z × 2^b; a zero takes the sign given. -/
def ofScaled (z b : Int) (zneg : Bool) : Num := if z = 0 then .fin zneg 0 b else .fin (decide (z < 0)) z.natAbs b

/-- Exact sum; an exact zero of opposite signs is +0 (IEEE 754 to nearest). -/
def Num.add : Num → Num → Num
  | .nan, _ => .nan
  | _, .nan => .nan
  | .inf a, .inf b => if a = b then .inf a else .nan
  | .inf a, .fin _ _ _ => .inf a
  | .fin _ _ _, .inf b => .inf b
  | .fin a m e, .fin b n f =>
    let lo := min e f
    ofScaled (scaled a m e lo + scaled b n f lo) lo (a && b)

/-- Exact product. -/
def Num.mul : Num → Num → Num
  | .nan, _ => .nan
  | _, .nan => .nan
  | .inf a, .inf b => .inf (a ^^ b)
  | .inf a, .fin b m _ => if m = 0 then .nan else .inf (a ^^ b)
  | .fin a m _, .inf b => if m = 0 then .nan else .inf (a ^^ b)
  | .fin a m e, .fin b n f => .fin (a ^^ b) (m * n) (e + f)

/-- Multiply by a power of two. -/
def Num.scale : Num → Int → Num
  | .fin a m e, k => .fin a m (e + k)
  | x, _ => x

/-- Strict order of values; a zero is +0 and -0 alike. -/
def Num.lt : Num → Num → Bool
  | .nan, _ => false
  | _, .nan => false
  | .inf a, .inf b => a && !b
  | .inf a, .fin _ _ _ => a
  | .fin _ _ _, .inf b => !b
  | .fin a m e, .fin b n f =>
    let lo := min e f
    decide (scaled a m e lo < scaled b n f lo)

/-- Order with -0 below +0 (R163). -/
def Num.below (x y : Num) : Bool := x.lt y || (x.isZero && y.isZero && x.isNeg && !y.isNeg)

def Num.maxN (x y : Num) : Num := if x.isNan || y.isNan then .nan else if x.below y then y else x
def Num.minN (x y : Num) : Num := if x.isNan || y.isNan then .nan else if y.below x then y else x

def Num.ofNat (n : Nat) : Num := .fin false n 0
def Num.ofInt (z : Int) : Num := .fin (decide (z < 0)) z.natAbs 0
def Num.abs : Num → Num
  | .nan => .nan
  | .inf _ => .inf false
  | .fin _ m e => .fin false m e

/-! ### FP32 with one rounding an operation -/

/-- FP32 bits of a value, rounded to nearest even; NaN is canonical. -/
def rne (x : Num) : BitVec 32 := BitVec.ofNat 32 (f32.enc false x).bits
def num (x : BitVec 32) : Num := f32.dec x.toNat
def fadd (x y : BitVec 32) : BitVec 32 := rne ((num x).add (num y))
def fsub (x y : BitVec 32) : BitVec 32 := rne ((num x).add (num y).neg)
def fmul (x y : BitVec 32) : BitVec 32 := rne ((num x).mul (num y))
def ffma (x y z : BitVec 32) : BitVec 32 := rne (((num x).mul (num y)).add (num z))
def fneg (x : BitVec 32) : BitVec 32 := x ^^^ 0x80000000
def fIsNan (x : BitVec 32) : Bool := (num x).isNan
def fIsFin (x : BitVec 32) : Bool := (num x).isFin
def fOfInt (z : Int) : BitVec 32 := rne (Num.ofInt z)
def fnan : BitVec 32 := 0x7FC00000

/-- A quotient with enough bits and a sticky bit, so that one rounding of it is the rounding of the exact quotient. -/
def Num.div : Num → Num → Num
  | .nan, _ => .nan
  | _, .nan => .nan
  | .inf _, .inf _ => .nan
  | .inf a, .fin b _ _ => .inf (a ^^ b)
  | .fin a _ _, .inf b => .fin (a ^^ b) 0 0
  | .fin a m e, .fin b n f =>
    if n = 0 then (if m = 0 then .nan else .inf (a ^^ b))
    else
      let k := lg n + 64
      let q := m * 2 ^ k / n
      .fin (a ^^ b) (2 * q + (if m * 2 ^ k % n = 0 then 0 else 1)) (e - f - k - 1)

def fdiv (x y : BitVec 32) : BitVec 32 := rne ((num x).div (num y))

/-- The integer square root, one bit of the root a round from bit k down. -/
def isqrtFrom (n : Nat) : Nat → Nat → Nat
  | 0, r => r
  | k + 1, r => if (r + 2 ^ k) * (r + 2 ^ k) ≤ n then isqrtFrom n k (r + 2 ^ k) else isqrtFrom n k r

def isqrt (n : Nat) : Nat := isqrtFrom n (lg n / 2 + 1) 0

/-- A square root with enough bits and a sticky bit. -/
def Num.sqrt : Num → Num
  | .nan => .nan
  | .inf a => if a then .nan else .inf false
  | .fin a m e =>
    if m = 0 then .fin a 0 0 else if a then .nan else
    let k : Nat := if e % 2 = 0 then 128 else 129
    let n := m * 2 ^ k
    let r := isqrt n
    .fin false (2 * r + (if r * r = n then 0 else 1)) ((e - k) / 2 - 1)

/-- Round to an integer, nearest even, held at the limits of n-bit two's complement; NaN gives 0 (R164). -/
def Num.toInt (n : Nat) : Num → Int × Bool
  | .nan => (0, false)
  | .inf a => (if a then -(2 ^ (n - 1) : Nat) else (2 ^ (n - 1) : Nat) - 1, true)
  | .fin a m e =>
    let k : Nat := if 0 ≤ e then m * 2 ^ e.toNat else rneShift m (-e).toNat
    let z : Int := if a then -(k : Int) else k
    if z < -(2 ^ (n - 1) : Nat) then (-(2 ^ (n - 1) : Nat), true)
    else if ((2 ^ (n - 1) : Nat) : Int) - 1 < z then ((2 ^ (n - 1) : Nat) - 1, true) else (z, false)

/-! ### Element formats of R125 -/

/-- The value format of a code, none for the integers. -/
def fmtOf : Nat → Option Fmt
  | 0x0 | 0x6 => some e4m3
  | 0x1 | 0x7 => some e5m2
  | 0x3 => some bf16
  | 0x4 => some f16
  | 0x5 => some f32
  | 0x8 => some e2m3
  | 0x9 => some e3m2
  | 0xA => some e2m1
  | _ => none

def isMx (fmt : Nat) : Bool := 6 ≤ fmt && fmt ≤ 0xA
/-- Twice the element size in the core store. -/
def es2 : Nat → Nat
  | 0x3 | 0x4 => 4
  | 0x5 | 0xB => 8
  | 0xA => 1
  | _ => 2

/-- The exact value of an element code in a format; INT8 and INT32 are exact integers. -/
def elemNum (fmt x : Nat) : Num :=
  match fmtOf fmt with
  | some f => f.dec (x % 2 ^ f.width)
  | none => if fmt = 2 then Num.ofInt (sgn 8 x) else Num.ofInt (sgn 32 x)

/-- The exponent of a block scale byte; 0xFF is NaN (R135). -/
def scaleNum (x : Num) (sc : Nat) : Num := if sc = 0xFF then .nan else x.scale ((sc : Int) - 127)

/-- The e_max of R165. -/
def eMax : Nat → Int
  | 0x6 => 8 | 0x7 => 15 | 0x9 => 4 | _ => 2

/-- The scale byte of a block (R165). -/
def blockScale (fmt : Nat) (zs : List Num) : Nat :=
  if zs.any (fun z => !z.isFin) then 0xFF else
  let top (acc : Option Int) (z : Num) : Option Int := match z with
    | .fin _ m e => if m = 0 then acc else
        let t := (lg m : Int) + e
        match acc with
        | none => some t
        | some a => some (max a t)
    | _ => acc
  match zs.foldl top none with
  | none => 0x7F
  | some t => (max 0 (min 254 (t - eMax fmt + 127))).toNat

/-- The pairwise tree of R139, over any values and sum; fuel is the length. -/
def treePass {α : Type} (f : α → α → α) : List α → List α
  | a :: b :: l => f a b :: treePass f l
  | l => l

def treeN {α : Type} (f : α → α → α) : Nat → List α → List α
  | 0, l => l
  | n + 1, l => match l with
    | [] => []
    | [a] => [a]
    | l => treeN f n (treePass f l)

/-- The combination of R139. -/
def combine {α : Type} (f : α → α → α) (d : α) (l : List α) : α := (treeN f l.length l).headD d

def treeSum (l : List (BitVec 32)) : BitVec 32 := combine fadd 0 l

end Sys2Proof.Machine
end

