-- ==== Sys2Proof/Machine/Special.lean ====
section
/-! DEFINITION. The special functions of the vector engine: the exact formula to 320 binary places, the results that R167's bound allows, and the free choice among them (log entry 10). -/

namespace Sys2Proof.Machine
open Sys2Proof

def fxOne : Int := (2 ^ 320 : Nat)
def fxMul (a b : Int) : Int := a * b / fxOne
def fxDiv (a b : Int) : Int := if b = 0 then 0 else a * fxOne / b

/-- A finite value in fixed point. -/
def Num.toFx : Num → Int
  | .fin a m e => (if a then -1 else 1) * (if 0 ≤ e + 320 then ((m * 2 ^ (e + 320).toNat : Nat) : Int) else ((m / 2 ^ (-(e + 320)).toNat : Nat) : Int))
  | _ => 0

/-- Σ x^n ÷ n!, n terms from the term t on. -/
def expSeries (x : Int) : Nat → Nat → Int → Int
  | 0, _, _ => 0
  | k + 1, n, t => t + expSeries x k (n + 1) (fxMul t x / (n + 1 : Nat))

/-- Σ z^(2n+1) ÷ (2n+1). -/
def atanhSeries (z2 : Int) : Nat → Nat → Int → Int
  | 0, _, _ => 0
  | k + 1, n, t => t / (2 * n + 1 : Nat) + atanhSeries z2 k (n + 1) (fxMul t z2)

/-- ln(1 + v) for v from 0 to 1. -/
def fxLog1p (v : Int) : Int :=
  let z := fxDiv v (2 * fxOne + v)
  2 * atanhSeries (fxMul z z) 110 0 z

def fxLn2 : Int := fxLog1p fxOne

/-- e^x. -/
def fxExp (x : Int) : Int :=
  let n := x / fxLn2
  let m := expSeries (x - n * fxLn2) 90 0 fxOne
  if n < -1000 then 0 else if 0 ≤ n then m * ((2 ^ (min n 1000).toNat : Nat) : Int) else m / ((2 ^ (-n).toNat : Nat) : Int)

/-- Σ (-1)^n x^(2n+1) ÷ (n! (2n+1)). -/
def erfSeries (x2 : Int) : Nat → Nat → Int → Int
  | 0, _, _ => 0
  | k + 1, n, t => t / (2 * n + 1 : Nat) + erfSeries x2 k (n + 1) (-(fxMul t x2) / (n + 1 : Nat))

/-- The square root of a non-negative fixed-point value. -/
def fxSqrt (x : Int) : Int := (isqrt (x.toNat * 2 ^ 320) : Nat)

/-- Σ of the arctangent series at 1 ÷ q. -/
def atanInv (q2 : Int) : Nat → Nat → Int → Int
  | 0, _, _ => 0
  | k + 1, n, t => t / (2 * n + 1 : Nat) - atanInv q2 k (n + 1) (t / q2)

/-- π, by Machin's formula. -/
def fxPi : Int := 4 * (4 * atanInv 25 80 0 (fxOne / 5) - atanInv (239 * 239) 40 0 (fxOne / 239))

/-- erf(x). -/
def fxErf (x : Int) : Int := fxDiv (2 * erfSeries (fxMul x x) 420 0 x) (fxSqrt fxPi)

def fxSigmoid (x : Int) : Int := fxDiv fxOne (fxOne + fxExp (-x))

/-- The exact formula of R167 at u, in fixed point. -/
def sfExact (func : Nat) (u : Int) : Int :=
  if func = 0x10 then fxExp u
  else if func = 0x11 then
    let n := u / fxOne
    let m := fxExp (fxMul (u - n * fxOne) fxLn2)
    if 0 ≤ n then m * ((2 ^ n.toNat : Nat) : Int) else m / ((2 ^ (-n).toNat : Nat) : Int)
  else if func = 0x12 then fxDiv fxOne u
  else if func = 0x13 then fxDiv fxOne (fxSqrt u)
  else if func = 0x14 then fxErf u
  else if func = 0x15 then fxMul u (fxOne + fxErf (fxDiv u (fxSqrt (2 * fxOne)))) / 2
  else if func = 0x16 then
    let w := fxMul (fxOne * 79788456 / 100000000) (u + fxMul (fxOne * 44715 / 1000000) (fxMul u (fxMul u u)))
    fxMul u (fxSigmoid (2 * w))
  else if func = 0x17 then fxMul u (fxSigmoid (fxOne * 1702 / 1000 * u / fxOne))
  else if func = 0x18 then fxSigmoid u
  else if func = 0x19 then
    let t := fxExp (2 * (if u < 0 then -u else u))
    (if u < 0 then -1 else 1) * fxDiv (t - fxOne) (t + fxOne)
  else
    (if 0 < u then u else 0) + fxLog1p (fxExp (if 0 < u then -u else u))

/-- The bound of R167 in ulp. -/
def sfBound (func : Nat) : Nat := if func ≤ 0x13 then 1 else if func = 0x15 ∨ func = 0x16 ∨ func = 0x17 then 3 else 2

/-- The FP32 values within the bound of an exact value: its neighbours on the half-ulp grid that FP32 holds. -/
def sfAllowed (bound : Nat) (a : Int) : List (BitVec 32) :=
  let n := a.natAbs
  let e : Int := max ((lg n : Int) - 320) (-126)
  let half : Nat := 2 ^ (e - 24 + 320).toNat
  let c : Nat := (n + half) / (2 * half) * 2
  (List.range (4 * bound + 1)).filterMap (fun d =>
    let k := c + d
    if k < 2 * bound then none else
    let v : Num := .fin (decide (a < 0)) (k - 2 * bound) (e - 24)
    let r := rne v
    if (num r).add v.neg |>.isZero then
      (if ((((k - 2 * bound) * half : Nat) : Int) - (n : Int)).natAbs + 2 ^ 100 ≤ 2 * bound * half then some r else none)
    else none)

/-- A special function's result, with whether it was flushed and whether a subnormal input was taken as zero (R166 to R168). -/
structure SfOut where
  val : BitVec 32
  flushed : Bool := false
  subn : Bool := false
  deriving DecidableEq, Repr

/-- a < b for a value and a ratio p ÷ 1000. -/
def Num.ltMilli (x : Num) (p : Int) : Bool := x.lt (Num.ofInt p |>.div (Num.ofNat 1000))

/-- Evaluate a special function at the bits of u: its formula, the key of its free choice, its bound, whether small results are flushed. -/
def specialB (func key bound : Nat) (flush : Bool) (ub : BitVec 32) : SfOut :=
  match num ub with
  | .nan => ⟨fnan, false, false⟩
  | .inf neg =>
    ⟨(if func = 0x10 ∨ func = 0x11 then (if neg then 0 else 0x7F800000)
      else if func = 0x12 then 0
      else if func = 0x13 then (if neg then fnan else 0)
      else if func = 0x14 ∨ func = 0x19 then (if neg then 0xBF800000 else 0x3F800000)
      else if func = 0x18 then (if neg then 0 else 0x3F800000)
      else (if neg then 0 else 0x7F800000)),
     func = 0x12 || (neg && !(func = 0x13 || func = 0x14 || func = 0x19)), false⟩
  | .fin neg m e =>
    let subn := decide (m ≠ 0 ∧ m < 2 ^ 23)
    let u : Num := .fin neg m e
    let lowLim : Option Int :=
      if func = 0x10 ∨ func = 0x18 ∨ func = 0x1A then some (-87400)
      else if func = 0x11 then some (-126000)
      else if func = 0x15 ∨ func = 0x16 ∨ func = 0x17 then some (-10500) else none
    if m = 0 ∨ subn then
      ⟨(if func = 0x10 ∨ func = 0x11 then 0x3F800000
        else if func = 0x12 ∨ func = 0x13 then (if neg then 0xFF800000 else 0x7F800000)
        else if func = 0x18 then 0x3F000000
        else if func = 0x1A then 0x3F317218
        else (if neg then 0x80000000 else 0)), false, subn⟩
    else if (lowLim.map (fun p => u.ltMilli p)).getD false then ⟨0, true, false⟩
    else if func = 0x12 ∧ ((Num.fin false 1 126).lt u.abs) then ⟨0, true, false⟩
    else if func = 0x13 ∧ neg then ⟨fnan, false, false⟩
    else if func = 0x10 ∧ (Num.ofInt 88722 |>.div (Num.ofNat 1000)).lt u then ⟨0x7F800000, false, false⟩
    else if func = 0x11 ∧ !(u.lt (Num.ofNat 128)) then ⟨0x7F800000, false, false⟩
    else if func = 0x14 ∧ !(u.abs.ltMilli 3920) then ⟨if neg then 0xBF800000 else 0x3F800000, false, false⟩
    else if func = 0x19 ∧ !(u.abs.ltMilli 9010) then ⟨if neg then 0xBF800000 else 0x3F800000, false, false⟩
    else if func = 0x19 ∧ u.abs.lt (.fin false 1 (-12)) then ⟨ub, false, false⟩
    else if func = 0x15 ∧ !(u.ltMilli 5550) then ⟨ub, false, false⟩
    else
      let r := match sfAllowed bound (sfExact func u.toFx) with
        | [] => 0
        | c :: cs => ((c :: cs)[(Config.sfPick key ub % ((c :: cs).length : Int)).toNat]?).getD c
      if flush ∧ (num r).abs.lt (.fin false 1 (-126)) ∧ !(num r).isZero then ⟨0, true, false⟩ else ⟨r, false, false⟩

/-- A special function of the vector engine (R166 to R168). -/
def special (func : Nat) (ub : BitVec 32) : SfOut := specialB func func (sfBound func) true ub

/-- GELU of a ladle: rules 1 to 3 of R166, within 4 ulp of the GELU_TANH formula, subnormal results kept (R261, R262). -/
def ladleGelu (ub : BitVec 32) : BitVec 32 := (specialB 0x16 0x116 4 false ub).val

end Sys2Proof.Machine
end

