-- ==== Sys2Proof/Machine/Riser.lean ====
section
/-! DEFINITION. Riser: buckets, unit states and generations, the repair ledger, retirement and its sequences (R22 to R42, R475 to R490). -/

namespace Sys2Proof.Machine
open Sys2Proof

/-- The ports that a laser position feeds (R402). -/
def laserPorts (i : Nat) : List Nat :=
  if i % 3 = 0 then [6 * (i / 3), 6 * (i / 3) + 1, 6 * (i / 3) + 2]
  else if i % 3 = 1 then [6 * (i / 3) + 3, 6 * (i / 3) + 4, 6 * (i / 3) + 5]
  else [24 + 2 * (i / 3), 25 + 2 * (i / 3), 32 + i / 3]

/-! ### Cluster clocks (R375, R543) -/

/-- The Chill contexts that run on a cluster (R375). -/
def State.chillOn (s : State) (k : Nat) : List Nat :=
  (s.cores.cores.filter (fun e => e.id / 5 == k)).flatMap (fun e =>
    (match e.run with
     | some r => if ((s.launch? r.launch).map (·.chill)).getD false then [r.ctx] else []
     | none => []) ++
    (match e.user.bind s.cmd? with
     | some c => if c.chill then [c.ctx] else []
     | none => []))

/-- A clock was lowered: TIMING_VOID for every Chill context that runs on the cluster (R375). -/
def State.voidTiming (s : State) (k : Nat) : State := (s.chillOn k).foldl (fun st x => st.modCtx x (fun c => { c with timingVoid := true })) s

/-- The clock that a cluster may run at: the loop's target, or less where a limit is active (R543). -/
def State.clockOf (s : State) (k : Nat) : Nat :=
  let c := s.clock k
  min (min c.target c.cap) (if s.power.overLimit then 400 else 1800)

/-- A cluster whose PLL runs takes the clock it may run at. -/
def State.reclock (s : State) (k : Nat) : State :=
  let c := s.clock k
  if c.cur = 0 then s else
  let s1 := s.setClock k { c with cur := s.clockOf k }
  if s.clockOf k < c.cur then s1.voidTiming k else s1

def State.reclockAll (s : State) : State := (List.range 8).foldl State.reclock s

/-! ### The ledger (R479 to R481) -/

def stateCode : UnitState → Nat
  | .active => 0 | .spare => 1 | .retiring => 2 | .retired => 3 | .quarantined => 4

/-- Power-on hours, saturating (R480). -/
def State.hours (s : State) : Nat := satN 16 (s.now / 0x14F46B0400)

/-- The entries a compaction keeps: one per unit whose state or generation differs from reset, so that its generation continues (R39), and every remap, lane, group and slot entry (R481; log entry 84). -/
def State.compactEntries (s : State) : List LedgerEntry :=
  let us := (s.riser.units.filter (fun u => u.gen != 1 || u.state != (if unitSpare u.id then UnitState.spare else .active))).map
    (fun u => ({ kind := 1, seq := 0, what := BitVec.ofNat 64 u.id, gen := u.gen, state := stateCode u.state, backs := u.backs, time := s.hours } : LedgerEntry))
  let rest := s.riser.ledger.entries.filter (fun e => e.kind != 1)
  (us ++ rest).zipIdx.map (fun p => { p.1 with seq := p.2 + 1 })

/-- Compact into the other copy with EPOCH one higher (R481). -/
def State.compact (s : State) : State :=
  { s with riser := { s.riser with ledger := { s.riser.ledger with copy := 1 - s.riser.ledger.copy, epoch := s.riser.ledger.epoch + 1, entries := s.compactEntries } } }

/-- Append an entry with the next SEQ, compacting first when the copy holds 65,534 (R481). -/
def State.ledgerAdd (s : State) (e : LedgerEntry) : State :=
  let s1 := if 65534 ≤ s.riser.ledger.entries.length then s.compact else s
  let l := s1.riser.ledger
  let seq := match l.entries.getLast? with
    | some x => (x.seq + 1) % 2 ^ 32
    | none => 1
  { s1 with riser := { s1.riser with ledger := { l with entries := l.entries ++ [{ e with seq := seq, time := s1.hours }] } } }

/-! ### Transitions (R38, R39, R475) -/

/-- The generation that follows another: 32 bits wide, never 0 (R39). -/
def nextGen (g : Nat) : Nat := if 0xFFFFFFFF ≤ g then 1 else g + 1

/-- By how many steps two generations differ. -/
def genGap (a b : Nat) : Nat := let d := (a + 0xFFFFFFFF - b % 0xFFFFFFFF) % 0xFFFFFFFF
  min d (0xFFFFFFFF - d)

/-- The later of two generations: the one that the other reaches in fewer steps. -/
def laterGen (a b : Nat) : Nat := if (a + 0xFFFFFFFF - b % 0xFFFFFFFF) % 0xFFFFFFFF ≤ 0x7FFFFFFF then a else b

def State.putUnit (s : State) (u : UnitRec) : State := { s with riser := { s.riser with units := put s.riser.units (·.id == u.id) u } }

/-- Whether a bucket counts for a unit: its own, the ladles of a channel, the array of a row or column. -/
def Bucket.counts (b : Bucket) (u : Nat) : Bool :=
  if b.cls = 5 then b.key / 4 == u
  else if b.cls = 7 then b.key == 0x02000000 + u % 0x1000000 / 128 * 128 && (bits u 31 24 == 2 || bits u 31 24 == 3)
  else (b.cls == 2 || 4 ≤ b.cls) && b.key == u

/-- A cluster without a thermal sensor in service (R33). -/
def State.noSensor (s : State) (k : Nat) : Bool := (List.range 3).all (fun i => (s.unit (0x0D000000 + k * 256 + i)).state != .active)

/-- A cluster without a thermal sensor in service runs at 0.4 GHz; an event says so (R33). -/
def State.sensorLoss (s : State) (k : Nat) : State :=
  if s.noSensor k then ((s.modClock k (fun c => { c with cap := 400 })).reclock k).event .noSensor 0xFF (0x0D000000 + k * 256) else s

/-- Riser changes a unit's state or what it backs: its generation rises, its local view is written, its bucket empties, the ledger records it (R27, R39, R475, R481); the last sensor of a cluster slows it (R33). -/
def State.transit (s : State) (u : Nat) (st : UnitState) (backs : Nat) : State :=
  let r := s.unit u
  let s1 := s.putUnit { r with state := st, gen := nextGen r.gen, backs := backs, changed := s.now }
  let s2 : State := { s1 with riser := { s1.riser with viewWrites := s1.riser.viewWrites ++ [(u, nextGen r.gen)], buckets := s1.riser.buckets.filter (fun b => !b.counts u) } }
  let s3 := s2.ledgerAdd { kind := 1, seq := 0, what := BitVec.ofNat 64 u, gen := nextGen r.gen, state := stateCode st, backs := backs }
  if bits u 31 24 = 0xD ∧ r.state = .active then s3.sensorLoss (bits u 10 8) else s3

def State.modUnit (s : State) (u : Nat) (f : UnitRec → UnitRec) : State := s.putUnit (f (s.unit u))

/-- Take a unit out of service: RETIRING, or QUARANTINED where two views differ (R38, R476); the spare that takes its place, and whether its work has already moved. -/
def State.takeOut (s : State) (u : Nat) (quar : Bool) (spare : Option Nat) (drained : Bool) : State :=
  if !quar ∧ (s.unit u).state ≠ .active then s else
  let b := (s.unit u).backs
  let s1 := if quar then s else s.transit u .retiring b
  s1.modUnit u (fun r => { r with replacement := spare, drained := drained })

/-- Whether a unit's local view has acknowledged its record. -/
def UnitRec.settled (u : UnitRec) : Bool := u.lgen == u.gen && u.lstate == u.state

/-- A unit's work has left it: a RETIRING unit goes on to RETIRED as soon as its local view has acknowledged RETIRING (R38, R475). -/
def State.drain (s : State) (u : Nat) : State :=
  let s1 := s.modUnit u (fun r => { r with drained := true })
  let r := s1.unit u
  if r.settled ∧ r.state = .retiring then (s1.transit u .retired 0).event .unitRepair 0xFF u else s1

/-- Bind a spare in place of a unit: the spare is ACTIVE and backs what the unit backed (R38). -/
def State.bind (s : State) (u d : Nat) : State :=
  let b := (s.unit u).backs
  (s.transit d .active b).drain u

/-- No spare remains: counted and reported (R42). -/
def State.noSpare (s : State) (k u : Nat) : State := (s.count .fltBktStat k 0 32 16).event .noSpare 0xFF u

/-- A spare that can be bound: SPARE, and not promised to a unit that is still being drained (R38, R42). -/
def State.isSpare (s : State) (u : Nat) : Bool :=
  (s.unit u).state == .spare && !s.riser.units.any (fun r => r.replacement == some u && !r.drained && r.id != u)

/-- Whether a bond group waits for the next reset, its rows remapped as they err (R32, R481). -/
def State.pendingGroup (s : State) (u : Nat) : Bool := (s.unit u).state == .retiring

/-- Whether a data lane waits for the next reset to be repaired (R21, R481). -/
def State.pendingLane (s : State) (ch lane : Nat) : Bool :=
  s.riser.ledger.entries.any (fun e => e.kind == 3 && e.pending && e.what.toNat % 2 ^ 40 == ch + lane * 2 ^ 32)

/-! ### Retirement by class (R32, R34, R237, R403, R483 to R485) -/

/-- The launches running or saved on a core. -/
def Core.launches (k : Core) : List Nat := (k.run.toList ++ k.saved.filterMap (·.run)).map (·.launch)

/-- The partition that holds a core position. -/
def State.posPart (s : State) (q : Nat) : Option Part := s.tenants.parts.find? (fun p => p.carve.coreMask.testBit q)

/-- Whether a declaration asks for more cores, core store banks or trackers than a number of cores has (R478). -/
def Decl.exceeds (d : Decl) (left : Nat) : Bool :=
  decide (left < d.cores) || decide (left * storeBytes < d.cores * d.csBytes) || decide (left * 512 < d.cores * d.dense) || decide (left * 8192 < d.cores * d.sparse)

/-- A core position leaves its partition: tickets that name it, or ask more than remains, go stale; the PREEMPTIBLE commands on it stop at their next pre-emption point, and their queues wait for QUEUE_START (R74, R478). -/
def State.losePosition (s : State) (c q : Nat) : State :=
  match s.posPart q with
  | none => s
  | some p =>
    let left := p.positions.length - p.lost.length - 1
    let s1 := s.modPart p.id (fun p => { p with lost := p.lost ++ [q] })
    let s2 : State := { s1 with tenants := { s1.tenants with slots := s1.tenants.slots.map (fun (t : Slot) =>
      if t.part = p.id ∧ (t.live.map (fun k => k.cores.contains q || k.decl.exceeds left)).getD false then { t with gen := t.gen + 1 } else t) } }
    let cmds := (s2.core c).launches.flatMap s2.launchCmds ++ (s2.core c).user.toList
    let qs := (s2.queues.filter (fun (e : Queue) => e.running.any (fun r => cmds.contains r.uid && r.preemptible && r.reply.isNone))).map (fun (e : Queue) => e.id)
    let s3 : State := { s2 with queues := upd s2.queues (fun (e : Queue) => qs.contains e.id) (fun (e : Queue) => if e.state = .running then { e with state := .preempted } else e) }
    (s3.stopCmds (fun r => cmds.contains r.uid) true).settleStops

/-- Move a core's program, store and saved states onto another core (R483). -/
def State.moveCore (s : State) (c d : Nat) : State :=
  let k := s.core c
  let s1 := s.putCore { s.core d with store := k.store, storeCtx := k.storeCtx, saved := k.saved, run := k.run, user := k.user, slot := k.slot }
  let s2 := s1.putCore { k with store := {}, storeCtx := none, saved := [], run := none, user := none, switchPending := false, slot := false, last := none }
  let f (p : Place) : Place := match p with
    | .core x o => if x = c then .core d o else p
    | _ => p
  let g (p : Piece) : Piece := { p with src := f p.src, dst := f p.dst }
  let at_ (x : Nat) : Nat := if x = c then d else x
  let moved (o : Owner) : Owner := match o with
    | .engine x e => .engine (at_ x) e
    | o => o
  { s2 with
    moves := { s2.moves with
      transfers := s2.moves.transfers.map (fun (t : Transfer) => { t with piece := g t.piece }),
      streams := s2.moves.streams.map (fun (t : Stream) => { t with
        pieces := t.pieces.map g, todo := t.todo.map g, core := t.core.map at_,
        owner := match t.owner with
          | .engine x e => .engine (at_ x) e
          | o => o }),
      jobs := s2.moves.jobs.map (fun (j : Job) => { j with
        cores := j.cores.map at_, fused := j.fused.map (fun (u : Fused) => { u with cores := u.cores.map (fun q => { q with core := at_ q.core }) }) }) },
    memory := { s2.memory with
      provisional := s2.memory.provisional.map (fun (v : Provisional) => { v with core := at_ v.core, places := v.places.map (fun q => (f q.1, q.2)) }),
      far := s2.memory.far.map (fun (r : Far) => { r with use := match r.use with
        | .add k x a m => .add (k.map at_) x a m
        | .rowAdd k x a m => .rowAdd (k.map at_) x a m
        | u => u }) },
    embed := { s2.embed with
      gathers := s2.embed.gathers.map (fun (g : Gather) => { g with core := at_ g.core, owner := moved g.owner })
      adds := s2.embed.adds.map (fun (r : RowReq) => { r with core := r.core.map at_, owner := r.owner.map moved }) },
    tenants := { s2.tenants with parts := s2.tenants.parts.map (fun (p : Part) => { p with slotWait := p.slotWait.map (fun x => if x = c then d else x) }) } }

/-- A retiring core whose program has left it, or stands at a YIELD: its work moves to its spare, which becomes ACTIVE (R483 steps 4 to 7). -/
def State.coreDrained (s : State) (c : Nat) : State :=
  let u := s.unit (coreUnit c)
  if (u.state = .retiring ∨ u.state = .quarantined) ∧ !u.drained then
    match u.replacement with
    | some d => (s.bind (coreUnit c) d).moveCore c (d % 64)
    | none => s.drain (coreUnit c)
  else s

/-- A core retires onto the spare of its cluster (R483), or leaves without one (R42, R478). -/
def State.retireCore (s : State) (k c : Nat) (quar : Bool) : State :=
  let u := coreUnit c
  if !quar ∧ (s.unit u).state ≠ .active then s else
  let busy := (s.core c).run.isSome
  match ((List.range 5).map (fun i => coreUnit (c / 5 * 5 + i))).find? s.isSpare with
  | some d =>
    let s1 := s.takeOut u quar (some d) false
    if busy then s1.modCore c (fun k => { k with switchPending := true }) else s1.coreDrained c
  | none =>
    let q := bits ((s.unit u).backs) 5 0
    let s1 := (s.noSpare k u).takeOut u quar none (!busy)
    s1.losePosition c (q / 5 * 4 + q % 5)

def arrUnit (cls c a n : Nat) : Nat := cls * 2 ^ 24 + c * 2 ^ 16 + a * 2 ^ 8 + n

/-- The spare that a unit being drained waits for is lost: a core leaves its position, a row or column takes its core with it (R34, R42). -/
def State.forsake (s : State) (d : Nat) : State :=
  match s.riser.units.find? (fun r => r.replacement == some d && !r.drained && r.id != d) with
  | none => s
  | some r =>
    let s1 := s.modUnit r.id (fun r => { r with replacement := none })
    let cls := bits r.id 31 24
    if cls = 1 then
      let q := bits r.backs 5 0
      let s2 := (s1.noSpare 8 r.id).losePosition (bits r.id 5 0) (q / 5 * 4 + q % 5)
      if (s2.core (bits r.id 5 0)).run.isSome then s2 else s2.drain r.id
    else if cls = 2 ∨ cls = 3 then
      ((s1.drain r.id).modCore (bits r.id 23 16) (fun q => { q with arrays := q.arrays.zipIdx.map (fun p =>
        if p.2 = bits r.id 9 8 then { p.1 with nextRow := p.1.retRow, nextCol := p.1.retCol } else p.1) })).retireCore 7 (bits r.id 23 16) false
    else s1

/-- A spare fails its self-test (R38). -/
def State.spareFails (s : State) (u : Nat) : State := ((s.transit u .retired 0).event .unitRepair 0xFF u).forsake u

/-- A row or column of an array retires onto its spare once ARRAY_REMAP_APPLY maps it; where the spare is in use the core retires (R34, R151). -/
def State.retireLine (s : State) (k c a n : Nat) (row quar : Bool) : State :=
  let cls := if row then 2 else 3
  if !quar ∧ (s.unit (arrUnit cls c a n)).state ≠ .active then s
  else if n < 64 ∧ s.isSpare (arrUnit cls c a 64) then
    (s.takeOut (arrUnit cls c a n) quar (some (arrUnit cls c a 64)) false).modCore c (fun q =>
      { q with arrays := q.arrays.zipIdx.map (fun p => if p.2 = a then (if row then { p.1 with nextRow := n } else { p.1 with nextCol := n }) else p.1) })
  else s.retireCore k c false

/-- A core store bank retires onto a spare bank of its core (R21, R32). -/
def State.retireBank (s : State) (k c b : Nat) (quar : Bool) : State :=
  if !quar ∧ (s.unit (0x04000000 + c * 2 ^ 16 + b)).state ≠ .active then s else
  match ([48, 49].map (fun i => 0x04000000 + c * 2 ^ 16 + i)).find? s.isSpare with
  | some d =>
    let l := ((List.range 48).find? (fun l => mgetD (s.core c).bankMap l l == b)).getD 48
    ((s.takeOut (0x04000000 + c * 2 ^ 16 + b) quar (some d) true).bind (0x04000000 + c * 2 ^ 16 + b) d).modCore c (fun q =>
      if l < 48 then { q with bankMap := mset q.bankMap l (d % 64) } else q)
  | none => s.retireCore k c false

/-- Retire onto one of several spares at once, or without one. -/
def State.retireOnto (s : State) (k u : Nat) (quar : Bool) (spares : List Nat) : State :=
  match spares.find? s.isSpare with
  | some d => (s.takeOut u quar (some d) true).bind u d
  | none => (s.noSpare k u).takeOut u quar none true

/-- A port's packets go to its siblings, and its role moves to its chiplet's spare port, which trains in it from DOWN (R398, R485); the port is drained once the spare is up. -/
def State.retirePort (s : State) (k p : Nat) (quar : Bool) : State :=
  let sp := 32 + portChiplet p
  let s0 := s.reissuePort p
  let old := s0.port p
  if s.isSpare (portUnit sp) ∧ p < 32 then
    let s1 := (s0.takeOut (portUnit p) quar (some (portUnit sp)) false).transit (portUnit sp) .active ((s0.unit (portUnit p)).backs)
    (s1.putPort { old with state := .offline, windowAt := none }).modPort sp (fun q => { q with state := .training, role := old.role, pairLink := old.pairLink, attempt := q.attempt + 1, session := BitVec.ofNat 64 (Config.drbg s1.free) })
      |> fun s2 => { s2 with free := s2.free + 1 }
  else ((s0.noSpare k (portUnit p)).takeOut (portUnit p) quar none true).putPort { old with state := .offline, windowAt := none }

/-- A wavelength leaves its port, whose spare takes its place where it can; the port retrains (R484, R418). -/
def State.retireWl (s : State) (k p w : Nat) (quar : Bool) : State :=
  (s.retireOnto k (wlUnit p w) quar [wlUnit p 8]).startRetrain p

/-- A laser input's ports switch to the spare input of its half and retrain; without one they go down (R403, R404). -/
def State.retireLaser (s : State) (k i : Nat) (quar : Bool) : State :=
  let u := 0x0A000000 + i
  let pos := bits ((s.unit u).backs) 3 0
  let d := 0x0A000000 + (if pos < 6 then 12 else 13)
  let ports := laserPorts pos
  if s.isSpare d then ports.foldl State.startRetrain ((s.takeOut u quar (some d) true).bind u d)
  else ports.foldl (fun st p => st.modPort p (fun q =>
      if q.state = .offline then q else { q with state := .down, windowAt := some (q.windowAt.getD s.now) })) ((s.noSpare k u).takeOut u quar none true)

/-- The spare host-class cores, that of the core's own die first (R21, R32; log entry 84). -/
def hccSpares (u : Nat) : List Nat := if bits u 4 0 < 9 then [0x05000008, 0x05000011] else [0x05000011, 0x05000008]

/-- A bond group is RETIRING until the next reset puts a spare group of its layer in its place (R32, R481); without one it leaves service (R42). A quarantined group is left to its reconciliation: its remap could only come with a reset (R21). -/
def State.retireGroup (s : State) (k u : Nat) (quar : Bool) : State :=
  let used := (s.riser.bondGroups.filter (fun g => g / 128 == u / 128)).length
  if quar ∨ (s.unit u).state ≠ .active then s
  else if used < 4 then
    ((({ s with riser := { s.riser with bondGroups := s.riser.bondGroups ++ [u] } } : State).takeOut u false none false).ledgerAdd
      { kind := 4, pending := true, seq := 0, what := BitVec.ofNat 64 u }).event .unitRepair 0xFF u
  else (s.noSpare k u).takeOut u false none true

/-- Retire a unit that is in service as a trip of its class does (R32). -/
def State.retireUnit (s : State) (k u : Nat) (quar : Bool) : State :=
  if !quar ∧ (s.unit u).state ≠ .active then s else
  let cls := bits u 31 24
  let c := bits u 23 16
  if cls = 1 then s.retireCore k (bits u 5 0) quar
  else if cls = 2 then s.retireLine k c (bits u 9 8) (bits u 6 0) true quar
  else if cls = 3 then s.retireLine k c (bits u 9 8) (bits u 6 0) false quar
  else if cls = 4 then s.retireBank k c (bits u 5 0) quar
  else if cls = 5 then s.retireOnto k u quar (hccSpares u)
  else if cls = 6 then s.retireGroup k u quar
  else if cls = 7 then s.retireOnto k u quar [u / 64 * 64 + 32, u / 64 * 64 + 33]
  else if cls = 8 then s.retirePort k (bits u 5 0) quar
  else if cls = 9 then s.retireWl k (bits u 13 8) (bits u 3 0) quar
  else if cls = 0xA then s.retireLaser k (bits u 3 0) quar
  else if cls = 0xB then
    (s.retireOnto k u quar [u / 2 * 2 + 1, u / 2 * 2]) |> fun s1 =>
      { s1 with power := { s1.power with clocks := s1.power.clocks.zipIdx.map (fun p =>
        if p.2 = bits u 10 8 ∧ p.1.pll = bits u 0 0 then (if (s1.unit u).replacement.isSome then { p.1 with pll := 1 - p.1.pll } else { p.1 with starting := false }) else p.1) } }
  else if cls = 0xC then
    let s1 := s.retireOnto k u quar [0x0C000000, 0x0C000001]
    if (s1.unit u).replacement.isSome then s1.setField .colBarPath 0 0 0 1 (1 - bits u 0 0) else s1
  else s.takeOut u quar none true

/-! ### Row remaps (R237) -/

/-- The bank of a row locator. -/
def rowBank (loc : BitVec 64) : Nat := bits loc.toNat 13 0

/-- The pages that a T1 cluster or a T2 stack holds (R218, 01). -/
def tierPages (t2 : Bool) (k : Nat) : Nat := if t2 then (if k % 2 = 0 then 57344 else 65536) else 4080

/-- Whether a row locator names a row that exists (R219, R488). -/
def rowValid (loc : BitVec 64) : Bool :=
  let x := loc.toNat
  let ctl := bits x 3 0
  bits x 63 34 == 0 && decide (bits x 9 4 < (if ctl < 8 then 32 else 34)) && decide (bits x 33 14 < (if ctl < 8 then 4096 else tierPages true (ctl - 8)) * 4)

/-- The remap entries that match a row, in the order of their indexes in the bank: an entry's index is its spare row's. -/
def State.matches_ (s : State) (loc : BitVec 64) : List RowRemap := insSort (·.spare) (s.riser.remaps.filter (fun r => r.loc == loc))

/-- The remap entry that a row uses: of several that match, the one with the lower index (R238). -/
def State.remapOf (s : State) (loc : BitVec 64) : Option RowRemap := (s.matches_ loc).head?

/-- An access to a row that several entries match is counted, and an event reports its controller and bank (R238). -/
def State.rowAccess (s : State) (loc : BitVec 64) : State :=
  if (s.matches_ loc).length < 2 then s
  else (s.count .memRemapStat (bits loc.toNat 3 0) 0 16 16).event .remapMulti 0xFF 0 (toLe 8 (rowBank loc))

/-- The granules that a row of DRAM holds: context, object handle, offset in the object (R219). -/
def State.rowGranules (s : State) (loc : BitVec 64) : List (Nat × Nat × Nat) :=
  let x := loc.toNat
  let ctl := bits x 3 0
  let tier : Tier := if ctl < 8 then .t1 else .t2
  let ch := bits x 9 4
  let logical := if ctl < 8 then some ch else (List.range 32).find? (fun l => s.stackChannel (ctl - 8) l == 0x07000000 + (ctl - 8) * 256 + ch)
  let row := bits x 33 14
  let ppn := row / 4
  match logical with
  | none => []
  | some l => s.memory.objs.flatMap (fun o => (o.pages.zipIdx.filter (fun p => p.1.tier == tier && p.1.place == ctl % 8 && p.1.ppn == ppn)).flatMap (fun p =>
      (List.range 4).flatMap (fun i =>
        let w := (row % 4 * 4 + i) * 16 + bits x 13 12 * 4 + bits x 11 10
        let st := 32 * w + (l + 32 - ppn % 32) % 32
        (List.range 4).map (fun g => (o.ctx, o.handle, p.2 * pageBytes + st * 256 + g * 64)))))

/-- A row copied to its spare: a granule that cannot be corrected is written poisoned; which ones cannot is a free value (R237; log entry 85). -/
def State.rewriteRow (s : State) (loc : BitVec 64) : State :=
  (s.rowGranules loc).foldl (fun (st : State) g => match st.objOf g.1 g.2.1 with
    | some o =>
      let (n, st1) := st.draw
      if n % 2 = 1 then (st1.count .fltPoisonCnt 0 0 0 32 (newMarks o.mem g.2.2 64)).modObj g.1 g.2.1 (fun o => { o with mem := o.mem.mark g.2.2 64 }) else st1
    | none => st) s

/-- The lowest free spare row of a row's bank. -/
def State.freeSpareRow (s : State) (loc : BitVec 64) : Option Nat :=
  let inBank := s.riser.remaps.filter (fun r => rowBank r.loc == rowBank loc)
  firstFree 16 (inBank.flatMap (fun r => r.spare :: r.used))

/-- Remap a row to a spare row of its bank: a spare row that fails has its entry replaced (R237). -/
def State.remapRow (s : State) (loc : BitVec 64) : Option State :=
  match s.freeSpareRow loc with
  | none => none
  | some n =>
    let old := s.matches_ loc
    let e : RowRemap := { loc := loc, spare := n, used := old.flatMap (fun r => r.spare :: r.used) }
    let s0 := (s.rowAccess loc).rewriteRow loc
    let s1 : State := { s0 with riser := { s0.riser with remaps := s0.riser.remaps.filter (fun r => r.loc != loc) ++ [e] } }
    some ((s1.count .memRemapStat (bits loc.toNat 3 0) 0 0 16).ledgerAdd { kind := 2, seq := 0, what := loc, gen := n })

/-- A row trips: remapped, or left to Runner where its bank has no spare (R42, R237); an event reports either (R22). -/
def State.tripRow (s : State) (k : Nat) (loc : BitVec 64) : State :=
  match s.remapRow loc with
  | some s1 => s1.event .unitRepair 0xFF 0 (toLe 8 loc.toNat)
  | none =>
    let s1 := (s.count .fltBktStat k 0 32 16).event .noSpare 0xFF 0 (toLe 8 loc.toNat)
    { s1 with riser := { s1.riser with badRows := if s1.riser.badRows.contains loc then s1.riser.badRows else s1.riser.badRows ++ [loc] } }

/-! ### Buckets (R24 to R29) -/

/-- The key, watch table (0 none) and row and column of a counted fault. -/
structure Fault1 where
  key : Nat
  table : Nat
  row : Nat
  col : Nat
  unit : Nat
  deriving DecidableEq, Repr

/-- The row bucket's place: a T1 controller's watch table, or a stack channel's (R29). -/
def faultRow (cls : Nat) (loc : BitVec 64) : Fault1 := ⟨loc.toNat, 1 + (if cls = 0 then bits loc.toNat 3 0 else 0x100 + bits loc.toNat 9 0), 0, 0, 0⟩

def faultOf (cls : Nat) : FaultSite → Fault1
  | .unit id row col =>
    let u := id.toNat
    if cls = 7 then ⟨0x02000000 + u % 0x1000000 / 128 * 128, 0, row, col, u⟩ else if cls = 5 then ⟨u * 4 + row % 4, 0, row, col, u⟩ else ⟨u, 0, row, col, u⟩
  | .corrected id => ⟨id.toNat, 0, 0, 0, id.toNat⟩
  | .bankGranule id _ => ⟨id.toNat, 0, 0, 0, id.toNat⟩
  | .cacheGranule id _ _ => ⟨id.toNat, 0, 0, 0, id.toNat⟩
  | .rowGranule loc _ _ => faultRow cls loc
  | .row loc => faultRow cls loc
  | .group id row => ⟨id.toNat, 1 + bits id.toNat 10 8, row.toNat, 0, id.toNat⟩
  | .lane ch lane _ => ⟨ch.toNat * 64 + lane.val, 1 + 0x100 + (8 + bits ch.toNat 10 8) + 16 * bits ch.toNat 5 0, 0, 0, ch.toNat⟩

/-- A stamp in units of W ÷ 256 of a window W; kept under another window, it is judged by the time it stands for (R25, R31). -/
def Stamp.in_ (t : Stamp) (w : Nat) : Nat := t.at_ * t.win / w

/-- A stamp within the window before a new event, at its resolution of W ÷ 256 (R25, R26). -/
def within (w : Nat) (old : Stamp) (new : Nat) : Bool := w != 0 && decide (new * 256 / w - old.in_ w ≤ 256)

/-- Make sure a fault has its bucket; a full watch table gives up the entry whose newest stamp, at its kept resolution, is oldest (R29). The entry of a row, group or lane that has tripped stays in its table without stamps, is given up before all others, and is counted when it is (DESIGN CHOICE, log entry 84). -/
def State.bucketFor (s : State) (cls : Nat) (f : Fault1) : State :=
  if s.riser.buckets.any (fun b => b.cls == cls && b.key == f.key && b.table == f.table) then s else
  let inTable := s.riser.buckets.filter (fun b => f.table != 0 && b.table == f.table)
  match firstFree 256 (inTable.map (·.index)) with
  | some i => { s with riser := { s.riser with buckets := s.riser.buckets ++ [{ cls := cls, key := f.key, table := f.table, index := if f.table = 0 then 0 else i }] } }
  | none =>
    let newest (b : Bucket) : Nat := (b.stamps.getLast?.map (fun t => t.at_ * t.win + 1)).getD 0
    let victim := inTable.foldl (fun (best : Option Bucket) b => match best with
      | none => some b
      | some v => if newest b < newest v ∨ (newest b = newest v ∧ b.index < v.index) then some b else some v) none
    let i := (victim.map (·.index)).getD 0
    let s1 := s.count .fltWatchEvictCnt 0 0 0 32
    { s1 with riser := { s1.riser with buckets := (s1.riser.buckets.filter (fun b => !(b.table == f.table && b.index == i))) ++ [{ cls := cls, key := f.key, table := f.table, index := i }] } }

/-- The bucket class of a unit's class. -/
def bucketClass (u : Nat) : Nat :=
  let c := bits u 31 24
  if c = 1 then 8 else if c = 2 ∨ c = 3 then 7 else if c = 4 then 6 else if c = 5 then 9 else if c = 6 then 2 else if c = 7 then 4
  else if c = 8 then 11 else if c = 9 then 10 else if c = 0xA then 12 else if c = 0xB then 13 else if c = 0xC then 14 else 15

/-- A request reaches Riser, which serves it at the end of the tick (R41, R477; log entry 26). -/
def State.ask (s : State) (u : Nat) (k : AskKind) : State := { s with riser := { s.riser with asks := s.riser.asks ++ [{ unit := u, kind := k }] } }

/-- The unit that a trip retires: of an array, the row or column that all its events name while that spare is free, otherwise the core (R34). -/
def State.tripUnit (s : State) (cls : Nat) (f : Fault1) (marks : List Stamp) : Nat :=
  if cls = 7 then
    let c := bits f.key 23 16
    let a := bits f.key 9 8
    let line (k n : Nat) : Nat := if n < 64 ∧ s.isSpare (arrUnit k c a 64) then arrUnit k c a n else coreUnit c
    if marks.all (fun m => m.row == f.row) then line 2 f.row
    else if marks.all (fun m => m.col == f.col) then line 3 f.col
    else coreUnit c
  else f.unit

/-- What a trip of a class does (R32, R34): a row is remapped at once, a unit is put before Riser. -/
def State.trip (s : State) (cls : Nat) (f : Fault1) (marks : List Stamp) : State :=
  if cls ≤ 1 then s.tripRow cls (BitVec.ofNat 64 f.key)
  else if cls = 3 then s
  else s.ask (s.tripUnit cls f marks) (.trip cls)

/-- Count an event in its bucket; the stamps that tripped it where it trips (R24 to R27). Of a unit that is RETIRING it counts in EVENTS alone (R27); the same holds of a SPARE, RETIRED or QUARANTINED unit, and of an array whose core, row or column is not ACTIVE (DEDUCED, log entry 84). -/
def State.tally (s : State) (cls : Nat) (f : Fault1) (time : Nat) : State × Option (List Stamp) :=
  let cfg := s.reg .fltBktCfg cls 0
  let keep := bits cfg 3 0
  let w := bits cfg 51 8
  let s0 := s.count .fltBktStat cls 0 48 16
  let c := bits f.key 23 16
  let a := bits f.key 9 8
  let units := if cls = 7 then [coreUnit c, arrUnit 2 c a f.row, arrUnit 3 c a f.col] else [f.unit]
  let idle := 4 ≤ cls ∧ units.any (fun u => (s.unit u).state != .active)
  if !bit cfg 52 ∨ idle then (s0, none) else
  let s1 := s0.bucketFor cls f
  let old := ((s1.riser.buckets.find? (fun b => b.cls == cls && b.key == f.key && b.table == f.table)).map (·.stamps)).getD []
  let kept := old.drop (old.length - keep)
  let new : Stamp := { at_ := time * 256 / w, win := w, row := f.row, col := f.col }
  let tripped := keep == 0 || (kept.length == keep && (match kept with
    | o :: _ => within w o time
    | [] => false))
  let next := if tripped then [] else (kept ++ [new]).drop (kept.length + 1 - keep)
  let s2 : State := { s1 with riser := { s1.riser with buckets := upd s1.riser.buckets (fun b => b.cls == cls && b.key == f.key && b.table == f.table) (fun b => { b with stamps := next }) } }
  if tripped then (s2.count .fltBktStat cls 0 0 32, some kept) else (s2, none)

/-- A fault event counted against its unit's bucket (R22, R24); the lanes of a channel without a spare lane left count against the channel (class 4). -/
def State.bucket (s : State) (cls : Nat) (site : FaultSite) (time : Nat) : State :=
  let f := faultOf cls site
  let served : Option (BitVec 64) := match site with
    | .group id row => if s.pendingGroup id.toNat then some row else none
    | .lane ch lane row => if s.pendingLane ch.toNat lane then some row else none
    | _ => none
  let w := bits (s.reg .fltBktCfg cls 0) 51 8
  let repeated := match site with
    | .group _ row => s.riser.buckets.any (fun b => b.cls == cls && b.key == f.key && b.stamps.any (fun t => t.row == row.toNat && within w t time))
    | _ => false
  if cls = 15 ∧ !(List.range 3).all (fun i => (s.unit (f.unit / 4 * 4 + i)).state == .active) then s
  else if repeated then s else
  match served with
  | some row => (s.count .fltBktStat cls 0 48 16).tripRow (if cls = 2 then 0 else 1) row
  | none =>
  let (s1, t) := s.tally cls f time
  match t with
  | none => s1
  | some marks =>
    if cls = 3 then
      let used := (s1.riser.lanes.filter (fun l => l.1 == f.unit)).length
      if used < 2 then
        (({ s1 with riser := { s1.riser with lanes := s1.riser.lanes ++ [(f.unit, f.key % 64)] } }).ledgerAdd
          { kind := 3, pending := true, seq := 0, what := BitVec.ofNat 64 (f.unit + f.key % 64 * 2 ^ 32 + used * 2 ^ 40) }).event .unitRepair 0xFF f.unit
      else
        let s2 := s1.noSpare 3 f.unit
        let g : Fault1 := ⟨f.unit, 0, 0, 0, f.unit⟩
        let (s3, t4) := s2.tally 4 g s2.now
        match t4 with
        | some m => s3.trip 4 g m
        | none => s3
    else s1.trip cls f marks

/-- The time of an event in its class's time base: slow ticks, or units of 2^16 received bits for wavelengths (R32). -/
def State.bucketTime (s : State) (cls bits : Nat) : Nat := if cls = 10 then bits / 2 ^ 16 else s.now

/-- The opcodes that Hualosin runs (R59). -/
def byHualosin (op : Nat) : Bool :=
  op == 0x101 || op == 0x102 || op == 0x110 || op == 0x111 || op == 0x113 || op == 0x120 || op == 0x121 || (0x201 ≤ op && op ≤ 0x204) ||
  op == 0x301 || op == 0x303 || op == 0x310 || op == 0x313 || op == 0x601 || op == 0x604 || op == 0x605 || op == 0x701 || op == 0x803 || op == 0x804 ||
  (0x901 ≤ op && op ≤ 0x904) || op == 0xB02 || op == 0xB03

/-- A machine check of a host-class core in service ends the commands the core was running for Hualosin; which those are is open (R23, R470): a free value picks among the commands it runs. -/
def State.machineCheck (s : State) (u : Nat) : State :=
  if (s.unit u).state ≠ .active then s else
  let cs := (s.queues.flatMap (·.running)).filter (fun c => byHualosin c.opcode && c.reply.isNone)
  cs.foldl (fun st c => let (n, st1) := st.draw
    if n % 2 = 1 then st1.failCmd c.uid (errPoison 0x0D u) else st1) s

/-- Mark a granule of device memory poisoned. -/
def State.spoil (s : State) (x addr : Nat) : State := match s.objAt x addr with
  | some o =>
    let off := (addr - o.base) / 64 * 64
    (s.count .fltPoisonCnt 0 0 0 32 (newMarks o.mem off 64)).modObj x o.handle (fun o => { o with mem := o.mem.mark off 64 })
  | none => s

/-- A residue failure strikes the next stage that a running fused chain computes on the array, or on ladles, that its event names (R150, R268; DEDUCED, log entry 42). -/
def State.upset (s : State) (cls id row col : Nat) : State :=
  let on (f : Fused) : Bool :=
    if cls = 7 then f.cores.any (fun k => k.core == bits id 23 16 && !k.ended) && f.stages.any (fun g => g.engine == bits id 9 8 + 1)
    else cls == 5 && f.stages.any (fun g => g.engine == 8 && g.op == 0x20)
  match s.moves.jobs.find? (fun j => (j.fused.map on).getD false) with
  | some j => s.modJob j.id (fun j => { j with fused := j.fused.map (fun f => { f with upsets := f.upsets ++ [{ cls := cls, id := id, row := row, col := col }] }) })
  | none => s

/-- What a fault does beside being counted: a machine check ends commands, an uncorrectable granule is poisoned (R22, R23, R88, R470), an access to a row meets its remap entries (R238), a residue failure strikes a fused stage (R150, R268). -/
def State.strike (s : State) (cls : Nat) (what : FaultSite) : State := match what with
  | .unit id row col => if cls = 9 then s.machineCheck id.toNat else s.upset cls id.toNat row col
  | .bankGranule id off =>
    let c := bits id.toNat 23 16
    if c < 40 ∧ off < storeBytes ∧ (s.core c).bankUnit off = id.toNat then s.storeMark c (off / 64 * 64) 64 else s
  | .cacheGranule _ x addr => s.spoil x addr
  | .rowGranule loc x addr => (s.rowAccess loc).spoil x addr
  | .row loc => s.rowAccess loc
  | _ => s

/-- BUCKET_EVENT (R24). -/
def execBucketEvent (cls : Fin 16) (what : FaultSite) (bits : Nat) (s : State) : Host.Outcome State Fault Refusal :=
  s.runAo (fun s => let s1 := s.strike cls what
    s1.bucket cls what (s1.bucketTime cls bits))

/-- An engine holds a started operation past its watchdog's limit and waits for nothing: CORE_STAT.WDOG is set and the core's bucket counts it (R102). -/
def State.watchdogExpired (s : State) (c e : Nat) : State :=
  match (s.core c).run with
    | some r =>
      let k := (r.engines[e]?).getD {}
      if k.cur.isSome ∧ !k.streaming then (s.flag .coreStat c 0 6).bucket 8 (.unit (BitVec.ofNat 32 (coreUnit c)) 0 0) s.now else s
    | none => s

/-- WATCHDOG_EXPIRY, evaluated at the end of its tick (R80, R102). -/
def execWatchdogExpiry (c : Fin 40) (e : Fin 9) (s : State) : Host.Outcome State Fault Refusal := s.run (fun s => s.expire (.watchdog c e))

/-! ### Views and acknowledgements (R475, R476) -/

/-- Answer a request to Riser: a command's record, or the management endpoint's reply (R477, R488). -/
def State.riserReply (s : State) (u c : Nat) (r : Reply) : State :=
  if c = 0 then { s with riser := { s.riser with mgmtReplies := s.riser.mgmtReplies ++ [(u, r)] } } else s.reply c r

/-- The requests waiting for a unit's change complete once it is settled outside RETIRING, in which a bond group stays until the next reset (R475, R488). -/
def State.answerUnit (s : State) (u : Nat) : State :=
  let r := s.unit u
  if r.settled ∧ (r.state ≠ .retiring ∨ bits u 31 24 = 6) then
    (r.waiting.foldl (fun st c => st.riserReply u c (okProgress r.gen (stateCode r.state))) s).modUnit u (fun r => { r with waiting := [] })
  else s

/-- Compare a view with its record: a generation gap above one, or another state at equal generation, quarantines the unit (R475). -/
def State.compareView (s : State) (u : Nat) : State :=
  let r := s.unit u
  let gap := genGap r.gen r.lgen
  if (1 < gap ∨ (gap = 0 ∧ r.lstate ≠ r.state)) ∧ r.state ≠ .quarantined ∧ r.state ≠ .retired then
    let was := r.state
    let s1 := ((s.transit u .quarantined r.backs).count .fltRiserStat 0 0 32 16).event .quarantine 0xFF u
    if was = .active then s1.retireUnit (bucketClass u) u true else if was = .spare then s1.forsake u else s1
  else s

/-- Reconcile a quarantined unit: record and view one generation above the higher of the two (R476). -/
def State.reconcile (s : State) (u : Nat) (pass : Bool) : State :=
  let r := s.unit u
  let bound := (r.replacement.map (fun d => (s.unit d).state == .active && (s.unit d).backs == r.backs)).getD false
  let st : UnitState := if !pass then .retired else if bound ∨ unitSpare u then .spare else .active
  let g := nextGen (laterGen r.gen r.lgen)
  let s1 := s.putUnit { r with state := st, gen := g, lstate := st, lgen := g, changed := s.now, replacement := none, drained := true }
  let s2 := s1.ledgerAdd { kind := 1, seq := 0, what := BitVec.ofNat 64 u, gen := g, state := stateCode st, backs := r.backs }
  let s3 := if st = .active ∧ bits u 31 24 = 1 then
      { s2 with tenants := { s2.tenants with parts := s2.tenants.parts.map (fun (p : Part) => { p with lost := p.lost.filter (fun q => q / 4 * 5 + q % 4 != bits r.backs 5 0) }) } }
    else s2
  let s4 := if st = .active ∧ (bits u 31 24 = 2 ∨ bits u 31 24 = 3) then s3.modCore (bits u 23 16) (fun q => { q with arrays := q.arrays.zipIdx.map (fun p =>
      if p.2 ≠ bits u 9 8 then p.1 else if bits u 31 24 = 2 then { p.1 with nextRow := p.1.retRow } else { p.1 with nextCol := p.1.retCol }) })
    else s3
  (s4.count .fltRiserStat 0 0 0 32).answerUnit u

/-- LOCAL_VIEW_ACK: a controller acknowledges with its view; a drained unit goes on to RETIRED (R475, R38). -/
def execLocalViewAck (unit : BitVec 32) (st : UnitState) (gen : BitVec 32) (s : State) : Host.Outcome State Fault Refusal :=
  s.runAo (fun s =>
    let u := unit.toNat
    let before := s.unit u
    let s1 := s.modUnit u (fun r => { r with lstate := st, lgen := gen.toNat })
    let s2 : State := { s1 with riser := { s1.riser with viewWrites := s1.riser.viewWrites.filter (fun w => !(w.1 == u && laterGen w.2 gen.toNat == gen.toNat)) } }
    let r := s2.unit u
    if r.settled then
      let s3 := if before.settled then s2 else s2.count .fltRiserStat 0 0 0 32
      if r.state = .retiring ∧ r.drained then (s3.transit u .retired 0).event .unitRepair 0xFF u
      else s3.answerUnit u
    else s2.compareView u)

/-- RISER_REWRITE_TIMER: Riser writes again a view that lags its record (R475). -/
def execRiserRewriteTimer (unit : BitVec 32) (s : State) : Host.Outcome State Fault Refusal :=
  s.runAo (fun s =>
    let r := s.unit unit.toNat
    if nextGen r.lgen = r.gen then { s with riser := { s.riser with viewWrites := s.riser.viewWrites ++ [(unit.toNat, r.gen)] } } else s)

/-- RISER_COMPARE_TIMER: once a second every view is compared, and quarantined units are reset, self-tested and reconciled (R475, R476). -/
def execRiserCompareTimer (selfTestOk : Bool) (s : State) : Host.Outcome State Fault Refusal :=
  s.runAo (fun s =>
    let us := insSort id (s.riser.units.map (·.id))
    let s1 := us.foldl State.compareView s
    (us.filter (fun u => (s.unit u).state == .quarantined)).foldl (fun st u => st.reconcile u selfTestOk) s1)

/-- SPARE_SELF_TEST: each spare that fails retires (R38). -/
def execSpareSelfTest (failing : List (BitVec 32)) (s : State) : Host.Outcome State Fault Refusal :=
  s.runAo (fun s => failing.foldl (fun st u => if (st.unit u.toNat).state = .spare then st.spareFails u.toNat else st) s)

/-- ARRAY_REMAP_APPLY: with no program on the core, the pending mapping of an array applies and its spares are ACTIVE (R151, R38). -/
def execArrayRemapApply (c : Fin 40) (a : Fin 4) (s : State) : Host.Outcome State Fault Refusal :=
  s.run (fun s =>
    match (s.core c).run, (s.core c).arrays[a.val]? with
    | none, some k =>
      let line (st : State) (row : Bool) (cur next : Nat) : State :=
        let cls := if row then 2 else 3
        if cur ≠ next ∧ (st.unit (arrUnit cls c a 64)).state = .spare then st.bind (arrUnit cls c a next) (arrUnit cls c a 64) else st
      let s1 := line (line s true k.retRow k.nextRow) false k.retCol k.nextCol
      s1.modCore c (fun q => { q with arrays := setAt q.arrays a { k with retRow := k.nextRow, retCol := k.nextCol } })
    | _, _ => s)

/-! ### Repair commands (R488 to R490) -/

/-- Whether a unit identifier is one of R36. -/
def unitValid (u : Nat) : Bool :=
  let cls := bits u 31 24
  let x := bits u 23 0
  if cls = 1 then x < 40
  else if cls = 2 ∨ cls = 3 then decide (bits x 23 16 < 40 ∧ bits x 15 10 = 0 ∧ bits x 7 7 = 0 ∧ bits x 6 0 ≤ 64)
  else if cls = 4 then decide (bits x 23 16 < 40 ∧ bits x 15 6 = 0 ∧ bits x 5 0 < 50)
  else if cls = 5 then x < 18
  else if cls = 6 then x < 2048
  else if cls = 7 then decide (x < 2048 ∧ bits x 7 6 = 0 ∧ bits x 5 0 < 34)
  else if cls = 8 then x < 36
  else if cls = 9 then decide (bits x 23 14 = 0 ∧ bits x 13 8 < 36 ∧ bits x 7 4 = 0 ∧ bits x 3 0 < 9)
  else if cls = 0xA then x < 14
  else if cls = 0xB then decide (x < 2048 ∧ bits x 7 1 = 0)
  else if cls = 0xC then x < 2
  else if cls = 0xD then decide (x < 2048 ∧ bits x 7 2 = 0 ∧ bits x 1 0 < 3)
  else false

/-- What Riser does with a request (R477, R488): the reply at once, or none while the change is under way. -/
def State.riserAct (s : State) (a : RiserAction) (u gen : Nat) (loc : BitVec 64) : State × Option Reply :=
  match a with
  | .remapRow =>
    if !rowValid loc then (s, some (errFormat 56)) else
    match s.remapRow loc with
    | some s1 => (s1, some (okProgress 0))
    | none => (s, some (errNofit 15 0))
  | _ =>
    if !unitValid u then (s, some (errFormat 40)) else
    let r := s.unit u
    if r.gen ≠ gen then (s, some (errConflict 2 u)) else
    match a with
    | .retire =>
      if r.state ≠ .active then (s, some (errFormat 48)) else
      (s.retireUnit (bucketClass u) u false, none)
    | .reconcile =>
      if r.state ≠ .quarantined then (s, some (errFormat 48)) else
      let (n, s1) := s.draw
      let s2 := s1.reconcile u (n % 2 == 0)
      (s2, some (okProgress (s2.unit u).gen (stateCode (s2.unit u).state)))
    | _ =>
      if r.state ≠ .spare then (s, some (errFormat 48)) else
      let (n, s1) := s.draw
      if n % 2 = 0 then (s1, some (okProgress r.gen (stateCode .spare))) else (s1.spareFails u, none)

def actionOf (n : Nat) : RiserAction := if n = 0 then .retire else if n = 1 then .reconcile else if n = 2 then .selfTest else .remapRow

/-- Serve one request: a trip retires a unit still in service; a command or the management endpoint is answered, or waits for its change (R475, R477, R488). -/
def State.serveAsk (s : State) (a : Ask) : State :=
  let core := coreUnit (bits a.unit 23 16)
  let wait (st : State) (c : Nat) (r : Option Reply) : State := match r with
    | some r => st.riserReply a.unit c r
    | none =>
      -- a row, column or bank without a spare takes its core with it (R21, R34)
      let u := if (st.unit a.unit).state = .active ∧ 2 ≤ bits a.unit 31 24 ∧ bits a.unit 31 24 ≤ 4 then core else a.unit
      (st.modUnit u (fun u => { u with waiting := u.waiting ++ [c] })).answerUnit u
  match a.kind with
  | .trip k => s.retireUnit k a.unit false
  | .repair uid act gen loc =>
    let r := s.riserAct act a.unit gen loc
    if ((s.cmd? uid).map (fun c => c.reply.isNone)).getD false then wait r.1 uid r.2 else s
  | .mgmt act gen loc =>
    let r := s.riserAct act a.unit gen loc
    wait r.1 0 r.2

/-- Whether a request is a command's. -/
def Ask.byCommand (a : Ask) : Bool := match a.kind with
  | .repair _ _ _ _ => true
  | _ => false

/-- The place of a request in the order of R477: its source, then its unit. -/
def Ask.rank (a : Ask) : Nat := (match a.kind with
  | .trip _ => 0
  | .repair _ _ _ _ => 1
  | .mgmt _ _ _ => 2) * 2 ^ 32 + a.unit

/-- At the end of a tick Riser serves what reached it: trips, then commands, then the management endpoint, each by unit identifier and then arrival (R41, R477). -/
def State.serveAsks (s : State) : State :=
  (insSort Ask.rank s.riser.asks).foldl State.serveAsk { s with riser := { s.riser with asks := [] } }

/-- REPAIR_REQUEST (R488): checked at once, served at the end of the tick (R477). -/
def bodyRepairRequest : Body := fun c s => do
  noTicket c
  let act := c.u 48 1
  need (act != 3 || c.u 40 4 == 0) (errFormat 40)
  need (act == 3 || unitValid (c.u 40 4)) (errFormat 40)
  need (act != 3 || c.u 44 4 == 0) (errFormat 44)
  need (decide (act ≤ 3)) (errFormat 48)
  reserved c 49 7
  need (act != 3 || rowValid (BitVec.ofNat 64 (c.u 56 8))) (errFormat 56)
  .ok ((s.ask (c.u 40 4) (.repair c.uid (actionOf act) (c.u 44 4) (BitVec.ofNat 64 (c.u 56 8)))).modCmd c.uid (fun k => { k with work := .unit (c.u 40 4) }), none)

/-- The 32 bytes of a unit's record (R489). -/
def State.unitBytes (s : State) (u : Nat) : List Byte :=
  let r := s.unit u
  let keep := bits (s.reg .fltBktCfg (bucketClass u) 0) 3 0
  let kept := ((s.riser.buckets.find? (fun b => b.cls == bucketClass u && b.key == (if bucketClass u = 7 then 0x02000000 + u % 0x1000000 / 128 * 128 else u))).map (fun b => min keep b.stamps.length)).getD 0
  toLe 4 u ++ toLe 1 (stateCode r.state) ++ toLe 1 (stateCode r.lstate) ++ toLe 2 0 ++ toLe 4 r.gen ++ toLe 4 r.lgen ++ toLe 4 r.backs ++ toLe 4 kept ++ toLe 8 r.changed

/-- UNIT_QUERY (R489). -/
def bodyUnitQuery : Body := fun c s => do
  noTicket c
  let u := c.u 40 4
  need (unitValid u) (errFormat 40)
  if c.fn ≠ 0 then
    let core := if bits u 31 24 = 1 then bits u 5 0 else bits u 23 16
    let mine := ((s.part? (c.fn - 1)).map (fun p => (s.partCores p).contains core)).getD false
    need (1 ≤ bits u 31 24 && decide (bits u 31 24 ≤ 4) && mine) (errPartition 40)
  reserved c 44 4
  let (host, addr) ← recordField c 48
  if !host then
    let _ ← s.namedCtx c.fn (c.u 3 1) 3
  reserved c 56 8
  let s1 ← s.output c host addr (s.unitBytes u)
  .ok (s1, some ok)

/-- The MiB of a scrub pass over a controller mask. -/
def scrubMib (mask : Nat) : Nat :=
  sumOf' (setBits 16 mask)
where
  sumOf' : List Nat → Nat
    | [] => 0
    | i :: l => (if i < 8 then 8192 else tierPages true (i - 8) * 2) + sumOf' l

/-- SCRUB (R490): one patrol pass over the named controllers. -/
def bodyScrub : Body := fun c s => do
  noTicket c
  let m := c.u 40 2
  need (m ≠ 0) (errFormat 40)
  reserved c 42 22
  .ok (s.modCmd c.uid (fun k => { k with work := .scrub m }), none)

/-- The row locator of a device address resident in T1 or T2 (R219, R488). -/
def State.locator (s : State) (x addr : Nat) : Nat := match s.pageAt x addr with
  | some (_, p) =>
    let d := dramPlace p.ppn (addr % pageBytes)
    (if p.tier = .t2 then 8 + p.place else p.place) + (if p.tier = .t2 then bits (s.stackChannel p.place d.channel) 5 0 else d.channel) * 2 ^ 4 +
      d.bankGroup * 2 ^ 10 + d.bank * 2 ^ 12 + d.row * 2 ^ 14
  | none => 0

/-- PATROL_SCRUB: a granule corrected or found uncorrectable, a row that a second remap entry of its bank matches (R238), or the end of a pass (R471, R490). -/
def execPatrolScrub (ctl : Fin 16) (finding : ScrubFinding) (s : State) : Host.Outcome State Fault Refusal :=
  s.run (fun s =>
    let asked (c : Running) : Bool := match c.work with
      | .scrub m => m.testBit ctl
      | _ => false
    if s.field .fltScrubCfg 0 0 32 1 = 0 ∧ !(s.queues.flatMap (·.running)).any asked then s else
    match finding with
    | .corrected row => ((s.rowAccess row).count .fltScrubStat 0 0 0 32).bucket (if ctl.val < 8 then 0 else 1) (.row row) s.now
    | .twin row i =>
      let known := s.riser.remaps.any (fun r => r.loc == row && r.spare == i.val)
      let s1 : State := { s with riser := { s.riser with remaps := s.riser.remaps ++ (if known then [] else [{ loc := row, spare := i.val }]) } }
      s1.rowAccess row
    | .uncorrectable x addr => ((s.count .fltScrubStat 0 0 32 16).spoil x addr).event .scrubPoison 0xFF 0 (toLe 8 (s.locator x addr))
    | .passEnd =>
      let s1 := s.count .fltScrubStat 0 0 48 16
      let cs := (s1.queues.flatMap (·.running)).filter asked
      cs.foldl (fun st c => match c.work with
        | .scrub m =>
          let m' := m - 2 ^ ctl.val
          let done := scrubMib (c.u 40 2) - scrubMib m'
          if m' = 0 then st.reply c.uid (okProgress done) else st.modCmd c.uid (fun k => { k with work := .scrub m', progress := done })
        | _ => st) s1)

/-- MGMT_RISER_REQUEST: a request of the management endpoint, served after the trips and commands of its tick and answered once its change is complete (R477, R488). -/
def execMgmtRiserRequest (action : RiserAction) (unit gen : BitVec 32) (row : BitVec 64) (s : State) : Host.Outcome State Fault Refusal :=
  s.runAo (fun s => s.ask unit.toNat (.mgmt action gen.toNat row))

def execRepairRequest := opcodeStep 0x0901 true true bodyRepairRequest
def execUnitQuery := opcodeStep 0x0902 true false bodyUnitQuery
def execScrub := opcodeStep 0x0903 true true bodyScrub

end Sys2Proof.Machine
end

