-- ==== Sys2Proof/Machine/Tickets.lean ====
section
/-! DEFINITION. Admission, resource tickets and program images (R67 to R73, R96 to R99). -/

namespace Sys2Proof.Machine
open Sys2Proof

/-! ### Core-program operations (R97) -/

/-- The signal that a WAIT or POST byte names; with its bit 7 clear it names none. -/
def signalOf (b : Byte) : Option (BitVec 6) := if b.getLsbD 7 then some (b.extractLsb' 0 6) else none

def signalByte : Option (BitVec 6) → Byte
  | some k => (0b10#2 ++ k : BitVec 8)
  | none => 0

/-- An operation from its 16 bytes. -/
def Op.decode (bs : List Byte) : Op :=
  { op := bs.headD 0, engine := ((bs.drop 1).headD 0).extractLsb' 0 4, wait := signalOf ((bs.drop 2).headD 0), post := signalOf ((bs.drop 3).headD 0),
    desc := BitVec.ofNat 32 (fld bs 4 4), imm := BitVec.ofNat 64 (fld bs 8 8) }

/-- The 16 bytes of an operation. -/
def Op.encode (o : Op) : List Byte :=
  [o.op, (0#4 ++ o.engine : BitVec 8), signalByte o.wait, signalByte o.post] ++ toLe 4 o.desc.toNat ++ toLe 8 o.imm.toNat

/-- Whether an operation code is one its engine accepts (R98, R122, R156, R189, R255, R308). -/
def opKnown (engine op : Nat) : Bool :=
  if engine = 0 then op ≤ 5
  else if engine ≤ 4 then 1 ≤ op && op ≤ 3
  else if engine ≤ 7 then op == 1
  else (1 ≤ op && op ≤ 3) || op == 0x20 || op == 0x21

/-- The offsets within an operation of its bad fields, apart from loop structure (R99). -/
def opErrors (d : Decl) (bs : List Byte) : List Nat :=
  let op := fld bs 0 1
  let eng := fld bs 1 1
  let w := fld bs 2 1
  let p := fld bs 3 1
  let desc := fld bs 4 4
  let imm := fld bs 8 8
  let sig (b off : Nat) : List Nat := if bit b 6 ∨ (bit b 7 ∧ !bit d.sigMask (b % 64)) then [off] else []
  if 8 < eng then [1] ++ sig w 2 ++ sig p 3 else
  (if opKnown eng op then [] else [0]) ++ sig w 2 ++ sig p 3 ++
  (if eng ≠ 0 then (if desc % 64 = 0 then [] else [4]) ++ (if eng = 5 ∨ imm = 0 then [] else [8])
   else if op = 2 then (if desc ≤ 3 then [] else [4]) ++ (if 1 ≤ imm ∧ imm < 2 ^ 32 then [] else [8])
   else if op = 3 then (if desc ≤ 3 then [] else [4]) ++ (if imm < 2 ^ 16 then [] else [8])
   else if op = 5 then (if desc / 2 ^ 14 = 0 ∧ bits desc 11 10 = 0 ∧ bits desc 9 0 < d.barriers then [] else [4]) ++ (if imm = 0 then [] else [8])
   else (if desc = 0 then [] else [4]) ++ (if imm = 0 then [] else [8]))

/-- The image offsets of bad loop structure: the open loops are (index, register), innermost first (R99). -/
def loopErrors : Nat → List (Nat × Nat) → List (List Byte) → List Nat
  | _, _, [] => []
  | n, openL, o :: l =>
    let at_ (k : Nat) : Nat := 32 + 16 * n + k
    let desc := fld o 4 4
    if fld o 1 1 ≠ 0 then loopErrors (n + 1) openL l
    else if fld o 0 1 = 2 then
      (if openL.any (fun p => p.2 == desc % 4) ∨ 4 ≤ openL.length then [at_ 4] else []) ++ loopErrors (n + 1) ((n, desc % 4) :: openL) l
    else if fld o 0 1 = 3 then
      (match openL with
       | [] => [at_ 8]
       | (i, r) :: _ => if fld o 8 2 ≠ i then [at_ 8] else if desc % 4 ≠ r then [at_ 4] else []) ++ loopErrors (n + 1) openL.tail l
    else if fld o 0 1 = 1 then
      (match openL.getLast? with
       | some p => [32 + 16 * p.1]
       | none => []) ++ loopErrors (n + 1) openL l
    else loopErrors (n + 1) openL l

def leastOf : List Nat → Option Nat
  | [] => none
  | a :: l => match leastOf l with
    | some b => some (min a b)
    | none => some a

/-- The least bad offset of a program image whose length is 32 + 16 × OPS, if any (R96, R99). -/
def imageErrors (d : Decl) (bs : List Byte) : Option Nat :=
  let ops := chunks 16 65537 (bs.drop 32)
  leastOf ((if fld bs 0 2 = 0x5C09 then [] else [0]) ++ (if fld bs 2 2 = 0x0709 then [] else [2]) ++ (if fld bs 4 1 = 0xA1 then [] else [4]) ++
    ((List.range 3).filter (fun i => fld bs (5 + i) 1 ≠ 0)).map (5 + ·) ++
    (if 1 ≤ fld bs 8 4 ∧ fld bs 8 4 ≤ 65536 then [] else [8]) ++ ((List.range 20).filter (fun i => fld bs (12 + i) 1 ≠ 0)).map (12 + ·) ++
    (ops.zipIdx.flatMap (fun p => (opErrors d p.1).map (fun k => 32 + 16 * p.2 + k))) ++ loopErrors 0 [] ops ++
    (match ops.getLast? with
     | some o => if fld o 1 1 = 0 ∧ fld o 0 1 = 1 then [] else [32 + 16 * (ops.length - 1)]
     | none => []))

/-- The format of IMAGE and IMAGE_BYTES fields: an image holds at least its 32-byte header and whole operations or entries (R99, R197). -/
def imageFormat (c : Running) (offImage offBytes : Nat) : Except Stop Unit := do
  let _ ← imageField c offImage
  need (decide (32 ≤ c.u offBytes 4 ∧ c.u offBytes 4 % 16 = 0)) (errFormat offBytes)

/-- Read and check a program image whose IMAGE and IMAGE_BYTES fields stand at the given packet offsets (R99). -/
def State.progImage (s : State) (c : Running) (d : Decl) (offImage offBytes : Nat) : Except Stop (List Op) := do
  let (host, addr) ← imageField c offImage
  let n := c.u offBytes 4
  let hdr ← s.input c host addr 32
  need (n == 32 + 16 * fld hdr 8 4) (errFormat offBytes)
  let bs ← s.input c host addr n
  match imageErrors d bs with
  | some o => fail (errFormat offImage o)
  | none => .ok ((chunks 16 65537 (bs.drop 32)).map Op.decode)

/-! ### Admission (R67 to R70) -/

/-- The declaration at a packet offset (R67). -/
def declAt (c : Running) (o : Nat) : Decl :=
  { csBytes := c.u o 4, cores := c.u (o + 4) 2, barriers := c.u (o + 6) 2, sigMask := c.u (o + 8) 8, dense := c.u (o + 16) 2, sparse := c.u (o + 18) 2,
    yieldUs := c.u (o + 20) 4, t1 := c.u (o + 24) 8, t2 := c.u (o + 32) 8, t3 := c.u (o + 40) 8, pinned := c.u (o + 48) 8 }

/-- The live tickets of a partition. -/
def State.heldTickets (s : State) (p : Nat) : List Ticket := (s.tenants.slots.filter (·.part == p)).filterMap (·.live)

def sumOf {α : Type} (f : α → Nat) (l : List α) : Nat := l.foldl (fun n x => n + f x) 0

/-- The save areas of a partition's live contexts (R497). -/
def State.saves (s : State) (p : Nat) : Nat := sumOf (·.saveBytes) (s.tenants.ctxs.filter (·.part == p))

/-- What a partition has left of each partition-wide field: cores, barriers, T1, T2, T3, pinned (R68). -/
structure Left where
  cores : Nat
  barriers : Nat
  t1 : Nat
  t2 : Nat
  t3 : Nat
  pinned : Nat
  deriving DecidableEq, Repr

def State.leftOf (s : State) (k : Part) : Left :=
  let h := s.heldTickets k.id
  { cores := k.positions.length - k.lost.length - sumOf (·.decl.cores) h,
    barriers := k.carve.barriers - sumOf (·.decl.barriers) h,
    t1 := k.carve.t1 - s.saves k.id - sumOf (·.decl.t1) h,
    t2 := k.carve.t2 - sumOf (·.decl.t2) h,
    t3 := k.carve.t3 - sumOf (·.decl.t3) h,
    pinned := k.carve.t1 + k.carve.t2 - s.saves k.id - sumOf (·.decl.pinned) h }

/-- What admission grants: positions, barrier ids, a slot and the slot's generation; which of the free ones is the TK9's choice (log entry 18). -/
structure Grant where
  decl : Decl
  cores : List Nat
  barIds : List Nat
  slot : Nat
  gen : Nat
  deriving DecidableEq, Repr

/-- The generation of a slot that no entry lists (R70). -/
def State.slotGen (s : State) (p n : Nat) : Nat :=
  match s.slot? p n with
  | some t => t.gen
  | none => 1 + ((s.part? p).map (·.carves)).getD 0

/-- The format of the declaration at a packet offset, reported at offsets counted from `base` (R67). -/
def declFormat (c : Running) (o base : Nat) : Except Stop Unit := do
  need (decide (1 ≤ c.u (o + 4) 2 ∧ c.u (o + 4) 2 ≤ 32)) (errFormat (base + 4))
  match (List.range 8).find? (fun i => c.u (o + 56 + i) 1 ≠ 0) with
  | some i => fail (errFormat (base + 56 + i))
  | none => .ok ()

/-- Check the declaration at a packet offset against the command's partition (R68, R69, R70). -/
def State.admission (s : State) (c : Running) (o : Nat) : Except Stop Grant := do
  let d := declAt c o
  match s.part? c.part with
  | none => fail (errNofit 2 0)
  | some k =>
    let l := s.leftOf k
    need (decide (d.csBytes ≤ storeBytes)) (errNofit 1 storeBytes)
    need (decide (d.cores ≤ l.cores)) (errNofit 2 l.cores)
    need (decide (d.barriers ≤ l.barriers)) (errNofit 3 l.barriers)
    need (decide (d.dense ≤ 512)) (errNofit 5 512)
    need (decide (d.sparse ≤ 8192)) (errNofit 6 8192)
    need (k.carve.yieldLimit == 0 || (d.yieldUs != 0 && decide (d.yieldUs ≤ k.carve.yieldLimit))) (errNofit 7 k.carve.yieldLimit)
    need (decide (d.t1 ≤ l.t1)) (errNofit 8 (l.t1 / pageBytes))
    need (decide (d.t2 ≤ l.t2)) (errNofit 9 (l.t2 / pageBytes))
    need (decide (d.t3 ≤ l.t3)) (errNofit 10 (l.t3 / pageBytes))
    need (decide (d.pinned ≤ l.pinned)) (errNofit 11 (l.pinned / pageBytes))
    let h := s.heldTickets k.id
    let usedC := h.flatMap (·.cores)
    let usedB := h.flatMap (·.barIds)
    let cores := pickMany d.cores s.free (k.positions.filter (fun q => !usedC.contains q && !k.lost.contains q))
    let bars := insSort id (pickMany d.barriers (s.free + d.cores) (((List.range k.carve.barriers).map (k.barBase + ·)).filter (fun b => !usedB.contains b)))
    match ({ s with free := s.free + d.cores + d.barriers } : State).pick 4096 ((s.tenants.slots.filter (fun t => t.part == k.id && t.live.isSome)).map (·.slot)) |>.1 with
    | none => fail (errNofit 19 0)
    | some n => .ok { decl := d, cores := cores, barIds := bars, slot := n, gen := s.slotGen k.id n }

/-- Issue the ticket of a grant. -/
def State.issue (s : State) (c : Running) (g : Grant) (p : Payload) : State × Nat :=
  let t : Ticket := { ctx := c.ctx, issuedGen := g.gen, payload := p, decl := g.decl, cores := g.cores, barIds := g.barIds }
  let e : Slot := { part := c.part, slot := g.slot, gen := g.gen, live := some t }
  ({ s with free := s.free + g.decl.cores + g.decl.barriers + 1, tenants := { s.tenants with slots := put s.tenants.slots (fun k => k.part == c.part && k.slot == g.slot) e } },
   ticketWord g.slot c.part c.ctx g.gen)

/-- Whether a started command holds a ticket through a program entry of the plan it runs. -/
def State.planHolds (s : State) (k : Running) (word : Nat) : Bool :=
  k.opcode == 0x304 && (match (s.slot? k.part (bits k.ticket 11 0)).bind (·.live) with
    | some { payload := .plan es, .. } => es.any (fun e => e.kind == 3 && e.ticket == word)
    | _ => false)

/-- Whether a started command other than this one, not yet completed, holds a ticket (R72). -/
def State.ticketHeld (s : State) (uid word : Nat) : Bool :=
  (s.queues.flatMap (·.running)).any (fun k => k.uid != uid && k.opcode != 0x131 && (k.ticket == word || s.planHolds k word))

/-- TICKET_RELEASE (R72): a ticket of the current generation, or of the generation it was issued at while the slot has not been released since. -/
def bodyTicketRelease : Body := fun c s => do
  let t := c.ticket
  need (t ≠ 0) (errFormat 32)
  need (bits t 23 17 == 0) (errFormat 32)
  reserved c 40 24
  need (bits t 16 12 == c.part && bits t 31 24 == c.ctx) (errPartition 32)
  let n := bits t 11 0
  match (s.slot? c.part n).bind (·.live) with
  | none => fail (errConflict 1 n)
  | some k =>
    need (k.issuedGen == bits t 63 32 && k.ctx == c.ctx) (errConflict 1 n)
    if s.ticketHeld c.uid t then .error .held
    else .ok (s.release c.part n, some ok)

/-- Whether a program has a BAR across devices (R98). -/
def ringBars (ops : List Op) : Bool := ops.any (fun o => o.engine == 0 && o.op == 5 && bits o.desc.toNat 13 12 != 0)

/-- PROG_LOAD (R99, R388). -/
def bodyProgLoad : Body := fun c s => do
  plenIs c 64
  noTicket c
  imageFormat c 40 48
  reserved c 52 12
  declFormat c 64 64
  let ops ← s.progImage c (declAt c 64) 40 48
  let g ← s.admission c 64
  need (!(s.pairedPart c.part && ringBars ops)) (errPartition 40)
  let (s1, t) := (s.sawImage c (c.u 40 8) (c.u 48 4)).issue c g (.prog ops)
  .ok (s1, some (okProgress t))

def execTicketRelease := opcodeStep 0x0131 false false bodyTicketRelease
def execProgLoad := opcodeStep 0x0301 false false bodyProgLoad

end Sys2Proof.Machine
end

