-- ==== Sys2Proof/Machine/Cores.lean ====
section
/-! DEFINITION. Cores: program launch, the sequencer, phases and move slots, signals, yields and context switches (R89 to R110). -/

namespace Sys2Proof.Machine
open Sys2Proof

/-! ### Engines, signals and phases -/

/-- Whether an engine's operations are of the compute class (R90): the arrays and the vector engine. -/
def computeEngine (e : Nat) : Bool := 1 ≤ e && e ≤ 5

/-- Engine e of a run (1 to 8). -/
def Run.engine (r : Run) (e : Nat) : Engine := (r.engines[e]?).getD {}
def Run.setEngine (r : Run) (e : Nat) (k : Engine) : Run :=
  { r with engines := setAt (r.engines ++ List.replicate (9 - r.engines.length) {}) e k }

/-- Whether no operation is queued or started on any engine. -/
def Run.drained (r : Run) : Bool := r.engines.all (fun k => k.queue.isEmpty && k.cur.isNone)

def Run.count (r : Run) (k : Nat) : Nat := mgetD r.signals k 0

/-- Whether a switch of the current phase is requested: an operation of the other class is ready at its queue's head (R92). -/
def Run.wantsSwitch (r : Run) : Bool :=
  r.engines.zipIdx.any (fun p => p.1.taken && !p.1.go && p.2 != 0 && computeEngine p.2 != r.compute)

/-- Take engine e's head as far as its signal wait and its phase allow (R92, R104, R105). -/
def Run.readyEngine (r : Run) (e : Nat) : Run :=
  let k := r.engine e
  match k.cur, k.queue with
  | none, q :: _ =>
    if k.taken then r else
    let ready (r : Run) : Run :=
      r.setEngine e { k with taken := true, parked := none, go := computeEngine e == r.compute && !r.wantsSwitch }
    match q.op.wait with
    | none => ready r
    | some n =>
      if 0 < r.count n.toNat then ready { r with signals := mset r.signals n.toNat (r.count n.toNat - 1) }
      else r.setEngine e { k with parked := some n.toNat }
  | _, _ => r

/-- Serve the sequencer's signal wait, then the engines' in ascending number (R105). -/
def Run.serve (r : Run) : Run :=
  let r1 := match r.seq with
    | .signal k => if 0 < r.count k then { r with signals := mset r.signals k (r.count k - 1), seq := .none, seqTaken := true } else r
    | _ => r
  (List.range 9).foldl (fun r e => if e = 0 then r else r.readyEngine e) r1

/-- Dispatch in list order until an operation of the sequencer or a full queue (R101); fuel bounds the dispatches. -/
def Run.dispatch (ops : List Op) : Nat → Run → Run
  | 0, r => r
  | n + 1, r =>
    match r.seq, ops[r.pc]? with
    | .none, some o =>
      let e := o.engine.toNat
      if e = 0 then
        (if r.seqTaken then r else match o.wait with
         | none => { r with seqTaken := true }
         | some k => if 0 < r.count k.toNat then { r with signals := mset r.signals k.toNat (r.count k.toNat - 1), seqTaken := true }
                     else { r with seq := .signal k.toNat })
      else if (r.engine e).queue.length < 16 then
        Run.dispatch ops n (({ (r.setEngine e { r.engine e with queue := (r.engine e).queue ++ [{ index := r.pc, op := o, loops := r.loops }] }) with pc := r.pc + 1 } : Run).readyEngine e)
      else r
    | _, _ => r

/-- Bring a run to rest: waits, dispatch, waits. -/
def Run.settle (ops : List Op) (r : Run) : Run := Run.dispatch ops 160 r.serve

/-- Whether the sequencer cannot go on for want of a signal or of an engine (R107). -/
def Run.seqBlocked (ops : List Op) (r : Run) : Bool :=
  match r.seq with
  | .signal _ => true
  | .barrier _ => false
  | _ => match ops[r.pc]? with
    | some o =>
      if o.engine = 0 then (o.op = 1 || o.op = 4 || o.op = 5) && !r.drained else 16 ≤ (r.engine o.engine.toNat).queue.length
    | none => true

/-- The deadlock of R107. -/
def Run.stuck (ops : List Op) (r : Run) : Bool :=
  r.engines.all (fun k => k.cur.isNone && (k.queue.isEmpty || k.parked.isSome)) && r.seqBlocked ops &&
  (r.engines.any (fun k => k.parked.isSome) || (match r.seq with
    | .signal _ => true
    | _ => false))

/-- The cores of a partition that hold a move slot. -/
def State.slotHolders (s : State) (p : Part) : Nat := ((s.partCores p).filter (fun c => (s.core c).slot)).length

/-- Whether a program has a move operation ready to start (R93, R94). -/
def Run.moveReady (r : Run) : Bool := !r.compute && r.engines.zipIdx.any (fun p => p.1.go && p.2 != 0 && !computeEngine p.2)

/-- Once a switch is requested, no further operation of the phase starts: a ready move operation that still has no slot waits for the next move phase (R92). -/
def Run.revoke (r : Run) (mayMove : Bool) : Run :=
  if !mayMove && !r.compute && r.wantsSwitch then { r with engines := r.engines.map (fun k => { k with go := false }) } else r

/-- Settle a core after a change: dispatch, waits, deadlock. -/
def State.settle (s : State) (c : Nat) : State :=
  match (s.core c).run with
  | some r =>
    let ops := ((s.launch? r.launch).map (·.ops)).getD []
    let r1 := (r.settle ops).revoke (s.mayMove c)
    let dead := r1.stuck ops && !r1.deadlock
    let s1 := (s.modCore c (fun k => { k with run := some { r1 with deadlock := r1.deadlock || dead } }))
    if dead then s1.event .deadlock r.part (coreUnit c) else s1
  | none => s

/-- Post a signal of a core (R105). -/
def State.post (s : State) (c : Nat) (sig : Option (BitVec 6)) : State :=
  match sig, (s.core c).run with
  | some k, some r =>
    let n := r.count k.toNat
    if n < 0xFFFF then s.modRun c (fun r => { r with signals := mset r.signals k.toNat (n + 1) })
    else
      let s1 := (s.count .coreSigsat c 0 0 32).setField .coreSigsat c 0 32 6 k.toNat
      let s2 := s1.flag .coreStat c 0 4
      s2.modRun c (fun r => { r with saturated := some (r.saturated.getD k.toNat) })
  | _, _ => s

/-! ### Starting and ending programs -/

/-- Give a core's store to a context: what another context left there is kept for it, and its own comes back (R89). -/
def Core.own (k : Core) (x : Nat) : Core :=
  if k.storeCtx = some x then k else
  let kept := match k.storeCtx with
    | some y => k.saved ++ [({ ctx := y, logical := 0, store := k.store, run := none } : Saved)]
    | none => k.saved
  let mine := kept.reverse.find? (fun v => v.ctx == x)
  { k with store := (mine.map (·.store)).getD {}, storeCtx := some x, saved := kept.filter (fun v => !(v.ctx == x && v.run.isNone)) }

/-- Clear the banks and staging tags of a core's arrays (R132). -/
def Array.clear (a : Array) : Array := { a with banks := ({}, {}), tagA := none, tagB := none, drainOut := [] }
def Core.clearArrays (k : Core) : Core := { k with arrays := k.arrays.map Array.clear }

/-- Whether a command may take a core now (R54, R151): no program or other command there, no array remap pending. -/
def Core.free (k : Core) : Bool :=
  k.run.isNone && k.user.isNone &&
  k.arrays.all (fun a => a.nextRow == a.retRow && a.nextCol == a.retCol)

/-- The physical cores of a ticket, none where a position has no core. -/
def State.physCores (s : State) (cores : List Nat) : Option (List Nat) :=
  cores.foldr (fun q acc => match s.posCore q, acc with
    | some c, some l => some (c :: l)
    | _, _ => none) (some [])

/-- Whether a program's commands are stopped until QUEUE_START (R78). -/
def State.stoppedLaunch (s : State) (n : Nat) : Bool :=
  (s.launcher n).isNone || (s.launchCmds n).any (fun u => ((s.cmd? u).map (·.halt)).getD true)

def State.stoppedRun (s : State) (v : Saved) : Bool := (v.run.map (fun r => s.stoppedLaunch r.launch)).getD true

/-- Whether a context may take a core now: it is free, and no program of the context is saved there but one that waits for QUEUE_START (R78). -/
def State.coreFree (s : State) (x c : Nat) : Bool :=
  (s.core c).free && !(s.core c).saved.any (fun v => v.ctx == x && v.run.isSome && !s.stoppedRun v)

/-- The physical cores of a ticket when all of them are free for its context. -/
def State.freeCores (s : State) (x : Nat) (cores : List Nat) : Option (List Nat) :=
  match s.physCores cores with
  | some l => if l.all (s.coreFree x) then some l else none
  | none => none

/-- Launch a program on the free cores of a ticket: the argument bytes at 0 and the two words of R89 at 0x1000, then a move phase (R93). -/
def State.startLaunch (s : State) (by_ : Launcher) (t : Ticket) (part : Nat) (ops : List Op) (phys : List Nat) (args : List Byte) (chill : Bool) (step : Nat) : State :=
  let id := s.cores.nextLaunch
  let l : Launch := { id := id, by_ := by_, ctx := t.ctx, part := part, ops := ops, barIds := t.barIds, csBytes := t.decl.csBytes,
                      dense := t.decl.dense, sparse := t.decl.sparse, cores := t.cores, chill := chill, step := step }
  let s1 : State := { s with cores := { s.cores with launches := s.cores.launches ++ [l], nextLaunch := id + 1 } }
  phys.zipIdx.foldl (fun st p =>
    let st1 := st.modCore p.1 (fun k =>
      let k1 := k.own t.ctx
      { k1 with store := (k1.store.write 0 args).write 0x1000 (toLe 4 p.2 ++ toLe 4 phys.length),
                run := some { launch := id, ctx := t.ctx, part := part, logical := p.2, engines := List.replicate 9 {} } })
    (st1.wake p.1 chill).settle p.1) s1

/-! ### Fill batches (R82 to R85, R573) -/

/-- The batch table of R573. -/
def batchTable (b : Batch) : List Byte :=
  toLe 2 b.reqs.length ++ toLe 2 (sumOf (·.rows) b.reqs) ++ toLe 4 0 ++
  (b.reqs.foldl (fun (st : Nat × List Byte) q =>
    (st.1 + q.rows, st.2 ++ toLe 2 q.rows ++ toLe 2 st.1 ++ toLe 4 0 ++ toLe 8 q.inAddr ++ toLe 8 q.outAddr)) (0, [])).2

/-- Start an issued batch whose cores are free; one whose every request has ended meanwhile goes. Its program carries the STEP of its first request still running and runs in Chill mode if any of them does: the spec does not say what a batch of differing requests takes (DESIGN CHOICE, log entry 88). -/
def State.startBatch (s : State) (k : FillGroup) (b : Batch) : State :=
  match s.slot? k.part k.slot with
  | some { live := some t, .. } =>
    (match b.reqs.findSome? (fun q => s.cmd? q.uid), s.freeCores t.ctx t.cores with
     | none, _ => s.endBatch k.part k.group b.id ok
     | some c, some phys =>
       let chill := b.reqs.any (fun q => ((s.cmd? q.uid).map (·.chill)).getD false)
       (match (if k.args = 0 then (.ok [] : Except Stop (List Byte)) else s.input c (bit k.args 0) (k.args / 64 * 64) k.argsBytes) with
        | .ok args =>
          let id := s.cores.nextLaunch
          (((s.sawImage c k.args k.argsBytes).startLaunch (.batch k.part k.group b.id) t k.part k.ops phys (args ++ batchTable b) chill c.step)).modFill k.part k.group
            (fun k => { k with issued := upd k.issued (·.id == b.id) (fun b => { b with launch := some id }) })
        | .error (.done r) => s.endBatch k.part k.group b.id r
        | .error (.park l p g) => s.modLink l (fun j =>
            if j.atsReqs.contains (p, g) ∨ j.pageReqs.contains (p, g) then j else { j with atsReqs := j.atsReqs ++ [(p, g)] })
        | .error .held => s)
     | some _, none => s)
  | _ => s

/-- Start every issued batch that can start, in order. -/
def State.pumpFills (s : State) : State :=
  s.cores.fills.foldl (fun st k => (k.issued.filter (·.launch.isNone)).foldl (fun st b => st.startBatch k b) st) s

/-- Issue the open batch of a group for a reason's counter field (R82). -/
def State.issueBatch (s : State) (p g lo w : Nat) : State :=
  match s.fill? p g with
  | some { openBatch := some b, .. } =>
    if b.reqs.isEmpty then s else
    ((s.modFill p g (fun k => { k with openBatch := none, issued := k.issued ++ [b] })).count .cmdFillStat p 0 lo w).pumpFills
  | _ => s

/-! ### Ends of launches -/

/-- Poison that a program consumed (R150, R177, R473): the first found stands. -/
def State.taintLaunch (s : State) (n block unit : Nat) : State :=
  s.modLaunch n (fun l => if l.poison.isSome then l else { l with poison := some (block, unit) })

/-- The reply of a program that ran to its end (R100, R106). -/
def Launch.outcome (l : Launch) (yields : Nat) : Reply :=
  match l.poison with
  | some (b, u) => { (errPoison b u : Reply) with progress := yields }
  | none => match l.sat with
    | some (_, sig, core) => { (errSaturated sig core : Reply) with progress := yields }
    | none => okProgress yields

/-! ### Context switches (R109, R77) -/

/-- The plan that a launch is an entry of: it holds the cores that the program runs on (R197). -/
def State.planOf (s : State) (launch : Nat) : Option Nat := match s.launcher launch with
  | some (.entry u _) => some u
  | _ => none

/-- Save the program of a core: sequencer state, loop registers and the first CS_BYTES of the store; signals, banks and staging are cleared. -/
def State.switchOut (s : State) (c : Nat) : State :=
  match (s.core c).run with
  | none => s
  | some r =>
    let cs := ((s.launch? r.launch).map (·.csBytes)).getD 0
    let plan := s.planOf r.launch
    (s.modCore c (fun k => { k.clearArrays.leave with
      saved := k.saved ++ [({
        ctx := r.ctx, logical := r.logical, store := k.store.clear cs (storeBytes - cs),
        run := some { r with signals := [], compute := false, deadlock := false, engines := List.replicate 9 {} } } : Saved)],
      store := {}, storeCtx := none, switchPending := false, slot := false, user := if k.user = plan then none else k.user })).modPart r.part (fun p => { p with slotWait := p.slotWait.filter (· != c) })

/-- Resume a saved program on a core that is free: it goes on after its YIELD in a move phase, signals at 0 (R93, R109). -/
def State.switchIn (s : State) (c : Nat) (v : Saved) : State :=
  match v.run with
  | none => s
  | some r =>
    let s1 := s.modCore c (fun k =>
      let k0 := match k.storeCtx with
        | some y => if y = v.ctx then k else { k with saved := k.saved ++ [({ ctx := y, logical := 0, store := k.store, run := none } : Saved)] }
        | none => k
      { k0 with
        store := v.store, storeCtx := some v.ctx, run := some r, user := s.planOf r.launch,
        saved := k0.saved.filter (fun w => !(w.ctx == v.ctx && (w.run.map (·.launch)) == some r.launch)) })
    (s1.wake c (((s1.launch? r.launch).map (·.chill)).getD false)).settle c

/-- Whether a saved program's partition still has the position of its core (R494). -/
def State.holdsCore (s : State) (v : Saved) (c : Nat) : Bool :=
  ((v.run.bind (fun r => s.part? r.part)).map (fun p => p.positions.any (fun q => s.posCore q == some c))).getD true

/-- Resume a saved program on an idle core: the longest saved whose context is not stopped. -/
def State.resumeCore (s : State) (c : Nat) : State :=
  if (s.core c).run.isSome ∨ (s.core c).user.isSome ∨ (s.unit (coreUnit c)).state ≠ .active then s else
  match (s.core c).saved.find? (fun v => v.run.isSome && !s.stoppedRun v && s.holdsCore v c) with
  | some v => s.switchIn c v
  | none => s

/-- Whether a command of another context waits for a core's position. -/
def State.coreWanted (s : State) (c x : Nat) : Bool :=
  (s.queues.flatMap (·.running)).any (fun k => k.work == .held && [0x302, 0x304, 0x401, 0x402, 0x602, 0x603].contains k.opcode && k.ctx != x &&
    (match (s.slot? k.part (bits k.ticket 11 0)).bind (·.live) with
     | some t => t.cores.any (fun q => s.posCore q == some c)
     | none => false))

/-- Whether a switch of a core waits for the sake of another context's work (time-sharing, R109, log entry 13). -/
def State.contended (s : State) (c : Nat) : Bool :=
  match (s.core c).run with
  | none => false
  | some r =>
    s.launchPreemptible r.launch && (s.coreWanted c r.ctx || (s.core c).saved.any (fun v => v.run.isSome && v.ctx != r.ctx && !s.stoppedRun v))

/-! ### The sequencer's rows -/

/-- Whether a core that runs Chill work is held for a request in replay (R377). -/
def State.coreHeld (s : State) (c : Nat) : Bool := s.coreChill c && ((s.coreCtx c).map s.retryHeld).getD false

/-- The sequencer operation that may take effect on a core: the one at PC, with this code, its wait consumed, the core not held. -/
def State.seqOp (s : State) (c op : Nat) : Option (Run × Op) :=
  if s.coreHeld c then none else
  match (s.core c).run with
  | some r =>
    (match r.seq, (((s.launch? r.launch).map (·.ops)).getD [])[r.pc]? with
     | .none, some o => if o.engine = 0 ∧ o.op.toNat = op ∧ r.seqTaken then some (r, o) else none
     | _, _ => none)
  | none => none

/-- The sequencer goes on at an operation after one took effect: its signal is posted. -/
def State.seqNext (s : State) (c pc : Nat) (post : Option (BitVec 6)) : State :=
  ((s.modRun c (fun r => { r with pc := pc, seqTaken := false, seq := .none })).post c post).settle c

/-- SEQ_NOP (R98). -/
def execSeqNop (c : Fin 40) (s : State) : Host.Outcome State Fault Refusal :=
  s.run (fun s => match s.seqOp c 0 with
    | some (r, o) => s.seqNext c (r.pc + 1) o.post
    | none => s)

/-- LOOP_BEGIN: the register's iteration is set to 0 (R98). -/
def execLoopBegin (c : Fin 40) (s : State) : Host.Outcome State Fault Refusal :=
  s.run (fun s => match s.seqOp c 2 with
    | some (r, o) => (s.modRun c (fun r => { r with loops := setAt r.loops (o.desc.toNat % 4) 0 })).seqNext c (r.pc + 1) o.post
    | none => s)

/-- LOOP_END: the iteration rises; below the count the program goes on after LOOP_BEGIN (R98). -/
def execLoopEnd (c : Fin 40) (s : State) : Host.Outcome State Fault Refusal :=
  s.run (fun s => match s.seqOp c 3 with
    | some (r, o) =>
      let begin_ := o.imm.toNat % 2 ^ 16
      let n := match (((s.launch? r.launch).map (·.ops)).getD [])[begin_]? with
        | some b => b.imm.toNat % 2 ^ 32
        | none => 0
      let it := ((r.loops[o.desc.toNat % 4]?).getD 0) + 1
      (s.modRun c (fun r => { r with loops := setAt r.loops (o.desc.toNat % 4) it })).seqNext c (if it < n then begin_ + 1 else r.pc + 1) o.post
    | none => s)

/-- Settle the arrays and signals of a YIELD (R108, R132). -/
def State.yieldClear (s : State) (c : Nat) : State :=
  let dirty := ((s.core c).run.map (fun r => r.signals.any (fun p => p.2 != 0))).getD false
  let s1 := if dirty then s.count .coreSigsat c 0 48 16 else s
  s1.modCore c (fun k => { k.clearArrays with run := k.run.map (fun r => { r with signals := [], yields := r.yields + 1 }) })

/-- A program past its YIELD, with the signal that YIELD posts set (R98, R104). -/
def Run.pastYield (r : Run) (post : Option (BitVec 6)) : Run :=
  match post with
  | some k => { r with pc := r.pc + 1, seqTaken := false, signals := mset r.signals k.toNat 1 }
  | none => { r with pc := r.pc + 1, seqTaken := false }

/-- The PROGRESS of a launch's command counts the YIELDs that its cores have completed. -/
def State.yieldProgress (s : State) (launch : Nat) : State :=
  match s.launch? launch with
  | some l => match l.by_ with
    | .cmd u => s.modCmd u (fun k => { k with progress := s.launchYields launch })
    | .batch _ _ _ => (s.launchCmds launch).foldl (fun st u => st.modCmd u (fun k => { k with progress := s.launchYields launch })) s
    | .entry _ _ => s
  | none => s

/-- The command of a launch whose timeout came while a LADLE operation ran: it ends at the yield point that follows (R260). -/
def State.lapsedCmd (s : State) (launch : Nat) : Option Nat :=
  (s.launchCmds launch).find? (fun u => ((s.cmd? u).map (fun k => k.lapsed && k.reply.isNone)).getD false && !s.inLadle u)

/-- YIELD: clear signals, banks and tags; a timeout that waited for it ends the command (R260); else switch when a switch is pending or another context waits (R108, R109). -/
def execYield (c : Fin 40) (s : State) : Host.Outcome State Fault Refusal :=
  s.run (fun s => match s.seqOp c 4 with
    | some (r, o) =>
      if !r.drained then s else
      let s1 := s.yieldClear c
      let s3 := (s1.modRun c (fun r => r.pastYield o.post)).yieldProgress r.launch
      match s3.lapsedCmd r.launch with
      | some uid => (s3.failAt uid errTimeout).resumeCore c
      | none =>
      let u := s3.unit (coreUnit c)
      let may := s3.launchPreemptible r.launch
      let leaving := (u.state = .retiring ∨ u.state = .quarantined) ∧ !u.drained ∧ may
      if leaving ∧ u.replacement.isSome then (s3.coreDrained c).settle ((u.replacement.getD 0) % 64) else
      if !((s3.core c).switchPending && may) ∧ !s3.contended c then s3.settle c else
      let s4 := (s3.switchOut c).coreDrained c
      -- the YIELD's own post is made when the program resumes
      let s5 := s4.modCore c (fun k => { k with saved := k.saved.map (fun v => if (v.run.map (fun q => q.launch == r.launch)).getD false then
        { v with run := v.run.map (fun q => match o.post with
          | some k => { q with signals := mset [] k.toNat 1 }
          | none => q) } else v) })
      let s6 := s5.settleStops
      if s6.coreWanted c r.ctx then s6 else s6.resumeCore c
    | none => s)

/-- A launch with its program ended on a core; of the cores that saturated, the one with the lowest logical number is kept. -/
def Launch.endedOn (l : Launch) (r : Run) (c : Nat) : Launch :=
  { l with
    ended := l.ended ++ [r.logical],
    sat := match r.saturated, l.sat with
      | some k, some (g, k', d) => if r.logical < g then some (r.logical, k, c) else some (g, k', d)
      | some k, none => some (r.logical, k, c)
      | none, o => o }

/-- END: the program ends on this core; with the last core its command has its outcome (R98, R100, R106, R132). -/
def execEndProg (c : Fin 40) (s : State) : Host.Outcome State Fault Refusal :=
  s.run (fun s => match s.seqOp c 1 with
    | some (r, _) =>
      if !r.drained then s else
      let s1 := ((s.modCore c (fun k => { k.clearArrays.leave with switchPending := false, slot := false })).coreDrained c).modPart r.part (fun p => { p with slotWait := p.slotWait.filter (· != c.val) })
      let s2 := s1.modLaunch r.launch (fun l => l.endedOn r c)
      let s3 := match s2.launch? r.launch with
        | some l =>
          if l.cores.length ≤ l.ended.length then
            (match s2.lapsedCmd l.id, l.by_ with
             | some u, _ => s2.failAt u errTimeout
             | none, .cmd u => (s2.reply u (l.outcome r.yields)).endLaunch l.id
             | none, .batch p g b => (s2.endLaunch l.id).endBatch p g b (l.outcome r.yields)
             | none, .entry _ _ => s2.modLaunch l.id (fun l => { l with reply := some (l.outcome r.yields) }))
          else s2
        | none => s2
      (s3.resumeCore c).pumpFills
    | none => s)

/-! ### Phases and slots -/

/-- PHASE_SWITCH: the phase ends once every operation of it has completed and a switch is requested; ready operations of the new phase start there (R91, R92). -/
def execPhaseSwitch (c : Fin 40) (s : State) : Host.Outcome State Fault Refusal :=
  s.run (fun s => match (s.core c).run with
    | some r =>
      if r.wantsSwitch ∧ r.engines.all (fun k => k.cur.isNone && !k.go) then
        (s.modCore c (fun k => { k with slot := false })).modRun c (fun r => { r with
          compute := !r.compute,
          engines := r.engines.zipIdx.map (fun p => if p.2 ≠ 0 ∧ computeEngine p.2 ≠ r.compute ∧ p.1.taken then { p.1 with go := true } else p.1) })
      else s
    | none => s)

/-- The operation that may start on an engine now: ready in its phase, and a move operation only with a slot where slots are limited. -/
def State.startable (s : State) (c e : Nat) : Option (Run × Queued) :=
  if s.coreHeld c then none else
  match (s.core c).run with
  | some r =>
    let k := r.engine e
    (match k.cur, k.queue with
     | none, q :: _ => if k.go ∧ (computeEngine e ∨ s.mayMove c) then some (r, q) else none
     | _, _ => none)
  | none => none

/-- An engine starts the operation at its head; a sequencer that waited for room goes on. A started operation leaves its engine's queue of 16, which the spec does not say (DESIGN CHOICE, log entry 88). -/
def State.begin (s : State) (c e : Nat) (q : Queued) : State :=
  (s.modRun c (fun r => r.setEngine e { r.engine e with queue := (r.engine e).queue.tail, cur := some q, taken := false, go := false, parked := none, streaming := false })).settle c

/-- Whether the started operation of an engine has completed (R103, R131): nothing awaited, and an array's rows taken by the vector engine. -/
def State.opDone (s : State) (c e : Nat) : Bool :=
  match (s.core c).run with
  | some r =>
    let k := r.engine e
    k.cur.isSome && !k.streaming && (e != 5 || r.vec.isNone) &&
    (!(1 ≤ e && e ≤ 4) || (((s.core c).arrays[e - 1]?).map (fun a => a.drainOut.isEmpty)).getD true)
  | none => false

/-- OPERATION_COMPLETE: an engine's operation completes and posts; parked engines wake; the sequencer goes on (R103 to R105, R107). -/
def execOperationComplete (c : Fin 40) (e : Fin 9) (s : State) : Host.Outcome State Fault Refusal :=
  s.run (fun s =>
    if e.val = 0 ∨ !s.opDone c e then s else
    match ((s.core c).run.map (fun r => r.engine e)).bind (·.cur) with
    | some q =>
      let s1 := s.modRun c (fun r => r.setEngine e { r.engine e with cur := none })
      let s2 := if 1 ≤ e.val ∧ e.val ≤ 4 then s1.count .arrOps c (e - 1) 0 32 else if e.val = 5 then s1.count .vecOps c 0 0 32 else s1
      (s2.post c q.op.post).settle c
    | none => s)

/-! ### Launching -/

/-- The ARGS and ARGS_BYTES fields at two packet offsets (R99, R574). -/
def argsField (c : Running) (off offBytes cap : Nat) : Except Stop Unit := do
  need (bits (c.u off 8) 5 1 == 0) (errFormat off)
  need (decide (c.u offBytes 2 ≤ cap) && c.u offBytes 2 % 64 == 0 && (c.u off 8 != 0 || c.u offBytes 2 == 0)) (errFormat offBytes)

/-- PROG_LAUNCH (R89, R100). -/
def bodyProgLaunch : Body := fun c s => do
  let fields : Except Stop Unit := do
    argsField c 40 48 4096
    reserved c 50 14
  let (_, t) ← s.judgeTicket c .prog fields
  fields
  match t.payload with
  | .prog ops =>
    let args ← s.input c (bit (c.u 40 8) 0) (c.u 40 8 / 64 * 64) (c.u 48 2)
    match s.freeCores t.ctx t.cores with
    | none => .error .held
    | some phys => .ok (((s.sawImage c (c.u 40 8) (c.u 48 2)).startLaunch (.cmd c.uid) t c.part ops phys args c.chill c.step).modCmd c.uid (fun k => { k with work := .launch s.cores.nextLaunch }), none)
  | _ => fail (errFormat 32)

/-- FILL_GROUP_CREATE (R574). -/
def bodyFillGroupCreate : Body := fun c s => do
  plenIs c 80
  noTicket c
  let g := c.u 40 2
  need (decide (g < 64) && (s.fill? c.part g).isNone) (errFormat 40)
  need (decide (1 ≤ c.u 42 1 ∧ c.u 42 1 ≤ 64)) (errFormat 42)
  reserved c 43 1
  argsField c 48 56 2048
  reserved c 58 6
  declFormat c 64 64
  imageFormat c 128 136
  reserved c 140 4
  let ops ← s.progImage c (declAt c 64) 128 136
  let a ← s.admission c 64
  let (s1, t) := (s.sawImage c (c.u 128 8) (c.u 136 4)).issue c a (.fill g)
  let k : FillGroup := { part := c.part, group := g, slot := a.slot, maxRows := c.u 42 1, deadline := c.u 44 4, args := c.u 48 8, argsBytes := c.u 56 2, ops := ops }
  .ok ({ s1 with cores := { s1.cores with fills := s1.cores.fills ++ [k] } }, some (okProgress t))

/-- The fill group a command names with its ticket, its further fields checked; one that is being destroyed takes no more, a second FILL_GROUP_DESTROY among them, of which the spec says nothing (R574, R575; DESIGN CHOICE, log entry 88). -/
def State.fillArg (s : State) (c : Running) (fields : Nat → Except Stop Unit) : Except Stop FillGroup := do
  let (n, t) ← s.judgeTicket c .fill (fields 64)
  need (t.payload == .fill (c.u 40 2)) (errFormat 40)
  match s.fill? c.part (c.u 40 2) with
  | none => fail (errFormat 40)
  | some k =>
    fields k.maxRows
    need (!k.destroying) (errConflict 1 n)
    .ok k

/-- Add a request to its group's open batch (R82, R84). -/
def State.joinBatch (s : State) (k : FillGroup) (q : FillReq) (chill : Bool) : State :=
  let have_ := (k.openBatch.map (fun b => sumOf (·.rows) b.reqs)).getD 0
  let s1 := if k.openBatch.isSome ∧ k.maxRows < have_ + q.rows then s.issueBatch k.part k.group 0 24 else s
  let s2 := s1.modFill k.part k.group (fun g => match g.openBatch with
    | some b => { g with openBatch := some { b with reqs := b.reqs ++ [q], noDeadline := b.noDeadline || chill } }
    | none => { g with openBatch := some { id := s1.cores.nextBatch, reqs := [q], openedAt := s1.now, noDeadline := chill } })
  let s3 : State := { s2 with cores := { s2.cores with nextBatch := s2.cores.nextBatch + 1 } }
  match (s3.fill? k.part k.group).bind (·.openBatch) with
  | some b => if k.maxRows ≤ sumOf (·.rows) b.reqs then s3.issueBatch k.part k.group 0 24 else s3
  | none => s3

/-- FILL_SUBMIT (R82). -/
def bodyFillSubmit : Body := fun c s => do
  let k ← s.fillArg c (fun rows => do
    need (decide (1 ≤ c.u 42 1 ∧ c.u 42 1 ≤ rows)) (errFormat 42)
    reserved c 43 5
    need (bits (c.u 48 8) 5 1 == 0) (errFormat 48)
    need (bits (c.u 56 8) 5 1 == 0) (errFormat 56))
  let s1 := s.modCmd c.uid (fun r => { r with work := .fill k.part k.group })
  .ok (s1.joinBatch k { uid := c.uid, rows := c.u 42 1, inAddr := c.u 48 8, outAddr := c.u 56 8 } c.chill, none)

/-- FILL_FLUSH (R82). -/
def bodyFillFlush : Body := fun c s => do
  let k ← s.fillArg c (fun _ => reserved c 42 22)
  .ok (s.issueBatch k.part k.group 48 16, some ok)

/-- FILL_GROUP_DESTROY (R575). -/
def bodyFillGroupDestroy : Body := fun c s => do
  let k ← s.fillArg c (fun _ => reserved c 42 22)
  let waiting := (k.openBatch.map (·.reqs)).getD []
  let s1 := waiting.foldl (fun st q => st.reply q.uid errAborted) s
  let s2 := s1.modFill k.part k.group (fun k => { k with openBatch := none, destroying := true })
  if k.issued.isEmpty then .ok (s2.release k.part k.slot, some ok)
  else .ok (s2.modCmd c.uid (fun r => { r with work := .groupDrain k.part k.group }), none)

/-- A group's deadline is evaluated: its open batch issues if that batch's own deadline stands and has come (R82 to R85). -/
def State.fillExpired (s : State) (p g : Nat) : State :=
  match s.fill? p g with
    | some k => match k.openBatch with
      | some b => if k.deadline = 0 ∨ b.noDeadline ∨ s.now < b.openedAt + k.deadline then s else s.issueBatch p g 24 24
      | none => s
    | none => s

/-- FILL_DEADLINE_EXPIRY, evaluated at the end of its tick (R80, R83). -/
def execFillDeadlineExpiry (p : Fin 32) (g : Fin 64) (s : State) : Host.Outcome State Fault Refusal := s.run (fun s => s.expire (.fill p g))

def execProgLaunch := opcodeStep 0x0302 false false bodyProgLaunch
def execFillGroupCreate := opcodeStep 0x0310 false false bodyFillGroupCreate
def execFillSubmit := opcodeStep 0x0311 false false bodyFillSubmit
def execFillFlush := opcodeStep 0x0312 false false bodyFillFlush
def execFillGroupDestroy := opcodeStep 0x0313 false false bodyFillGroupDestroy

end Sys2Proof.Machine
end

