-- ==== Sys2Proof/Machine/Tile.lean ====
section
/-! DEFINITION. The matrix arrays: TILE, CONV and DRAIN (R121 to R151, R576). -/

namespace Sys2Proof.Machine
open Sys2Proof

/-! ### Descriptors of core-program operations -/

/-- The descriptor of an operation; poison in it ends the program with its engine's DETAIL (R571). -/
def State.opDesc (s : State) (c : Nat) (q : Queued) (n detail : Nat) : Except Reply (List Byte) :=
  let k := s.core c
  let off := q.op.desc.toNat
  if storeBytes < off + n then .error (errFormat 0)
  else if k.store.bad off n then .error (errPoison detail (k.bankUnit (k.store.firstBad off n)))
  else .ok (k.store.read off n)

/-- Whether an operation's descriptor itself reaches beyond the core store: refused at its first byte (R128, R160, R183). -/
def Queued.descBeyond (q : Queued) (n : Nat) : Bool := decide (storeBytes < q.op.desc.toNat + n)

/-- Poison that an operation of a core consumed. -/
def State.taintCore (s : State) (c block unit : Nat) : State :=
  match (s.core c).run, (s.core c).user with
  | some run, _ => s.taintLaunch run.launch block unit
  | none, some u => s.taint u block unit
  | none, none => s

/-! ### The tile descriptor (R123) -/

/-- A signed field. -/
def sfld (d : List Byte) (off n : Nat) : Int := sgn (8 * n) (fld d off n)

/-- A tile descriptor with its bindings applied (R124). -/
structure TileDesc where
  conv : Bool
  a : Int
  aStride : Nat
  b : Int
  bStride : Nat
  d : Int
  dStride : Nat
  k : Nat
  m : Nat
  n : Nat
  fa : Nat
  fb : Nat
  init : Nat
  drain : Nat
  aHold : Bool
  bHold : Bool
  sa : Int
  sb : Int
  c : Int
  outStart : Int
  ext : List Byte
  deriving DecidableEq, Repr

def tileDesc (conv : Bool) (d : List Byte) (loops : List Nat) : TileDesc :=
  let loop := fld d 44 2
  let ra := bits loop 2 0
  let rb := bits loop 5 3
  let rd := bits loop 8 6
  let acc := fld d 31 1
  { conv := conv, a := if conv then fld d 0 4 else bound loops ra (fld d 0 4) (sfld d 48 4), aStride := fld d 4 4,
    b := bound loops rb (fld d 8 4) (sfld d 52 4), bStride := fld d 12 4,
    d := bound loops rd (fld d 16 4) (sfld d 56 4), dStride := fld d 20 4,
    k := bits (fld d 24 4) 23 0, m := fld d 28 1, n := fld d 29 1, fa := bits (fld d 30 1) 3 0, fb := bits (fld d 30 1) 7 4,
    init := bits acc 1 0, drain := bits acc 3 2, aHold := bit acc 4, bHold := bit acc 5,
    sa := bound loops ra (fld d 32 4) (sfld d 60 2), sb := bound loops rb (fld d 36 4) (sfld d 62 2),
    c := bound loops rd (fld d 40 4) (sfld d 56 4),
    outStart := bound loops ra (fld d 68 4) (sfld d 48 4), ext := d.drop 64 }

/-- MACs per cell per cycle of a format pair, none where R126 does not form it; FP32 counts one a pass. -/
def pairRate (fa fb : Nat) : Option Nat :=
  if fa ≤ 1 ∧ fb ≤ 1 then some 2
  else if fa = 2 ∧ fb = 2 then some 2
  else if fa = fb ∧ 3 ≤ fa ∧ fa ≤ 5 then some 1
  else if isMx fa ∧ isMx fb then some (if fa = 0xA ∧ fb = 0xA then 4 else 2)
  else none

/-- The bytes of n elements of a format from an element boundary. -/
def rowBytes (fmt n : Nat) : Nat := (n * es2 fmt + 1) / 2

/-- The alignment an address of a format needs (R128). -/
def alignOf (fmt : Nat) : Nat := if fmt = 5 ∨ fmt = 0xB then 4 else if fmt = 3 ∨ fmt = 4 then 2 else 1

/-- Bad offsets of misaligned rows: the address field, or the stride field where only a later row is misaligned (R128, DEDUCED, log entry 19). -/
def alignErrors (baseOff strideOff : Nat) (base : Int) (rows stride al : Nat) : List Nat :=
  if base % (al : Int) ≠ 0 then [baseOff] else if 1 < rows ∧ stride % al ≠ 0 then [strideOff] else []

/-- Bad offsets of rows of bytes that leave the core store (R128, DEDUCED, log entry 19). -/
def spanErrors (baseOff : Nat) (base : Int) (rows stride width : Nat) : List Nat :=
  if base < 0 ∨ (storeBytes : Int) < base + ((rows - 1) * stride : Nat) + width then [baseOff] else []

/-- A dimension of the convolution extension (R147). -/
structure ConvDim where
  inExt : Nat
  outExt : Nat
  ks : Nat
  stride : Nat
  dil : Nat
  pad : Nat
  inStride : Int
  deriving DecidableEq, Repr

/-- The three dimensions of an extension (bytes from 64 on); those at or above DIMS act as 1 (R147). -/
def convDims (x : List Byte) : List ConvDim :=
  (List.range 3).map (fun i =>
    if i < bits (fld x 0 1) 1 0 then
      { inExt := fld x (8 + 16 * i) 4, outExt := fld x (12 + 16 * i) 4, ks := fld x (16 + 16 * i) 1, stride := fld x (17 + 16 * i) 1,
        dil := fld x (18 + 16 * i) 1, pad := fld x (19 + 16 * i) 1, inStride := sfld x (20 + 16 * i) 4 }
    else { inExt := 1, outExt := 1, ks := 1, stride := 1, dil := 1, pad := 0, inStride := 0 })

def convCg (x : List Byte) : Nat := fld x 2 2

/-- Bad offsets of the extension; K is held against an extension whose fields are in range (R147, R149, DEDUCED, log entry 19). -/
def convErrors (x : List Byte) (fa k : Nat) : List Nat :=
  let n := bits (fld x 0 1) 1 0
  let dims := convDims x
  let taps := dims.foldl (fun t d => t * d.ks) (1 : Nat)
  let bad : List Nat := (if n = 0 ∨ bits (fld x 0 1) 7 2 ≠ 0 then [64] else []) ++ (if fld x 1 1 ≠ 0 then [65] else []) ++
    (if convCg x = 0 ∨ (isMx fa ∧ convCg x % 32 ≠ 0) then [66] else []) ++
    ((List.range n).flatMap (fun i =>
      (if fld x (8 + 16 * i) 4 = 0 then [72 + 16 * i] else []) ++ (if fld x (12 + 16 * i) 4 = 0 then [76 + 16 * i] else []) ++
    (if fld x (16 + 16 * i) 1 = 0 then [80 + 16 * i] else []) ++ (if fld x (17 + 16 * i) 1 = 0 ∨ 8 < fld x (17 + 16 * i) 1 then [81 + 16 * i] else []) ++
    (if fld x (18 + 16 * i) 1 = 0 ∨ 8 < fld x (18 + 16 * i) 1 then [82 + 16 * i] else []))) ++
    ((List.range 8).filter (fun i => fld x (56 + i) 1 ≠ 0)).map (120 + ·)
  if bad.isEmpty ∧ k ≠ taps * convCg x then [24] else bad

/-- The output position of a CONV row, none where the row lies beyond the output extent (R148). -/
def convRow (t : TileDesc) (m : Nat) : Option (List Nat) :=
  let q := t.outStart + m
  let dims := convDims t.ext
  let total := dims.foldl (fun p d => p * d.outExt) (1 : Nat)
  if q < 0 ∨ (total : Int) ≤ q then none else some (digits q.toNat (dims.map (·.outExt)))

/-- The address of a CONV element, none where it is generated as zero (R148). -/
def convAddr (t : TileDesc) (m k : Nat) : Option Int :=
  match convRow t m with
  | none => none
  | some o =>
    let dims := convDims t.ext
    let cg := max 1 (convCg t.ext)
    let tap := digits (k / cg) (dims.map (·.ks))
    let pos := (dims.zip (o.zip tap)).map (fun p => (p.1, ((p.2.1 * p.1.stride : Nat) : Int) - (p.1.pad : Int) + ((p.2.2 * p.1.dil : Nat) : Int)))
    if pos.any (fun p => decide (p.2 < 0 ∨ (p.1.inExt : Int) ≤ p.2)) then none
    else some (pos.foldl (fun (a : Int) (p : ConvDim × Int) => a + p.2 * p.1.inStride) t.a + ((k % cg * es2 t.fa) / 2 : Nat))

/-- Reserved values of a descriptor that DRAIN shares with TILE and CONV. -/
def commonErrors (d : List Byte) : List Nat :=
  (if fld d 28 1 = 0 ∨ 64 < fld d 28 1 then [28] else []) ++ (if fld d 29 1 = 0 ∨ 64 < fld d 29 1 then [29] else []) ++
  (if bits (fld d 44 2) 15 9 ≠ 0 then [44] else [])

/-- The rows an operation drains. -/
def drainRows (t : TileDesc) : List Nat := (List.range t.m).filter (fun m => !t.conv || (convRow t m).isSome)

/-- Bytes of a drained element. -/
def TileDesc.drainW (t : TileDesc) : Nat := if t.drain = 2 then 2 else 4

/-- Bad offsets of the drain that need no shape: BF16 of INT8, and misaligned rows. -/
def drainBad (t : TileDesc) : List Nat :=
  (if t.drain = 2 ∧ t.fa = 2 then [31] else []) ++
  (if t.drain = 1 ∨ t.drain = 2 then alignErrors 16 20 t.d (((drainRows t).getLast?.map (· + 1)).getD 0) t.dStride t.drainW else [])

/-- Bad offsets of the drained bytes: rows below M that are drained. -/
def drainSpan (t : TileDesc) : List Nat :=
  if t.drain = 1 ∨ t.drain = 2 then
    (match drainRows t, (drainRows t).getLast? with
     | r :: _, some l => spanErrors 16 (t.d + (r * t.dStride : Nat)) (l - r + 1) t.dStride (t.n * t.drainW)
     | _, _ => [])
  else []

/-- The first of the bad offsets found field by field, and of those of the bytes that a descriptor with no bad field of its shape reaches (R128, R160, log entry 19). -/
def firstBad (bad shape span : List Nat) : Option Nat := leastOf (bad ++ (if bad.any (fun o => shape.contains o) then [] else span))

/-- The addresses of the A elements that a CONV fetches. -/
def convAddrs (t : TileDesc) : List Int := (List.range t.m).flatMap (fun m => (List.range t.k).filterMap (convAddr t m))

/-- Bad offsets of the fetched A elements of a CONV: a misaligned address lies with the first misaligned IN_STRIDE (R128, R148). -/
def convSpan (t : TileDesc) : List Nat :=
  let al : Int := alignOf t.fa
  (if (convAddrs t).any (fun a => a % al != 0) then ((List.range 3).filter (fun i => sfld t.ext (20 + 16 * i) 4 % al != 0)).map (fun i => 84 + 16 * i) else []) ++
  (if (convAddrs t).any (fun a => decide (a < 0 ∨ (storeBytes : Int) < a + rowBytes t.fa 1)) then [0] else [])

/-- The first bad offset of a TILE or CONV descriptor (R128). -/
def tileErrors (d : List Byte) (t : TileDesc) : Option Nat :=
  let bad := commonErrors d ++
    ([0, 8].filter (fun o => fld d (o + 3) 1 ≠ 0)) ++ (if (t.drain = 1 ∨ t.drain = 2) ∧ fld d 19 1 ≠ 0 then [16] else []) ++
    (if fld d 27 1 ≠ 0 ∨ t.k = 0 ∨ (isMx t.fa ∧ t.k % 32 ≠ 0) then [24] else []) ++
    (if (pairRate t.fa t.fb).isNone then [30] else []) ++ (if t.init = 3 ∨ bits (fld d 31 1) 7 6 ≠ 0 then [31] else []) ++
    (if isMx t.fa ∧ fld d 35 1 ≠ 0 then [32] else []) ++ (if isMx t.fb ∧ fld d 39 1 ≠ 0 then [36] else []) ++
    (if t.init = 2 ∧ fld d 43 1 ≠ 0 then [40] else []) ++ (if fld d 46 2 ≠ 0 then [46] else []) ++
    (if t.conv then convErrors t.ext t.fa t.k else []) ++
    drainBad t ++ alignErrors 0 4 t.a (if t.conv then 1 else t.m) t.aStride (alignOf t.fa) ++ alignErrors 8 12 t.b t.k t.bStride (alignOf t.fb) ++
    (if t.init = 2 then alignErrors 40 20 t.c t.m t.dStride 4 else [])
  firstBad bad ([24, 28, 29, 30] ++ (List.range 64).map (64 + ·))
    (drainSpan t ++ (if t.conv then convSpan t else spanErrors 0 t.a t.m t.aStride (rowBytes t.fa t.k)) ++
     spanErrors 8 t.b t.k t.bStride (rowBytes t.fb t.n) ++ (if t.init = 2 then spanErrors 40 t.c t.m t.dStride (4 * t.n) else []) ++
     (if isMx t.fa then spanErrors 32 t.sa t.m (cdiv t.k 32) (cdiv t.k 32) ++ spanErrors 36 t.sb (t.k / 32) 64 t.n else []))

/-! ### Operands (R127, R143) -/

/-- An operand as it is staged: for each line its codes along k, its scale bytes, and the poisoned lines with their source units. -/
structure Operand where
  lines : List (List Nat)
  scales : List (List Nat)
  bad : List (Nat × Nat)
  deriving DecidableEq, Repr

/-- An element code in a core store: the byte or nibble at an offset counted in half bytes. -/
def Core.code (k : Core) (fmt : Nat) (addr i : Nat) : Nat :=
  if fmt = 0xA then (k.store.get (addr + i / 2)).toNat / (if i % 2 = 0 then 1 else 16) % 16
  else leNat (k.store.read (addr + i * (es2 fmt / 2)) (es2 fmt / 2))

def Core.badUnit? (k : Core) (addr n : Nat) : Option Nat := if k.store.bad addr n then some (k.bankUnit (k.store.firstBad addr n)) else none

/-- Operand A drawn from the core store: element (m, k), or the generated element of CONV. -/
def drawA (k : Core) (t : TileDesc) : Operand :=
  let nb := if isMx t.fa then t.k / 32 else 0
  let row (m : Nat) : List Nat :=
    if t.conv then (List.range t.k).map (fun i => match convAddr t m i with
      | some a => (if t.fa = 0xA then (k.store.get a.toNat).toNat / (if (i % max 1 (convCg t.ext)) % 2 = 0 then 1 else 16) % 16 else k.code t.fa a.toNat 0)
      | none => 0)
    else (List.range t.k).map (fun i => k.code t.fa (t.a.toNat + m * t.aStride) i)
  let bad (m : Nat) : Option Nat :=
    let b1 := if t.conv then ((List.range t.k).filterMap (fun i => (convAddr t m i).bind (fun a => k.badUnit? a.toNat (rowBytes t.fa 1)))).head?
              else k.badUnit? (t.a.toNat + m * t.aStride) (rowBytes t.fa t.k)
    match b1 with
    | some u => some u
    | none => if nb = 0 then none else k.badUnit? (t.sa.toNat + m * nb) nb
  { lines := (List.range t.m).map row,
    scales := (List.range t.m).map (fun m => (List.range nb).map (fun j => (k.store.get (t.sa.toNat + m * nb + j)).toNat)),
    bad := (List.range t.m).filterMap (fun m => (bad m).map (fun u => (m, u))) }

/-- Operand B drawn from the core store, by columns. -/
def drawB (k : Core) (t : TileDesc) : Operand :=
  let nb := if isMx t.fb then t.k / 32 else 0
  let bad (n : Nat) : Option Nat :=
    match ((List.range t.k).filterMap (fun i => k.badUnit? (t.b.toNat + i * t.bStride + n * es2 t.fb / 2) (rowBytes t.fb 1))).head? with
    | some u => some u
    | none => ((List.range nb).filterMap (fun j => k.badUnit? (t.sb.toNat + 64 * j + n) 1)).head?
  { lines := (List.range t.n).map (fun n => (List.range t.k).map (fun i => k.code t.fb (t.b.toNat + i * t.bStride) n)),
    scales := (List.range t.n).map (fun n => (List.range nb).map (fun j => (k.store.get (t.sb.toNat + 64 * j + n)).toNat)),
    bad := (List.range t.n).filterMap (fun n => (bad n).map (fun u => (n, u))) }

/-- Take an operand from the staging buffer under HOLD with a matching tag, or draw and tag it (R143): the operand, the new tag, hit, refill. -/
def stage (tag : Option Tag) (hold fresh : Bool) (addr stride k n fmt scale bytes : Nat) (draw : Operand) : Operand × Option Tag × Bool × Bool :=
  let sc := if isMx fmt then scale else 0
  let hit := match tag with
    | some g => hold && !fresh && g.addr == addr && g.stride == (stride : Int) && g.k == k && g.n == n && g.fmt == fmt && g.scale == sc
    | none => false
  match tag, hit with
  | some g, true => ({ lines := g.lines, scales := g.scales, bad := g.bad }, tag, true, false)
  | _, _ => (draw, if fresh ∨ 65536 < bytes then none else
      some { addr := addr, stride := stride, k := k, n := n, fmt := fmt, scale := sc, lines := draw.lines, scales := draw.scales, bad := draw.bad }, false, hold)

/-! ### Accumulation (R133 to R137) -/

/-- An accumulator value with the flags its additions raised. -/
structure Acc32 where
  val : BitVec 32
  ovf : Bool := false
  stuck : Bool := false
  deriving DecidableEq, Repr

/-- One addition to an FP32 accumulator, rounded once; OVF where finite values give an infinity (R133, R135). -/
def accAdd (a : Acc32) (t : Num) : Acc32 :=
  let r := rne ((num a.val).add t)
  { a with val := r, ovf := a.ovf || (fIsFin a.val && t.isFin && !fIsFin r) }

/-- The exact sum of values. -/
def sumNum : List Num → Num
  | [] => .fin false 0 0
  | [x] => x
  | x :: l => x.add (sumNum l)

/-- The two BF16 halves of an FP32 operand (R136). -/
def splitBf (x : BitVec 32) : Num × Num :=
  match num x with
  | .fin neg m e =>
    let e1 := bf16.enc true (.fin neg m e)
    let hi := bf16.dec e1.bits
    let lo := bf16.dec (bf16.enc true ((num x).add hi.neg)).bits
    (hi, lo)
  | v => (v, .fin false 0 0)

/-- The terms that one cell adds in order for a non-MX format (R133, R136). -/
def cellTerms (fa fb p : Nat) (as bs : List Nat) : List Num :=
  let pairs := as.zip bs
  if fa = 5 then
    (chunks 128 (pairs.length / 128 + 1) pairs).flatMap (fun ch =>
      let xs := ch.map (fun q => (splitBf (BitVec.ofNat 32 q.1), splitBf (BitVec.ofNat 32 q.2), q))
      let plain (q : Nat × Nat) : Bool := (elemNum 5 q.1).isFin && (elemNum 5 q.2).isFin
      xs.map (fun x => if plain x.2.2 then x.1.2.mul x.2.1.1 else .fin false 0 0) ++
      xs.map (fun x => if plain x.2.2 then x.1.1.mul x.2.1.2 else .fin false 0 0) ++
      xs.map (fun x => if plain x.2.2 then x.1.1.mul x.2.1.1 else (elemNum 5 x.2.2.1).mul (elemNum 5 x.2.2.2)))
  else (chunks p (pairs.length / p + 1) pairs).map (fun ch => sumNum (ch.map (fun q => (elemNum fa q.1).mul (elemNum fb q.2))))

/-- The terms of an MX cell: the exact sum of a block times its two scales (R134). -/
def mxTerms (fa fb : Nat) (as bs sa sb : List Nat) : List Num :=
  ((chunks 32 (as.length / 32 + 1) (as.zip bs)).zip (sa.zip sb)).map (fun p =>
    scaleNum (scaleNum (sumNum (p.1.map (fun q => (elemNum fa q.1).mul (elemNum fb q.2)))) p.2.1) p.2.2)

/-- INT8: exact sums of a cycle's products; the limit that would be passed is held (R137). -/
def intAcc (p : Nat) (a : Acc32) (as bs : List Nat) : Acc32 :=
  (chunks p (as.length / p + 1) (as.zip bs)).foldl (fun a ch =>
    if a.stuck then a else
    let z := sgn 32 a.val.toNat + ch.foldl (fun t q => t + sgn 8 q.1 * sgn 8 q.2) 0
    if z < -2147483648 then { a with val := 0x80000000, stuck := true }
    else if 2147483647 < z then { a with val := 0x7FFFFFFF, stuck := true }
    else { a with val := BitVec.ofInt 32 z }) a

/-- One cell of a tile. -/
def cell (t : TileDesc) (p : Nat) (a : Acc32) (as bs sa sb : List Nat) : Acc32 :=
  if t.fa = 2 then intAcc p a as bs
  else if isMx t.fa then (mxTerms t.fa t.fb as bs sa sb).foldl accAdd a
  else (cellTerms t.fa t.fb p as bs).foldl accAdd a

/-! ### Banks and drains (R129, R130) -/

def Bank.get (b : Bank) (m n : Nat) : BitVec 32 := mgetD b.cells (m, n) 0

def Array.bank (a : Array) (second : Bool) : Bank := if second then a.banks.2 else a.banks.1
def Array.setBank (a : Array) (second : Bool) (b : Bank) : Array := { a with banks := if second then (a.banks.1, b) else (b, a.banks.2) }

def Core.array (k : Core) (a : Nat) : Array := (k.arrays[a]?).getD {}
def State.modArray (s : State) (c a : Nat) (f : Array → Array) : State := s.modCore c (fun k => { k with arrays := setAt k.arrays a (f (k.array a)) })

/-- The bytes of a row of a bank as it is drained to the core store. -/
def drainBytes (t : TileDesc) (b : Bank) (m : Nat) : List Byte :=
  (List.range t.n).flatMap (fun n =>
    if t.drain = 2 then toLe 2 (bf16.enc false (num (b.get m n))).bits
    else toLe 4 (if t.fa = 2 then (b.get m n).toNat else (rne (num (b.get m n))).toNat))

/-- Drain the rows of a bank: to the core store, poisoned granule by granule where a cell is, or towards the vector engine (R130, R150). -/
def State.drainBank (s : State) (c a : Nat) (t : TileDesc) (b : Bank) : State :=
  if t.drain = 0 then s else
  let rows := drainRows t
  let nan := t.fa ≠ 2 ∧ rows.any (fun m => (List.range t.n).any (fun n => fIsNan (b.get m n)))
  let s1 := (s.flag .arrStat c a 4 nan).count .arrOps c a 32 32
  if t.drain = 3 then
    s1.modArray c a (fun k => { k with drainOut := k.drainOut ++ rows.map (fun m =>
      { row := m, vals := (List.range t.n).map (fun n => b.get m n), int := t.fa == 2, poisoned := (List.range t.n).filter (fun n => b.poisoned.contains (m, n)) }) })
  else
    let w := t.drainW
    rows.foldl (fun st m =>
      let addr := t.d.toNat + m * t.dStride
      let st1 := st.opWrite c (a + 1) addr (drainBytes t b m)
      (List.range t.n).foldl (fun st n => if b.poisoned.contains (m, n) then st.storeMarkFrom s1 c (addr + n * w) w else st) st1) s1

/-- A descriptor is refused: recorded, and the program ends (R128). -/
def State.refuseArray (s : State) (c a off desc : Nat) : State :=
  (((s.flag .arrStat c a 5).setField .arrStat c a 8 7 off).setField .arrStat c a 16 18 (desc / 64)).failCore c (errFormat off)

/-- The physical row or column of a logical one: the next one from the retired one on (R151). -/
def linePhys (retired line : Nat) : Nat := if line < retired then line else line + 1

/-- The logical row or column that a physical one carries: none where it is retired or idle (R151). -/
def lineLogical (retired line : Nat) : Option Nat :=
  let r := if line < retired then line else line - 1
  if linePhys retired r = line ∧ r < 64 then some r else none

/-- A failed check that strikes a cell in use: rows below M, columns below N. -/
def residueIn (f : Residue) (t : TileDesc) : Bool := decide (f.row.val < t.m ∧ f.col.val < t.n)

/-- A failed residue check: its physical cell is recorded, the command will end with ERR_POISON, and the array's bucket counts it where its event has not (R150, R151). -/
def State.residue (s : State) (c a : Nat) (f : Residue) (counted : Bool) : State :=
  let arr := (s.core c).array a
  let row := linePhys arr.retRow f.row
  let col := linePhys arr.retCol f.col
  let unit := arrUnit 2 c a row
  let s1 := ((s.count .arrRes c a 0 16).setField .arrRes c a 16 7 row).setField .arrRes c a 24 7 col
  let s2 := s1.taintCore c 5 unit
  if counted then s2 else s2.bucket 7 (.unit (BitVec.ofNat 32 unit) row col) s2.now

/-- Run one TILE or CONV (R121, R148). The bank that an array's first operation since reset does not use is the second one, which the spec does not say (R129, DESIGN CHOICE, log entry 89). -/
def State.runTile (s : State) (c a : Nat) (conv : Bool) (strike : Option Residue) (counted : Bool) (loops : List Nat) (desc : Nat) (d : List Byte) : State :=
  let t := tileDesc conv d loops
  match tileErrors d t with
  | some off => s.refuseArray c a off desc
  | none =>
    let fault := strike.filter (fun f => residueIn f t)
    let k := s.core c
    let arr := k.array a
    let p := (pairRate t.fa t.fb).getD 1
    let second := if t.init = 1 then arr.last else !arr.last
    let mx := if isMx t.fa then t.k / 32 else 0
    let (oa, tagA, hitA, refA) := stage arr.tagA t.aHold conv t.a.toNat t.aStride t.k t.m t.fa t.sa.toNat (t.m * t.k * es2 t.fa / 2 + t.m * mx) (drawA k t)
    let (ob, tagB, hitB, refB) := stage arr.tagB t.bHold false t.b.toNat t.bStride t.k t.n t.fb t.sb.toNat (t.k * t.n * es2 t.fb / 2 + t.n * mx) (drawB k t)
    let cells := (List.range t.m).flatMap (fun m => (List.range t.n).map (fun n => (m, n)))
    let badC (m n : Nat) : Option Nat := if t.init = 2 then k.badUnit? (t.c.toNat + m * t.dStride + 4 * n) 4 else none
    let old := arr.bank second
    let start (m n : Nat) : BitVec 32 :=
      if t.init = 0 then 0 else if t.init = 1 then old.get m n else BitVec.ofNat 32 (leNat (k.store.read (t.c.toNat + m * t.dStride + 4 * n) 4))
    let res := cells.map (fun q => (q, cell t p { val := start q.1 q.2, stuck := t.init == 1 && old.stuck.contains q }
      ((oa.lines[q.1]?).getD []) ((ob.lines[q.2]?).getD []) ((oa.scales[q.1]?).getD []) ((ob.scales[q.2]?).getD [])))
    let faultRows := match fault with
      | some f => (List.range t.m).filter (fun m => f.row.val ≤ m)
      | none => []
    let poisoned := (cells.filter (fun q =>
      oa.bad.any (·.1 == q.1) || ob.bad.any (·.1 == q.2) || (badC q.1 q.2).isSome || faultRows.contains q.1 || (t.init == 1 && old.poisoned.contains q)))
    let others := old.cells.filter (fun e => !cells.contains e.1)
    let bank : Bank := { cells := others ++ res.map (fun r => (r.1, r.2.val)), int := t.fa == 2,
                         stuck := (res.filter (fun r => r.2.stuck)).map (·.1), poisoned := poisoned ++ old.poisoned.filter (fun q => !cells.contains q) }
    let srcBad := match oa.bad, ob.bad, cells.filterMap (fun q => badC q.1 q.2) with
      | x :: _, _, _ => some x.2
      | [], x :: _, _ => some x.2
      | [], [], u :: _ => some u
      | [], [], [] => none
    let s1 := s.modArray c a (fun k => { (k.setBank second bank) with last := second, tagA := tagA, tagB := tagB })
    let s2 := (s1.count .arrHold c a 0 32 ((if hitA then 1 else 0) + (if hitB then 1 else 0))).count .arrHold c a 32 32 ((if refA then 1 else 0) + (if refB then 1 else 0))
    let s3 := (s2.flag .arrStat c a 3 (res.any (fun r => r.2.ovf))).flag .arrStat c a 2
      (res.any (fun r => r.2.stuck && !(t.init == 1 && old.stuck.contains r.1)))
    let s4 := match srcBad with
      | some u => s3.taintCore c 5 u
      | none => s3
    let s5 := match fault with
      | some f => s4.residue c a f counted
      | none => s4
    s5.drainBank c a t bank

/-- The core store ranges that a TILE, CONV or DRAIN reads or writes. -/
def TileDesc.places (t : TileDesc) (c : Nat) (drainOnly : Bool) : List (Place × Nat) :=
  let mx (f : Nat) : Nat := if isMx f then t.k / 32 else 0
  (if t.drain = 1 ∨ t.drain = 2 then rowPlaces c t.d.toNat t.m t.dStride (t.n * t.drainW) else []) ++
  (if drainOnly then [] else
    (if t.conv then (List.range t.m).flatMap (fun m => (List.range t.k).filterMap (fun k => (convAddr t m k).map (fun a => (Place.core c a.toNat, rowBytes t.fa 1))))
     else rowPlaces c t.a.toNat t.m t.aStride (rowBytes t.fa t.k)) ++
    rowPlaces c t.b.toNat t.k t.bStride (rowBytes t.fb t.n) ++ (if t.init = 2 then rowPlaces c t.c.toNat t.m t.dStride (4 * t.n) else []) ++
    rowPlaces c t.sa.toNat t.m (mx t.fa) (mx t.fa) ++ rowPlaces c t.sb.toNat (mx t.fb) 64 t.n)

/-- The descriptor DRAIN reads: D_ADDR, D_STRIDE, M, N, FMT_A, LOOP, D_INC and the drain field (R122). -/
def drainDesc (d : List Byte) (loops : List Nat) : TileDesc :=
  let t := tileDesc false d loops
  { t with init := 1, aHold := false, bHold := false }

def drainOpErrors (d : List Byte) (t : TileDesc) : Option Nat :=
  leastOf (commonErrors d ++ (if (t.drain = 1 ∨ t.drain = 2) ∧ fld d 19 1 ≠ 0 then [16] else []) ++ (if 0xA < t.fa then [30] else []) ++ drainBad t
    ++ (if (commonErrors d).any (fun o => o == 28 || o == 29) then [] else drainSpan t))

/-- Run one DRAIN: the bank that the array's previous operation used is drained, row by row after its verdict (R576). -/
def State.runDrain (s : State) (c a : Nat) (fault : Option Residue) (counted : Bool) (loops : List Nat) (desc : Nat) (d : List Byte) : State :=
  let t := drainDesc d loops
  match drainOpErrors d t with
  | some off => s.refuseArray c a off desc
  | none =>
    let arr := (s.core c).array a
    let b := arr.bank arr.last
    match fault.filter (fun f => residueIn f t) with
    | none => s.drainBank c a t b
    | some f =>
      let bad := (List.range t.m).flatMap (fun m => if f.row.val ≤ m then (List.range t.n).map (fun n => (m, n)) else [])
      let b1 := { b with poisoned := b.poisoned ++ bad }
      ((s.modArray c a (fun k => k.setBank k.last b1)).residue c a f counted).drainBank c a t b1

/-- An array operation of a core with its descriptor: op 1 TILE, 2 CONV, 3 DRAIN (R122). -/
def State.tryArray (s : State) (c a op : Nat) (fault : Option Residue) (counted : Bool) (loops : List Nat) (desc : Nat) (d : List Byte) : Attempt :=
  let ps := if op = 3 then (drainDesc d loops).places c true else (tileDesc (op == 2) d loops).places c false
  if s.provHeld none ps then .wait s
  else if op = 3 then .go (s.runDrain c a fault counted loops desc d) else .go (s.runTile c a (op == 2) fault counted loops desc d)

end Sys2Proof.Machine
end

