-- ==== Sys2Proof/Machine/Vector.lean ====
section
/-! DEFINITION. The vector engine: VEC (R154 to R179). -/

namespace Sys2Proof.Machine
open Sys2Proof

/-- A vector descriptor with its bindings applied (R157, R158). -/
structure VecDesc where
  x : Int
  xs : Nat
  y : Int
  ys : Nat
  z : Int
  zs : Nat
  len : Nat
  rows : Nat
  func : Nat
  fx : Nat
  fz : Nat
  arrays : List Nat
  ykind : Nat
  sat : Bool
  opt : Nat
  alpha : BitVec 32
  beta : BitVec 32
  aux : Int
  tag : Nat
  imm : Nat
  deriving DecidableEq, Repr

def vecDesc (d : List Byte) (loops : List Nat) (imm : Nat) : VecDesc :=
  let loop := fld d 44 2
  let src := fld d 34 1
  { x := bound loops (bits loop 2 0) (fld d 0 4) (sfld d 48 4), xs := fld d 4 4,
    y := bound loops (bits loop 5 3) (fld d 8 4) (sfld d 52 4), ys := fld d 12 4,
    z := bound loops (bits loop 8 6) (fld d 16 4) (sfld d 56 4), zs := fld d 20 4,
    len := fld d 24 3, rows := fld d 28 3, func := fld d 32 1, fx := bits (fld d 33 1) 3 0, fz := bits (fld d 33 1) 7 4,
    arrays := setBits 4 (bits src 3 0), ykind := bits src 5 4, sat := bit src 6, opt := fld d 35 1,
    alpha := BitVec.ofNat 32 (fld d 36 4), beta := BitVec.ofNat 32 (fld d 40 4),
    aux := bound loops (bits loop 8 6) (fld d 60 4) (sfld d 46 2), tag := fld d 8 4, imm := imm }

/-- The classes of a function code: element-wise with a Y operand, element-wise without, DROPOUT, COMBINE, special, row operations. -/
def vecY (f : Nat) : Bool := 1 ≤ f && f ≤ 4
def vecSpecial (f : Nat) : Bool := 0x10 ≤ f && f ≤ 0x1A
def vecRow (f : Nat) : Bool := 0x20 ≤ f && f ≤ 0x24
def vecKnown (f : Nat) : Bool := f ≤ 6 || f == 8 || f == 0x30 || vecSpecial f || vecRow f

/-- The number of partials of COMBINE (R171). -/
def VecDesc.partials (t : VecDesc) : Nat := if t.arrays.isEmpty then t.opt % 16 + 1 else t.arrays.length

/-- Elements of an output row. -/
def VecDesc.outLen (t : VecDesc) : Nat := if t.func = 0x30 ∧ !t.arrays.isEmpty then t.len / t.partials else t.len

/-- The format in which X lies: COMBINE's partials are FP32 (R171). -/
def VecDesc.xFmt (t : VecDesc) : Nat := if t.func = 0x30 then 5 else t.fx

/-- Whether an MX operand uses the block scales at AUX_ADDR. -/
def VecDesc.xMx (t : VecDesc) : Bool := isMx t.xFmt && t.arrays.isEmpty
def VecDesc.zMx (t : VecDesc) : Bool := isMx t.fz && !vecRow t.func

/-- Bytes of an output row. -/
def VecDesc.zBytes (t : VecDesc) : Nat :=
  if t.func = 0x23 then 16 else if vecRow t.func ∧ t.func ≠ 0x24 then 4 else rowBytes t.fz t.outLen

/-- Whether Y is read: as a tensor, per row or per column. -/
def VecDesc.yUsed (t : VecDesc) : Nat := if vecY t.func ∨ vecSpecial t.func ∨ t.func = 0x24 then t.ykind else 0

/-- The first bad offset of a vector descriptor (R160, R161, R166, R171 to R173, R175). -/
def vecErrors (d : List Byte) (t : VecDesc) : Option Nat :=
  let f := t.func
  let fmtBad := 0xB < t.fx ∨ 0xB < t.fz ∨ (vecRow f ∧ t.fz ≠ 5) ∨ (f = 8 ∧ !([3, 4, 5].contains t.fx && [3, 4, 5].contains t.fz)) ∨
    (!t.arrays.isEmpty ∧ t.fx ≠ 5 ∧ t.fx ≠ 0xB)
  let yBad := (f ≤ 8 ∧ !vecY f ∧ t.ykind ≠ 0) ∨ (vecY f ∧ t.ykind = 0) ∨ (vecSpecial f ∧ t.ykind = 1) ∨ (f = 0x24 ∧ t.ykind ≠ 2)
  let optBad :=
    if f = 0x23 then t.opt % 4 = 3 ∨ 8 ≤ t.opt
    else if f = 0x24 then 2 ≤ t.opt
    else if f = 0x30 then t.arrays.isEmpty ∧ (t.opt = 0 ∨ 16 ≤ t.opt)
    else t.opt ≠ 0
  let shifts := f = 0x23 ∧ t.opt % 4 = 1
  let affine := f = 0x24 ∧ t.opt % 2 = 1
  let aux := t.xMx ∨ t.zMx ∨ shifts ∨ affine
  let nb := cdiv t.len 32
  let bad :=
    (if t.arrays.isEmpty ∧ fld d 3 1 ≠ 0 then [0] else []) ++ (if f ≠ 8 ∧ fld d 11 1 ≠ 0 then [8] else []) ++
    (if fld d 19 1 ≠ 0 then [16] else []) ++ (if f = 0x23 ∧ t.zs < 16 then [20] else []) ++
    (if fld d 27 1 ≠ 0 ∨ t.len = 0 ∨ ((isMx t.fx ∨ isMx t.fz) ∧ t.len % 32 ≠ 0) ∨ (!t.arrays.isEmpty ∧ t.len ≠ 64 * t.arrays.length) then [24] else []) ++
    (if fld d 31 1 ≠ 0 ∨ t.rows = 0 ∨ (!t.arrays.isEmpty ∧ 64 < t.rows) then [28] else []) ++
    (if !vecKnown f ∨ (t.imm ≠ 0 ∧ f ≠ 8) then [32] else []) ++ (if fmtBad then [33] else []) ++
    (if bit (fld d 34 1) 7 ∨ yBad then [34] else []) ++ (if optBad then [35] else []) ++
    (if bits (fld d 44 2) 15 9 ≠ 0 then [44] else []) ++ (if aux ∧ fld d 63 1 ≠ 0 then [60] else []) ++
    (if t.arrays.isEmpty then alignErrors 0 4 t.x t.rows t.xs (alignOf t.xFmt) ++ (if f = 0x30 then alignErrors 0 12 t.x t.partials t.ys 4 else []) else []) ++
    (if t.yUsed = 1 then alignErrors 8 12 t.y t.rows t.ys (alignOf t.fx)
     else if t.yUsed = 2 then alignErrors 8 12 t.y t.rows t.ys 4
     else if t.yUsed = 3 then alignErrors 8 8 t.y 1 0 4 else []) ++
    alignErrors 16 20 t.z t.rows t.zs (if vecRow f then 4 else alignOf t.fz) ++ (if shifts ∨ affine then alignErrors 60 60 t.aux 1 0 4 else [])
  firstBad bad [24, 28, 32, 33, 34, 35] (
    (if t.arrays.isEmpty then
      spanErrors 0 t.x t.rows t.xs (rowBytes t.xFmt t.len) ++ (if f = 0x30 then spanErrors 0 t.x t.partials t.ys ((t.rows - 1) * t.xs + 4 * t.len) else []) else []) ++
    (if t.yUsed = 1 then spanErrors 8 t.y t.rows t.ys (rowBytes t.fx t.len)
     else if t.yUsed = 2 then spanErrors 8 t.y t.rows t.ys (if f = 0x24 then 16 else 4)
     else if t.yUsed = 3 then spanErrors 8 t.y 1 0 (4 * t.len) else []) ++
    spanErrors 16 t.z t.rows t.zs t.zBytes ++ (if t.xMx then spanErrors 60 t.aux t.rows nb nb else []) ++
    (if t.zMx then spanErrors 60 t.aux t.rows nb (cdiv t.outLen 32) else []) ++
    (if shifts then spanErrors 60 t.aux 1 0 (4 * t.rows) else []) ++ (if affine then spanErrors 60 t.aux 1 0 (8 * t.len) else []))

/-! ### Inputs -/

/-- An input value with whether it is poisoned. -/
structure Lane where
  val : Num
  bad : Bool := false
  deriving DecidableEq, Repr

/-- A tensor element in a core store; its scale byte applies in an MX format (R134, R158). -/
def Core.elem (k : Core) (fmt : Nat) (row i : Nat) (scale : Option (Nat × Bool)) : Lane :=
  let v := elemNum fmt (k.code fmt row i)
  let at_ := row + i * es2 fmt / 2
  match scale with
  | some (sc, b) => { val := scaleNum v sc, bad := b || k.store.bad at_ 1 }
  | none => { val := if fmt = 0xB then num (rne v) else v, bad := k.store.bad at_ (rowBytes fmt 1) }

/-- An FP32 of a core store. -/
def Core.f32 (k : Core) (a : Nat) : Lane := { val := num (BitVec.ofNat 32 (leNat (k.store.read a 4))), bad := k.store.bad a 4 }

/-- The rows X of a partial that start at an address. -/
def VecDesc.storeRow (t : VecDesc) (k : Core) (base r : Nat) : List Lane :=
  (List.range t.len).map (fun i =>
    let sc := t.aux.toNat + r * cdiv t.len 32 + i / 32
    k.elem t.xFmt (base + r * t.xs) i (if t.xMx then some ((k.store.get sc).toNat, k.store.bad sc 1) else none))

/-- A drained row of one array as 64 columns (R159). -/
def drainLanes (row : DrainRow) : List Lane :=
  (List.range 64).map (fun n =>
    match row.vals[n]? with
    | some v => { val := if row.int then num (fOfInt (sgn 32 v.toNat)) else num v, bad := row.poisoned.contains n }
    | none => { val := .fin false 0 0 })

/-- X of row r, the first not yet taken being row lo: from the drains of the named arrays or from the core store. -/
def VecDesc.xRow (t : VecDesc) (k : Core) (lo r : Nat) : List Lane :=
  if t.arrays.isEmpty then t.storeRow k t.x.toNat r
  else t.arrays.flatMap (fun a => match (k.array a).drainOut[r - lo]? with
    | some row => drainLanes row
    | none => [])

/-- What the free block scales of an MX tensor Y are a function of: the fields of the descriptor as it acts (R176). -/
def VecDesc.key (t : VecDesc) : List Nat := [t.x.toNat, t.y.toNat, t.z.toNat, t.aux.toNat, t.xs, t.ys, t.zs, t.len, t.rows, t.func, t.fx, t.fz, t.opt]

/-- Y of element (r, i); the block scales of an MX tensor have no place and are free values of the descriptor (log entry 14). -/
def VecDesc.yElem (t : VecDesc) (k : Core) (r i : Nat) : Lane :=
  if t.yUsed = 1 then
    k.elem t.fx (t.y.toNat + r * t.ys) i (if isMx t.fx then some (Config.yScale t.key r (i / 32) % 256, false) else none)
  else if t.yUsed = 2 then k.f32 (t.y.toNat + r * t.ys)
  else k.f32 (t.y.toNat + 4 * i)

/-! ### Results -/

/-- A result element: its FP32 bits, whether an input of it was poisoned, and the special pipeline's flags. -/
structure VecOut where
  val : BitVec 32
  bad : Bool
  flushed : Bool := false
  subn : Bool := false
  deriving DecidableEq, Repr

/-- u of R161: x itself for ALPHA 1.0 and BETA +0. -/
def VecDesc.u (t : VecDesc) (x : Num) : BitVec 32 :=
  if t.alpha = 0x3F800000 ∧ t.beta = 0 then rne x else rne (((num t.alpha).mul x).add (num t.beta))

/-- The canonical form of a NaN result (R163). -/
def canon (x : BitVec 32) : BitVec 32 := if fIsNan x then fnan else x

/-- An element-wise or special result (R161, R162, R166). -/
def VecDesc.elemOut (t : VecDesc) (k : Core) (seed step r : Nat) (i : Nat) (x : Lane) : VecOut :=
  let y := if t.yUsed = 0 then { val := .nan } else t.yElem k r i
  let b := x.bad || (t.yUsed != 0 && y.bad)
  if vecSpecial t.func then
    let o := special t.func (t.u (if t.yUsed = 0 then x.val else num (rne (x.val.add y.val.neg))))
    { val := canon o.val, bad := b, flushed := o.flushed, subn := o.subn }
  else
    let u := t.u x.val
    let v :=
      if t.func = 1 then rne ((num u).add y.val)
      else if t.func = 2 then rne ((num u).mul y.val)
      else if t.func = 3 then rne ((num u).maxN (num (rne y.val)))
      else if t.func = 4 then rne ((num u).minN (num (rne y.val)))
      else if t.func = 5 then rne ((num u).maxN (.fin false 0 0))
      else if t.func = 6 then rne (num u).abs
      else if t.func = 8 then
        (if rand seed t.tag 1 step ((t.imm + r * t.len + i) % 2 ^ 64) < t.ys then rne (x.val.mul (num t.alpha)) else 0)
      else u
    { val := canon v, bad := b }

/-- The 256 lanes of a row operation, then the tree (R170); a lane given no element takes no part. -/
def laneTree (f : BitVec 32 → BitVec 32 → BitVec 32) (l : List (BitVec 32)) : BitVec 32 :=
  let pass (acc ch : List (BitVec 32)) : List (BitVec 32) := (List.range acc.length).map (fun i =>
    match acc[i]?, ch[i]? with
    | some a, some b => f a b
    | some a, none => a
    | none, _ => 0)
  match chunks 256 (l.length / 256 + 1) l with
  | [] => 0
  | c :: cs => combine f 0 (cs.foldl pass c)

/-- A ROW_STAT record with its flags (R172, R173). -/
structure RowStat where
  mean : BitVec 32
  var : BitVec 32
  rstd : BitVec 32
  clamped : Bool
  nonfinite : Bool
  flushed : Bool := false
  subn : Bool := false
  deriving DecidableEq, Repr

def rowStat (xs : List Num) (k : Num) (eps : BitVec 32) (rstdBit : Bool) : RowStat :=
  let d := xs.map (fun x => rne (x.add k.neg))
  let s1 := laneTree fadd d
  let s2 := laneTree fadd (d.map (fun v => fmul v v))
  let il := fdiv 0x3F800000 (rne (Num.ofNat xs.length))
  let m1 := fmul s1 il
  let e2 := fmul s2 il
  let v := ffma (fneg m1) m1 e2
  let neg := (num v).lt (.fin false 0 0)
  let v1 := if neg then 0 else v
  if xs.any (fun x => !x.isFin) ∨ d.any (fun v => !fIsFin v) ∨ !fIsFin s1 ∨ !fIsFin s2 then
    { mean := fnan, var := fnan, rstd := fnan, clamped := neg, nonfinite := true }
  else
    let o := special 0x13 (fadd v1 eps)
    { mean := rne (k.add (num m1)), var := v1, rstd := if rstdBit then canon o.val else 0, clamped := neg, nonfinite := false,
      flushed := rstdBit && o.flushed, subn := rstdBit && o.subn }

def RowStat.bytes (r : RowStat) : List Byte :=
  toLe 4 r.mean.toNat ++ toLe 4 r.var.toNat ++ toLe 4 r.rstd.toNat ++ toLe 4 ((if r.clamped then 1 else 0) + (if r.nonfinite then 2 else 0))

/-- The elements of a row converted to FMT_Z: codes and scale bytes (R164, R165), saturated elements, whether a NaN was written, whether a binary16 infinity or NaN was (R349). -/
structure Converted where
  codes : List Nat
  scales : List Nat := []
  sat : Nat := 0
  nan : Bool := false
  half : Bool := false
  deriving DecidableEq, Repr

def convertRow (fz : Nat) (sat : Bool) (vs : List (BitVec 32)) : Converted :=
  if isMx fz then
    (chunks 32 (vs.length / 32 + 1) vs).foldl (fun (acc : Converted) blk =>
      let sc := blockScale fz (blk.map num)
      let es := blk.map (fun v => match fmtOf fz with
        | some f => if sc = 0xFF then ({ bits := 0 } : Enc) else f.enc true ((num v).scale (127 - (sc : Int)))
        | none => { bits := 0 })
      { acc with codes := acc.codes ++ es.map (·.bits), scales := acc.scales ++ [sc],
                 sat := acc.sat + (es.filter (·.sat)).length, nan := acc.nan || blk.any fIsNan }) { codes := [] }
  else match fmtOf fz with
    | some f =>
      let es := vs.map (fun v => f.enc sat (num v))
      { codes := es.map (·.bits), sat := (es.filter (·.sat)).length, nan := es.any (fun e => (f.dec e.bits).isNan),
        half := fz == 4 && es.any (fun e => !(f.dec e.bits).isFin) }
    | none =>
      let n := if fz = 2 then 8 else 32
      let zs := vs.map (fun v => (num v).toInt n)
      { codes := zs.map (fun z => unsgn n z.1), sat := (zs.filter (·.2)).length }

/-- Bytes of element codes in a core store. -/
def packCodes (fz : Nat) (codes : List Nat) : List Byte :=
  if fz = 0xA then (chunks 2 (codes.length / 2 + 1) codes).map (fun p => BitVec.ofNat 8 ((p[0]?).getD 0 + 16 * (p[1]?).getD 0))
  else codes.flatMap (fun c => toLe (es2 fz / 2) c)

/-! ### Writing -/

/-- Write an output row with its poisoned elements. -/
def State.vecRowOut (s : State) (c : Nat) (t : VecDesc) (r : Nat) (vs : List (BitVec 32 × Bool)) : State :=
  let o := convertRow t.fz t.sat (vs.map (·.1))
  let za := t.z.toNat + r * t.zs
  let aux := t.aux.toNat + r * cdiv t.len 32
  let s1 := s.opWrite c 5 za (packCodes t.fz o.codes)
  let s2 := if t.zMx then s1.opWrite c 5 aux (o.scales.map (BitVec.ofNat 8)) else s1
  let blockBad (i : Nat) : Bool := t.zMx && ((vs.drop (i / 32 * 32)).take 32).any (·.2)
  let s3 := vs.zipIdx.foldl (fun st p =>
    if p.1.2 ∨ blockBad p.2 then
      let st1 := st.storeMarkFrom s c (za + p.2 * es2 t.fz / 2) (rowBytes t.fz 1)
      if t.zMx then st1.storeMarkFrom s c (aux + p.2 / 32) 1 else st1
    else st) s2
  let s4 := (((s3.flag .vecStat c 0 2 o.nan).flag .vecStat c 0 3 (o.sat != 0)).count .vecCvt c 0 0 32 o.sat)
  if o.half then match s4.coreCtx c with
    | some x => s4.modCtx x (fun x => { x with overflow := true })
    | none => s4
  else s4

/-- Count special-function results in units of 1,024 (R178). -/
def State.sfResults (s : State) (c n : Nat) : State :=
  let k := s.core c
  (s.count .vecOps c 0 32 32 ((k.sfRest + n) / 1024)).modCore c (fun k => { k with sfRest := (k.sfRest + n) % 1024 })

/-- Consumed poison: the flag, and the command's end (R177). -/
def State.vecPoison (s : State) (c : Nat) (b : Bool) : State :=
  if b then (s.flag .vecStat c 0 4).taintCore c 6 (coreUnit c) else s

/-- Run the rows of a vector operation from lo on, on their inputs as they stand. -/
def State.runVec (s0 : State) (c : Nat) (t : VecDesc) (seed step lo n : Nat) : State :=
  let k := s0.core c
  let rowsN := (List.range n).map (lo + ·)
  if t.func = 0x30 then
    rowsN.foldl (fun st r =>
      let parts : List (List Lane) :=
        if t.arrays.isEmpty then (List.range t.partials).map (fun j => t.storeRow k (t.x.toNat + j * t.ys) r)
        else t.arrays.map (fun a => (((k.array a).drainOut[r - lo]?).map drainLanes).getD [])
      let vs := (List.range t.outLen).map (fun i =>
        let l := parts.map (fun p => (p[i]?).getD { val := .fin false 0 0 })
        (canon (treeSum (l.map (fun x => t.u x.val))), l.any (·.bad)))
      (st.vecRowOut c t r vs).vecPoison c (parts.any (fun p => p.any (·.bad)))) s0
  else if t.func = 0x23 then
    rowsN.foldl (fun st r =>
      let xs := t.xRow k lo r
      let sh : Lane := if t.opt % 4 = 1 then k.f32 (t.aux.toNat + 4 * r) else if t.opt % 4 = 2 then xs.headD { val := .fin false 0 0 } else { val := .fin false 0 0 }
      let o := rowStat (xs.map (·.val)) sh.val t.beta (t.opt.testBit 2)
      let bad := xs.any (·.bad) || sh.bad
      let za := t.z.toNat + r * t.zs
      let st1 := st.opWrite c 5 za o.bytes bad
      let st2 := (((st1.count .vecRowstat c 0 32 32).count .vecRowstat c 0 0 32 (if o.clamped ∧ !o.nonfinite then 1 else 0)).flag .vecStat c 0 2 ([o.mean, o.var, o.rstd].any fIsNan))
      ((st2.count .vecFlush c 0 0 32 (if o.flushed then 1 else 0)).count .vecFlush c 0 32 32 (if o.subn then 1 else 0)).vecPoison c bad) s0
  else if t.func = 0x24 then
    rowsN.foldl (fun st r =>
      let rec_ := t.y.toNat + r * t.ys
      let mean := k.f32 rec_
      let rstd := k.f32 (rec_ + 8)
      let non := (k.store.get (rec_ + 12)).getLsbD 1
      let vs := (t.xRow k lo r).zipIdx.map (fun p =>
        let g : Lane := if t.opt % 2 = 1 then k.f32 (t.aux.toNat + 4 * p.2) else { val := .fin false 1 0 }
        let b : Lane := if t.opt % 2 = 1 then k.f32 (t.aux.toNat + 4 * t.len + 4 * p.2) else { val := .fin false 0 0 }
        let m := fmul (rne (p.1.val.add mean.val.neg)) (rne rstd.val)
        (if non then fnan else canon (rne (((num m).mul g.val).add b.val)), p.1.bad || k.store.bad rec_ 16 || g.bad || b.bad))
      (st.vecRowOut c t r vs).vecPoison c (vs.any (·.2))) s0
  else if vecRow t.func then
    rowsN.foldl (fun st r =>
      let xs := t.xRow k lo r
      let f : BitVec 32 → BitVec 32 → BitVec 32 :=
        if t.func = 0x20 then fadd else if t.func = 0x21 then (fun a b => rne ((num a).maxN (num b))) else (fun a b => rne ((num a).minN (num b)))
      let v := canon (laneTree f (xs.map (fun x => t.u x.val)))
      let bad := xs.any (·.bad)
      ((st.opWrite c 5 (t.z.toNat + r * t.zs) (toLe 4 v.toNat) bad).flag .vecStat c 0 2 (fIsNan v)).vecPoison c bad) s0
  else
    rowsN.foldl (fun st r =>
      let vs := (t.xRow k lo r).zipIdx.map (fun p => t.elemOut k seed step r p.2 p.1)
      let st1 := (st.vecRowOut c t r (vs.map (fun o => (o.val, o.bad)))).vecPoison c (vs.any (·.bad))
      if vecSpecial t.func then
        ((st1.count .vecFlush c 0 0 32 (vs.filter (·.flushed)).length).count .vecFlush c 0 32 32 (vs.filter (·.subn)).length).sfResults c vs.length
      else st1) s0

/-- A vector descriptor is refused: recorded, and the program ends (R160). -/
def State.refuseVec (s : State) (c off desc : Nat) : State :=
  (((s.flag .vecStat c 0 1).setField .vecStat c 0 8 7 off).setField .vecStat c 0 16 18 (desc / 64)).failCore c (errFormat off)

/-- The rows that an operation may take now: all of them from the core store, or those that every named array has delivered (R159). -/
def VecDesc.delivered (t : VecDesc) (k : Core) (taken : Nat) : Nat := t.arrays.foldl (fun n a => min n (k.array a).drainOut.length) (t.rows - taken)

/-- Run the next n rows of an operation and take them from the arrays. -/
def State.takeRows (s : State) (c : Nat) (t : VecDesc) (lo n : Nat) : State :=
  t.arrays.foldl (fun st a => st.modArray c a (fun k => { k with drainOut := k.drainOut.drop n })) (s.runVec c t (s.coreSeed c) (s.coreStep c) lo n)

/-- The vector engine's operation takes the rows that have been delivered (R159). -/
def State.feedVec (s : State) (c : Nat) : State :=
  match (s.core c).run.bind (·.vec) with
  | some v =>
    let t := vecDesc v.desc v.loops v.imm
    let n := t.delivered (s.core c) v.taken
    (s.takeRows c t v.taken n).modRun c (fun r => { r with vec := if v.taken + n < t.rows then some { v with taken := v.taken + n } else none })
  | none => s

/-- The core store ranges that an operation reads or writes. -/
def VecDesc.places (t : VecDesc) (c : Nat) : List (Place × Nat) :=
  let nb := cdiv t.len 32
  (if t.arrays.isEmpty then (List.range t.partials).flatMap (fun j =>
     if t.func = 0x30 ∨ j = 0 then rowPlaces c (t.x.toNat + j * t.ys) t.rows t.xs (rowBytes t.xFmt t.len) else []) else []) ++
  (if t.yUsed = 1 then rowPlaces c t.y.toNat t.rows t.ys (rowBytes t.fx t.len) else if t.yUsed = 2 then rowPlaces c t.y.toNat t.rows t.ys (if t.func = 0x24 then 16 else 4)
   else if t.yUsed = 3 then [(.core c t.y.toNat, 4 * t.len)] else []) ++
  rowPlaces c t.z.toNat t.rows t.zs t.zBytes ++ (if t.xMx ∨ t.zMx then rowPlaces c t.aux.toNat t.rows nb nb else []) ++
  (if t.func = 0x23 ∧ t.opt % 4 = 1 then [(.core c t.aux.toNat, 4 * t.rows)] else []) ++
  (if t.func = 0x24 ∧ t.opt % 2 = 1 then [(.core c t.aux.toNat, 8 * t.len)] else [])

/-- A vector stage with its descriptor (R160, R161): it waits until the arrays it names have delivered all its rows. -/
def State.tryVec (s : State) (c : Nat) (loops : List Nat) (imm desc : Nat) (d : List Byte) : Attempt :=
  let t := vecDesc d loops imm
  match vecErrors d t with
  | some off => .go (s.refuseVec c off desc)
  | none => if t.delivered (s.core c) 0 < t.rows ∨ s.provHeld none (t.places c) then .wait s else .go (s.takeRows c t 0 t.rows)

/-! ### The rows of the arrays and of the vector engine -/

/-- An array row: the operation at the head of the array's queue, with this code, starts in its phase; the rows it drains reach the vector engine. -/
def State.arrayRow (s : State) (c a op len : Nat) (fault : Option Residue) : State :=
  match s.startable c (a + 1) with
  | some (_, q) =>
    if q.op.op.toNat ≠ op then s else
    let s1 := s.begin c (a + 1) q
    if q.descBeyond len then s1.refuseArray c a 0 q.op.desc.toNat else
    (match s1.opDesc c q len 5 with
     | .error r => s1.failCore c r
     | .ok d => match s1.tryArray c a op fault false q.loops q.op.desc.toNat d with
       | .wait _ => s
       | .go s2 => s2.feedVec c)
  | none => s

/-- TILE (R121). -/
def execTile (c : Fin 40) (a : Fin 4) (fault : Option Residue) (s : State) : Host.Outcome State Fault Refusal := s.run (fun s => s.arrayRow c a 1 64 fault)

/-- CONV (R148). -/
def execConv (c : Fin 40) (a : Fin 4) (fault : Option Residue) (s : State) : Host.Outcome State Fault Refusal := s.run (fun s => s.arrayRow c a 2 128 fault)

/-- DRAIN (R576). -/
def execDrain (c : Fin 40) (a : Fin 4) (fault : Option Residue) (s : State) : Host.Outcome State Fault Refusal := s.run (fun s => s.arrayRow c a 3 64 fault)

/-- VEC (R156 to R177): the operation at the vector engine's head starts and takes its rows, from array drains as they are delivered. -/
def execVec (c : Fin 40) (s : State) : Host.Outcome State Fault Refusal :=
  s.run (fun s => match s.startable c 5 with
    | some (_, q) =>
      let s1 := s.begin c 5 q
      if q.descBeyond 64 then s1.refuseVec c 0 q.op.desc.toNat else
      (match s1.opDesc c q 64 6 with
       | .error r => s1.failCore c r
       | .ok d =>
         let t := vecDesc d q.loops q.op.imm.toNat
         match vecErrors d t with
         | some off => s1.refuseVec c off q.op.desc.toNat
         | none => if s1.provHeld none (t.places c) then s else
           (s1.modRun c (fun r => { r with vec := some { desc := d, loops := q.loops, imm := q.op.imm.toNat } })).feedVec c)
    | none => s)

end Sys2Proof.Machine
end

