-- ==== Sys2Proof/Machine/Streams.lean ====
section
/-! DEFINITION. Streams: descriptors, walks, transfers, parking, progress, run-ahead (R180 to R216). -/

namespace Sys2Proof.Machine
open Sys2Proof

/-! ### The stream descriptor (R180 to R183) -/

/-- A stream descriptor with its bindings applied; the counts of dimensions at or above DIMS are 1. -/
structure StreamDesc where
  src : Int
  dst : Int
  counts : List Nat
  ss : List Int
  ds : List Int
  dims : Nat
  sp : Nat
  dp : Nat
  es : Nat
  conv : Conv
  cmp : Nat
  runahead : Bool
  noAlloc : Bool
  deriving DecidableEq, Repr

def streamDesc (d : List Byte) (loops : List Nat) : StreamDesc :=
  let loop := fld d 117 2
  let dims := fld d 115 1
  let space := fld d 112 1
  let elem := fld d 113 1
  { src := bound loops (bits loop 2 0) (fld d 0 8) (sfld d 120 4), dst := bound loops (bits loop 5 3) (fld d 8 8) (sfld d 124 4),
    counts := (List.range 6).map (fun i => if i < dims then fld d (16 + 4 * i) 4 else 1),
    ss := (List.range 6).map (fun i => sfld d (40 + 6 * i) 6), ds := (List.range 6).map (fun i => sfld d (76 + 6 * i) 6),
    dims := dims, sp := bits space 1 0, dp := bits space 3 2, es := 2 ^ bits elem 1 0,
    conv := match bits elem 3 2 with
      | 1 => .unpack
      | 2 => .pack
      | _ => .none,
    cmp := fld d 114 1, runahead := bit (fld d 116 1) 0, noAlloc := bit (fld d 116 1) 1 }

def StreamDesc.count (t : StreamDesc) (i : Nat) : Nat := (t.counts[i]?).getD 1
def StreamDesc.total (t : StreamDesc) : Nat := t.counts.foldl (· * ·) 1

/-- Whether an end holds packed MXFP6 (R184). -/
def StreamDesc.packed (t : StreamDesc) (dst : Bool) : Bool := if dst then t.conv == .pack else t.conv == .unpack

/-- The end of an address space (R181). -/
def spaceEnd (sp : Nat) : Int := if sp = 0 then (storeBytes : Int) else if sp = 1 then (2 ^ 52 : Nat) else (2 ^ 64 : Nat)

/-- Offsets of the fields through which an end leaves its space or, in a core store, its alignment (R183). -/
def endErrors (sp : Nat) (addr : Int) (counts : List Nat) (strides : List Int) (dims width al addrOff strideOff : Nat) (packed : Bool) : List Nat :=
  let lim := spaceEnd sp
  let first : Int × Int := (addr, addr + (if packed then (3 * ((counts.headD 1) / 4) : Nat) else width : Nat))
  let out (r : Int × Int) : Bool := decide (r.1 < 0 ∨ lim < r.2)
  let go := (List.range dims).foldl (fun (acc : (Int × Int) × List Nat) i =>
    if packed ∧ i = 0 then acc else
    let k : Int := ((((counts[i]?).getD 1) - 1 : Nat) : Int) * (strides[i]?).getD 0
    let r := (acc.1.1 + min k 0, acc.1.2 + max k 0)
    (r, if out r ∧ !out acc.1 then acc.2 ++ [strideOff + 6 * i] else acc.2)) (first, [])
  (if out first ∨ (sp = 0 ∧ addr % (al : Int) ≠ 0) then [addrOff] else []) ++ go.2 ++
  (if sp = 0 then ((List.range dims).filter (fun i => !(packed && i == 0) && (strides[i]?).getD 0 % (al : Int) != 0)).map (fun i => strideOff + 6 * i) else [])

/-- The first bad offset of a stream descriptor (R183, R184, R290). -/
def streamErrors (d : List Byte) (t : StreamDesc) : Option Nat :=
  let mode := t.cmp % 4
  let ofmt := bits t.cmp 5 2
  let space := fld d 112 1
  let elem := fld d 113 1
  let flags := fld d 116 1
  let bad :=
    (if t.sp = 0 ∧ fld d 3 5 ≠ 0 then [0] else []) ++ (if t.sp = 1 ∧ bits (fld d 0 8) 63 52 ≠ 0 then [0] else []) ++
    (if t.dp = 0 ∧ fld d 11 5 ≠ 0 then [8] else []) ++ (if t.dp = 1 ∧ bits (fld d 8 8) 63 52 ≠ 0 then [8] else []) ++
    (((List.range (min t.dims 6)).filter (fun i => fld d (16 + 4 * i) 4 = 0)).map (fun i => 16 + 4 * i)) ++
    (if t.conv ≠ .none ∧ fld d 16 4 % 4 ≠ 0 then [16] else []) ++
    (if 2 ^ 48 < t.total * t.es then [16] else []) ++
    (if space / 16 ≠ 0 ∨ t.sp = 3 ∨ t.dp = 3 ∨ (t.sp = 2 ∧ t.dp = 2) ∨ (mode ≠ 0 ∧ (t.sp ≠ 1 ∨ t.dp ≠ 0)) then [112] else []) ++
    (if elem / 16 ≠ 0 ∨ bits elem 3 2 = 3 ∨ (t.conv ≠ .none ∧ t.es ≠ 1) ∨ (mode ≠ 0 ∧ (t.es ≠ 8 ∨ t.conv ≠ .none)) then [113] else []) ++
    (if 128 ≤ t.cmp ∨ (mode ≠ 3 ∧ !([0, 1, 3, 4].contains ofmt)) ∨ (mode = 2 ∧ t.total ≠ 1) then [114] else []) ++
    (if t.dims = 0 ∨ 6 < t.dims ∨ (mode ≠ 0 ∧ 4 < t.dims) then [115] else []) ++
    (if 4 ≤ flags ∨ (t.runahead ∧ t.dp = 2) ∨ (mode ≠ 0 ∧ flags ≠ 0) then [116] else []) ++ (if bits (fld d 117 2) 15 6 ≠ 0 then [117] else []) ++
    (if fld d 119 1 ≠ 0 then [119] else [])
  let oes := if ofmt ≤ 1 then 1 else 2
  let dims := min t.dims 6
  let counts := t.counts.map (max 1)
  let dstErrs :=
    if t.dp = 3 then []
    else if mode = 0 then endErrors t.dp t.dst counts t.ds dims t.es t.es 8 76 (t.packed true)
    else if mode = 1 then
      endErrors 0 t.dst (counts.take 5 ++ [256]) (t.ds.take 4 ++ [0] ++ (t.ds.drop 5).take 1) 6 (256 * oes) oes 8 76 false
    else if mode = 2 then []
    else endErrors 0 t.dst counts t.ds dims 1024 2 8 76 false
  leastOf (bad ++ (if t.sp = 3 then [] else endErrors t.sp t.src counts t.ss dims t.es t.es 0 40 (t.packed false)) ++ dstErrs)

/-! ### The walk (R182, R185, R190, R191) -/

/-- What the ends of a share are: its core, context, link and PASID. -/
structure Ends where
  core : Nat
  ctx : Nat
  link : Nat
  pasid : Option (BitVec 20)
  deriving DecidableEq, Repr

def Ends.place (e : Ends) (sp : Nat) (a : Int) : Place :=
  if sp = 0 then .core e.core a.toNat else if sp = 1 then .dev e.ctx a.toNat else .host e.link e.pasid a.toNat

/-- Elements from index i of a run that fit in one transfer at one end: 4 KiB, and its page boundary (R185). -/
def endRoom (sp es i : Nat) (base : Int) (packed : Bool) : Nat :=
  let a := if packed then (base + (3 * (i / 4) : Nat)).toNat else (base + (i * es : Nat)).toNat
  let bnd := if sp = 2 then 4096 - a % 4096 else if sp = 1 then pageBytes - a % pageBytes else 4096
  if packed then min bnd 4096 / 3 * 4 - i % 4 else min bnd 4096 / es

/-- Cut elements i .. i + n - 1 of a run of dimension 0 into transfers. -/
def cutRun (t : StreamDesc) (e : Ends) (sb db : Int) (lin0 : Nat) : Nat → Nat → Nat → List Piece
  | 0, _, _ => []
  | f + 1, i, n =>
    if n = 0 then [] else
    let s0 := (t.ss[0]?).getD 0
    let d0 := (t.ds[0]?).getD 0
    let contig := (t.packed false || s0 == (t.es : Int)) && (t.packed true || d0 == (t.es : Int))
    let k := if contig then max 1 (min n (min (endRoom t.sp t.es i sb (t.packed false)) (endRoom t.dp t.es i db (t.packed true)))) else 1
    let at_ (b : Int) (st : Int) (packed : Bool) : Int := if packed then b else b + (i : Int) * st
    let p : Piece := { src := e.place t.sp (at_ sb s0 (t.packed false)), dst := e.place t.dp (at_ db d0 (t.packed true)),
                       es := t.es, conv := t.conv, i0 := i, first := lin0 + i, elems := k }
    p :: cutRun t e sb db lin0 f (i + k) (n - k)

def dotInt (xs : List Nat) (ys : List Int) : Int := (xs.zip ys).foldl (fun (a : Int) p => a + (p.1 : Int) * p.2) 0

/-- The transfers of one share: elements whose index along a dimension lies in [lo, hi). -/
def walk (t : StreamDesc) (e : Ends) (dim lo hi : Nat) : List Piece :=
  let c0 := t.count 0
  (List.range (t.total / max 1 c0)).flatMap (fun q =>
    let ix := digits q (t.counts.drop 1)
    if 1 ≤ dim ∧ !(lo ≤ (ix[dim - 1]?).getD 0 && (ix[dim - 1]?).getD 0 < hi) then [] else
    let sb := t.src + dotInt ix (t.ss.drop 1)
    let db := t.dst + dotInt ix (t.ds.drop 1)
    let a := if dim = 0 then lo else 0
    let b := if dim = 0 then hi else c0
    cutRun t e sb db (q * c0) (b - a) a (b - a))

/-- The address of an index entry (R285). -/
def entryAddr (e : Nat) : Nat := bits e 51 6 * 64

/-- The transfers of a block's factor read: cut at 4 KiB and at page boundaries (R185, R294). -/
def cutBlock (p : Piece) (x : Nat) : Nat → Nat → Nat → List Piece
  | 0, _, _ => []
  | f + 1, a, n =>
    if n = 0 then [] else
    let k := min n (min 4096 (pageBytes - a % pageBytes))
    { p with src := .dev x a, es := k } :: cutBlock p x f (a + k) (n - k)

/-- The bytes of a block: the distance to the next entry's address, of the 131,136 that an expander holds at most (R287, R294). -/
def blockExtent (e next : Nat) : Nat := min 131136 (max 64 (entryAddr next - entryAddr e))

/-- The transfers of one tile of a compressed stream (R290, R294); an entry that is 0, poisoned or unmapped leaves the entry's own read. -/
def State.blockPieces (s : State) (x a q : Nat) (dst : Place) : List Piece :=
  let p : Piece := { src := .dev x a, dst := dst, es := 8, first := q, elems := 1, entry := some a }
  match s.vaRead x a 16 with
  | some (es, false) => if fld es 0 8 = 0 then [p] else cutBlock p x 34 (entryAddr (fld es 0 8)) (blockExtent (fld es 0 8) (fld es 8 8))
  | _ => [p]

/-- The blocks of a compressed share: each index entry, and its tile's destination (R290). -/
def State.blockWalk (s : State) (t : StreamDesc) (e : Ends) (dim lo hi : Nat) : List Piece :=
  (List.range t.total).flatMap (fun q =>
    let ix := digits q t.counts
    if !(lo ≤ (ix[dim]?).getD 0 && (ix[dim]?).getD 0 < hi) then [] else
    s.blockPieces e.ctx (t.src + dotInt ix t.ss).toNat q (.core e.core (t.dst + dotInt ix (t.ds.take 4)).toNat))

/-! ### Bytes at the ends -/

/-- The bytes that one end of a piece covers. -/
def Piece.span (p : Piece) (dst : Bool) : Place × Nat :=
  let packed := if dst then p.conv == .pack else p.conv == .unpack
  let pl := if dst then p.dst else p.src
  if packed then
    let a := 3 * (p.i0 / 4)
    let n := 3 * ((p.i0 + p.elems - 1) / 4) + 3 - a
    (match pl with
     | .core c o => .core c (o + a)
     | .dev x o => .dev x (o + a)
     | .host l q o => .host l q (o + a)
     | q => q, n)
  else (pl, p.elems * p.es)

/-- Read bytes with their poison. -/
def State.readPlace (s : State) (p : Place) (n : Nat) : List (Byte × Bool) :=
  match p with
  | .core c off => let m := (s.core c).store
    (List.range n).map (fun i => (m.get (off + i), m.bad (off + i) 1))
  | .dev x a => (List.range n).map (fun i => match s.objAt x (a + i) with
    | some o => (o.mem.get (a + i - o.base), o.mem.bad (a + i - o.base) 1)
    | none => (0, false))
  | .host l q a => let m := s.hostMem q
    (s.hostRead l q a n).zipIdx.map (fun b => (b.1, m.bad (a + b.2) 1))
  | .pattern w => (List.range n).map (fun i => (BitVec.ofNat 8 (w.toNat >>> (8 * (i % 8))), false))

/-- Runs of bytes of equal poison at their offsets. -/
def poisonRuns : Nat → List (Byte × Bool) → List (Nat × Nat)
  | _, [] => []
  | i, (_, b) :: l => match poisonRuns (i + 1) l with
    | (j, n) :: r => if b ∧ j = i + 1 then (i, n + 1) :: r else if b then (i, 1) :: (j, n) :: r else (j, n) :: r
    | [] => if b then [(i, 1)] else []

/-- Write bytes; a granule that receives a poisoned byte is written poisoned (R472). -/
def State.writePlace (s : State) (uid : Nat) (p : Place) (bs : List (Byte × Bool)) : State :=
  let vs := bs.map (·.1)
  let bad := poisonRuns 0 bs
  match p with
  | .core c off => bad.foldl (fun st r => st.storeMarkFrom s c (off + r.1) r.2) (s.storeWrite c off vs)
  | .dev x a => bad.foldl (fun st r => st.vaMarkFrom s x (a + r.1) r.2) (s.vaWrite x a vs)
  | .host l q a =>
    (List.range ((a + bs.length + 63) / 64 - a / 64)).foldl (fun st i =>
      let lo := max a ((a / 64 + i) * 64)
      let hi := min (a + bs.length) ((a / 64 + i + 1) * 64)
      let part := (bs.drop (lo - a)).take (hi - lo)
      let b := part.any (·.2)
      let st1 := if b then st.count .fltPoisonCnt 0 0 0 32 (newMarks (st.hostMem q) lo (hi - lo)) else st
      if lo < hi then st1.hostLine l q uid lo (part.map (·.1)) b else st1) s
  | .pattern _ => s

/-- Element e of a packed run: its six bits in the 24-bit group (R184). -/
def sixBits (g : List (Byte × Bool)) (e : Nat) : Nat := bits (leNat (g.map (·.1))) (6 * (e % 4) + 5) (6 * (e % 4))

/-- The source bytes as the destination takes them (R184): for a packed destination, the elements are merged into its present bytes. -/
def Piece.convert (p : Piece) (src old : List (Byte × Bool)) : List (Byte × Bool) :=
  match p.conv with
  | .none => src
  | .unpack => (List.range p.elems).map (fun j =>
      let g := (src.drop (3 * ((p.i0 + j) / 4 - p.i0 / 4))).take 3
      (BitVec.ofNat 8 (sixBits g (p.i0 + j)), g.any (·.2)))
  | .pack => (List.range (old.length / 3)).flatMap (fun g =>
      let was := (old.drop (3 * g)).take 3
      let es := (List.range 4).map (fun j =>
        let i := (p.i0 / 4 + g) * 4 + j
        if p.i0 ≤ i ∧ i < p.i0 + p.elems then ((src[i - p.i0]?).map (fun b => (b.1.toNat % 64, b.2))).getD (0, false) else (sixBits was i, was.any (·.2)))
      let w := es.foldr (fun e acc => acc * 64 + e.1) 0
      (toLe 3 w).map (fun b => (b, es.any (·.2))))

/-- The page of a device place and whether it lies in T3. -/
def State.farPage (s : State) (p : Place) : Option (Obj × Page) := match p with
  | .dev x a => match s.pageAt x a with
    | some (o, g) => if g.tier = .t3 then some (o, g) else none
    | none => none
  | _ => none

/-- The source unit that ERR_POISON names (R474). -/
def State.placeUnit (s : State) (p : Place) (i : Nat) : Nat := match p with
  | .core c off => (s.core c).bankUnit (off + i)
  | .dev x a => s.vaUnit x (a + i)
  | _ => 0

/-! ### Failing and faults (R183, R204, R389) -/

/-- The place of a stream's bytes in its tensor's digest (R389). -/
def Stream.key (t : Stream) (p : Piece) : Nat := t.id * 2 ^ 64 + p.first

/-- The most recent fault of a stream's core is recorded (R215). -/
def State.noteFault (s : State) (id kind addr : Nat) : State :=
  match (s.stream? id).bind (·.core) with
  | some c => s.setReg .strFaultAddr c 0 (kind + addr / 4096 * 4096)
  | none => s

/-- A stream meets an unmapped device page: it ends its command (R205). -/
def State.failUnmapped (s : State) (id engine addr : Nat) : State :=
  ((s.modStream id (fun t => { t with faultKind := 3, faultAddr := addr })).noteFault id 3 addr).failStream id (errPage engine addr)

/-! ### Host pages and window lines (R457, R458, R461) -/

/-- The host page that a transfer waits for, at either end. -/
def State.pieceMiss (s : State) (p : Piece) : Option (Nat × Option (BitVec 20) × Nat) :=
  let miss (q : Place × Nat) : Option (Nat × Option (BitVec 20) × Nat) := match q.1 with
    | .host l pas a => (s.hostMiss l pas a q.2).map (fun g => (l, pas, g))
    | _ => none
  match miss (p.span false) with
  | some m => some m
  | none => miss (p.span true)

/-- Ask for the translation of a host page (R456, R458). -/
def State.askPage (s : State) (l : Nat) (pas : Option (BitVec 20)) (g : Nat) : State :=
  let k := s.link l
  if k.state ≠ .up ∨ k.atsReqs.contains (pas, g) ∨ k.pageReqs.contains (pas, g) then s
  else (s.modLink l (fun k => { k with atsReqs := k.atsReqs ++ [(pas, g)] })).count .hstAtsStat l 0 0 32

/-- The T2 window's object where a range of a context lies in it (R459). -/
def State.windowLines (s : State) (x addr n : Nat) : List Nat :=
  let cfg := s.reg .hstWinCfg 0 0
  if !s.boot.winLocked ∨ bits cfg 15 8 ≠ x then [] else
  match s.objOf x (bits cfg 47 16) with
  | some o => if addr < o.base + o.size ∧ o.base < addr + n then
      (List.range ((addr + n - 1) / 64 - addr / 64 + 1)).filterMap (fun i =>
        let a := (addr / 64 + i) * 64
        if o.base ≤ a ∧ a < o.base + o.size then some ((a - o.base) / 64) else none) else []
  | none => []

/-- Send a back-invalidate snoop of a window line on a link. -/
def State.sendSnoop (s : State) (l line : Nat) (inv : Bool) : State :=
  (s.modLink l (fun k => { k with biPending := k.biPending ++ [(line, inv)] })).countK .hstWinStat l 32 32 1

/-- Back-invalidate snoops that an access to device memory must await: the lines a link's host may hold (R461). A read waits for lines not known shared, a write for every tracked line. -/
def State.snoopWait (s : State) (x addr n : Nat) (write : Bool) : Option State :=
  let lines := s.windowLines x addr n
  if lines.isEmpty then none else
  let hit (l : Nat) : List Nat := lines.filter (fun i => (s.link l).snoop.any (fun e => e.1 == i && (write || e.2)) || (s.link l).biPending.any (fun e => e.1 == i))
  if (hit 0).isEmpty ∧ (hit 1).isEmpty then none else
  some ([0, 1].foldl (fun st l => (hit l).foldl (fun st i =>
    if (st.link l).biPending.any (fun e => e.1 == i) then st else st.sendSnoop l i write) st) s)

/-! ### Issuing (R185, R186, R204, R205) -/

/-- Trackers of a core in use, by one engine or both. -/
def State.trackers (s : State) (core : Option Nat) (engine : Option Nat) : Nat :=
  (s.moves.transfers.filter (fun t => match s.stream? t.stream with
    | some k => k.core == core && (match engine with
      | some e => k.engine == e
      | none => true)
    | none => false)).length

/-- Whether a stream may hold one more transfer: 256 of its engine, 512 and the ticket's DENSE of its core (R186). -/
def State.trackerFree (s : State) (t : Stream) : Bool :=
  decide (s.trackers t.core (some t.engine) < 256) &&
  (t.core.isNone || decide (s.trackers t.core none < min 512 t.dense))

/-- Whether a stream stands at a stream tile boundary: every 64 transfers of a core's share, so every 32 of its own where the share is dealt to two engines, between the blocks of a compressed stream, every 2 MiB of the copy engine (R207, R296). -/
def Stream.atTile (t : Stream) : Bool :=
  if t.cmp % 4 ≠ 0 then (match t.todo with
    | p :: _ => ((t.pieces.take (t.pieces.length - t.todo.length)).getLast?).map (fun q => q.first) != some p.first
    | [] => true)
  else if t.core.isSome then (t.pieces.length - t.todo.length) % t.tile == 0
  else (match t.todo with
    | p :: _ => decide (p.first % pageBytes < 4096)
    | [] => true)

/-- A stopping stream issues up to its next stream tile boundary; one stopped at the park limit issues no more (R206, R207). -/
def Stream.mayIssue (t : Stream) : Bool := !t.stopped && !t.halted && (!t.stopping || !t.atTile)

/-- Whether the core that a command's stream runs on may move: such a stream is a move phase of the core (R94, R195). -/
def State.streamMoves (s : State) (t : Stream) : Bool := match t.owner, t.core with
  | .job _, some c => s.mayMove c
  | _, _ => true

/-- The far reads of a transfer's source page (R244). -/
def State.farRead (s : State) (t : Stream) (tid : Nat) (o : Obj) (g : Page) (a n : Nat) : Option (State × Nat) :=
  let lo := a / 64
  let hi := (a + n + 63) / 64
  let chill := ((s.cmd? t.uid).map (·.chill)).getD false
  (List.range (cdiv (hi - lo) 64)).foldl (fun (acc : Option (State × Nat)) i => match acc with
    | some (st, k) =>
      let first := lo + 64 * i
      let m := min 64 (hi - first)
      (st.sendFar 1 (.read tid (first * 64)) t.uid g.place (g.farAddr ((first * 64 - o.base) % pageBytes)) m [] chill).map (fun st1 => (st1, k + 1))
    | none => none) (some (s, 0))

/-- Park a transfer on a fault: the progress descriptor shows it (R204, R205). -/
def State.park (s : State) (id tid : Nat) (kind : ParkKind) (addr : Nat) : State :=
  let s1 := (s.noteFault id (if kind = .hostPage then 1 else 2) addr).modTransfer tid (fun x => { x with parked := some kind, faultAddr := addr })
  ((match (s.stream? id).bind (·.core) with
   | some c => s1.count .strPark c 0 0 32
   | none => s1).settleInv).showProgress id

/-- Send a transfer on its way: translations at both ends, then the far reads of a T3 source; it parks where a page or a port is wanting (R205, R467). -/
def State.launchTransfer (s : State) (id tid : Nat) : State :=
  match s.stream? id, s.moves.transfers.find? (·.id == tid) with
  | some t, some x =>
    (match s.pieceMiss x.piece with
     | some (l, pas, g) =>
       if (s.link l).state = .down ∨ (s.link l).state = .training then s.park id tid .hostPage (g * 4096)
       else (s.askPage l pas g).modTransfer tid (fun x => { x with atsWait := true })
     | none =>
       let src := x.piece.span false
       match s.farPage src.1, src.1 with
       | some (o, g), .dev _ a =>
         (match s.farRead t tid o g a src.2 with
          | some (s1, n) => s1.modTransfer tid (fun x => { x with farPending := n, farData := [] })
          | none => s.park id tid .farTier a)
       | _, _ => s)
  | _, _ => s

/-- The first unmapped device address of a piece. -/
def State.pieceUnmapped (s : State) (p : Piece) : Option Nat :=
  let un (q : Place × Nat) : Option Nat := match q.1 with
    | .dev x a => s.unmapped x a q.2
    | _ => none
  match un (p.span false) with
  | some a => some a
  | none => un (p.span true)

/-- Issue transfers in order while trackers are free; an unmapped page ends the stream (R186, R205). The fuel is the number of pieces left. -/
def State.issueN : Nat → Nat → State → State
  | 0, _, s => s
  | f + 1, id, s =>
    match s.stream? id with
    | some t => match t.todo with
      | p :: rest =>
        if !t.mayIssue ∨ !s.streamMoves t ∨ !s.trackerFree t then s else
        (match s.pieceUnmapped p with
         | some a => s.failUnmapped id t.engine a
         | none =>
           let tid := s.moves.nextId
           let s1 : State := { s with moves := { s.moves with nextId := tid + 1, transfers := s.moves.transfers ++ [{ id := tid, stream := id, piece := p }] } }
           let s2 := s1.modStream id (fun k => { k with todo := rest })
           let s3 := match t.core with
             | some c => s2.peak .strOutst c 0 32 10 (s2.trackers (some c) none)
             | none => s2
           State.issueN f id (s3.launchTransfer id tid))
      | [] => s
    | none => s

def State.issueStream (s : State) (id : Nat) : State := match s.stream? id with
  | some t => State.issueN t.todo.length id s
  | none => s

/-! ### Ending -/

/-- A run-ahead stream whose buffers are committed and complete leaves them (R212). -/
def State.settleProv (s : State) : State :=
  let gone := s.memory.provisional.filter (fun v => v.done && v.committed)
  gone.foldl (fun st v => st.count .strProv v.core 0 0 32) { s with memory := { s.memory with provisional := s.memory.provisional.filter (fun v => !(v.done && v.committed)) } }

/-- A stream with nothing left to move ends (R103, R204). -/
def State.endStream (s : State) (id : Nat) : State :=
  match s.stream? id with
  | some t =>
    if !t.todo.isEmpty ∨ !(s.outstanding id).isEmpty then s else
    let s1 := s.showProgress id
    let s2 : State := { s1 with
      moves := { s1.moves with streams := s1.moves.streams.filter (fun k => k.id != id) },
      memory := { s1.memory with provisional := upd s1.memory.provisional (fun v => v.sid == id) (fun v => { v with done := true }) } }
    let s3 := s2.settleProv
    (match t.owner with
     | .engine c e => s3.modRun c (fun r => r.setEngine e { r.engine e with streaming := false })
     | .job _ => s3)
  | none => s

/-- A stopping stream at its tile boundary, with every unparked transfer landed, drops its parked transfers and stops (R206). -/
def State.stopStream (s : State) (id : Nat) : State :=
  match s.stream? id with
  | some t =>
    let outs := s.outstanding id
    if t.stopping ∧ !t.stopped ∧ !t.mayIssue ∧ outs.all (·.parked.isSome) then
      let low := s.low t
      let pages := outs.filterMap (fun x => (s.pieceMiss x.piece).map (fun m => (m.2.1, m.2.2)))
      let s1 := s.modStream id (fun k => { k with stopped := true, awaits := pages, parts := [], todo := k.pieces.filter (fun p => decide (low < p.first + p.elems)) })
      let ids := outs.map (·.id)
      { s1 with moves := { s1.moves with transfers := s1.moves.transfers.filter (fun x => !ids.contains x.id) } }
    else s
  | none => s

/-! ### Landing (R186, R200, R472) -/

/-- Read the source of a transfer: far data where its page lies in T3. -/
def State.sourceBytes (s : State) (x : Transfer) : List (Byte × Bool) :=
  if x.writing then x.sent else
  let src := x.piece.span false
  match src.1 with
  | .dev _ a => if x.farData.isEmpty then s.readPlace src.1 src.2 else
      (List.range src.2).map (fun i => match x.farData.find? (fun f => decide (f.addr ≤ a + i ∧ a + i < f.addr + f.bytes.length)) with
        | some f => ((f.bytes[a + i - f.addr]?).getD 0, f.mask.testBit ((a + i - f.addr) / 64))
        | none => (0, false))
  | p => s.readPlace p src.2

/-- Translate and count the pages that an end touches (R221, R229). -/
def State.touchPlace (s : State) (core : Option Nat) (p : Place × Nat) : State := match p.1 with
  | .dev x a => s.vaAccess core x a p.2
  | _ => s

/-- A transfer's read of host memory passes the host-line cache of its link's die (R188, R453). -/
def State.touchSource (s : State) (t : Stream) (p : Place × Nat) : State := match p.1 with
  | .host l q a => s.hostTouch l q a p.2 (!t.noAlloc)
  | _ => s

/-- The streams of a core in the order in which they issue when a tracker of theirs frees: the stream itself, then the others (R186). -/
def State.issueCore (s : State) (t : Stream) : State :=
  let others := (s.moves.streams.filter (fun k => k.id != t.id && t.core.isSome && k.core == t.core)).map (·.id)
  others.foldl (fun st i => (st.issueStream i).endStream i) (s.issueStream t.id)

/-- A transfer has landed: its tracker frees, the counters advance, the streams of its core go on (R186, R215). -/
def State.landed (s : State) (x : Transfer) (t : Stream) (n : Nat) : State :=
  let s1 : State := { s with moves := { s.moves with transfers := s.moves.transfers.filter (fun y => y.id != x.id) } }
  let s2 := match t.core with
    | some c =>
      let r := (s1.core c).mibRest + n
      ((s1.count .strXfer c 0 0 32).count .strXfer c 0 32 32 (r / 2 ^ 20)).modCore c (fun k => { k with mibRest := r % 2 ^ 20 })
    | none => s1
  let s3 := match t.owner with
    | .job _ => s2.modCmd t.uid (fun k => { k with progress := s2.progressOf t.uid })
    | _ => s2
  (((s3.settleInv).issueCore t).stopStream t.id).endStream t.id

/-- Store a transfer's bytes at its destination, every granule of which is provisional from a run-ahead stream's first write (R210); a T3 destination is written by far requests first, unless they have been acknowledged. -/
def State.deliver (s : State) (x : Transfer) (t : Stream) (allBad : Bool) : State :=
  let src := x.piece.span false
  let dst := x.piece.span true
  let raw := s.sourceBytes x
  let got := if allBad then raw.map (fun b => (b.1, true)) else raw
  let out := x.piece.convert got (s.readPlace dst.1 dst.2)
  match s.farPage dst.1, dst.1, x.writing with
  | some (o, g), .dev _ a, false =>
    let chill := ((s.cmd? t.uid).map (·.chill)).getD false
    (match s.farWrite (.write x.id) t.uid g ((a - o.base) % pageBytes) (out.map (·.1)) chill with
     | some (s1, n) => s1.modTransfer x.id (fun y => { y with writing := true, sent := got, farPending := n })
     | none => s.park t.id x.id .farTier a)
  | _, _, _ =>
    let s1 := ((s.touchSource t src).writePlace t.uid dst.1 out).touchPlace t.core src |>.touchPlace t.core dst
    let s2 := match got.findIdx? (·.2) with
      | some i => match t.owner with
        | .engine c _ => s1.taintCore c 1 (s.placeUnit src.1 i)
        | .job _ => s1.taint t.uid 1 (s.placeUnit src.1 i)
      | none => s1
    let uses (p : Place × Nat) (h : HlcLine) : Bool := match p.1 with
        | .host l q a => h.die == l && h.pasid == q && decide (a / 64 ≤ h.line ∧ h.line ≤ (a + p.2 - 1) / 64)
        | _ => false
    let s3 := if t.noAlloc then s2.dropLines (fun h => uses src h || uses dst h) else s2
    let s4 := match dst.1 with
      | .core _ _ => if s3.pair.t0 then s3.digestWrite t.uid t.tensor t.lcore t.engine (out.map (·.1)) (t.key x.piece) else s3
      | _ => s3.digestWrite t.uid t.tensor t.lcore t.engine (out.map (·.1)) (t.key x.piece)
    let s5 : State := if t.runahead then { s4 with memory := { s4.memory with provisional := upd s4.memory.provisional (fun v => v.sid == t.id) (fun v => { v with places := t.pieces.map (·.span true) }) } } else s4
    s5.landed x t dst.2

/-- Whether an end of a transfer awaits back-invalidate snoops. -/
def State.pieceSnoop (s : State) (p : Piece) : Option State :=
  let sn (q : Place × Nat) (w : Bool) : Option State := match q.1 with
    | .dev x a => s.snoopWait x a q.2 w
    | _ => none
  match sn (p.span false) false with
  | some s1 => some s1
  | none => sn (p.span true) true

/-- A command that waits for back-invalidate snoops of the ranges it reads or writes (address, bytes, write): it is held until they are answered. -/
def State.waitLines (s : State) (c : Running) (ranges : List (Nat × Nat × Bool)) : Option State :=
  (ranges.findSome? (fun r => s.snoopWait c.space r.1 r.2.1 r.2.2)).map (fun s1 => s1.modCmd c.uid (fun k => { k with work := .held }))

end Sys2Proof.Machine
end

