-- ==== Sys2Proof/Machine/Lowrank.lean ====
section
/-! DEFINITION. Low-rank compression: factor blocks, their checks and expansion, index tables (R281 to R299). -/

namespace Sys2Proof.Machine
open Sys2Proof

/-! ### Blocks (R282 to R284, R287) -/

/-- The valid LENGTH of a block for its rank and SHARED_V (R283). -/
def validLength (k : Nat) (shared : Bool) : Nat := 64 + (if shared then 512 else 1024) * k

def blockRank (h : List Byte) : Nat := fld h 2 1
def blockShared (h : List Byte) : Bool := bit (fld h 3 1) 4

/-- What the first checks of R287 are made against: the distance of check 4, the tile of check 6, the entry of check 7, and whether V must be stored (check 2, R291). -/
structure BlockAt where
  dist : Nat → Bool
  tile : Option (Nat × Nat)
  entry : Option Nat
  stored : Bool := false

/-- The first check of 1 to 7 that a block fails (R287). -/
def blockCheck (b : List Byte) (w : BlockAt) : Option Nat :=
  let k := blockRank b
  let sh := blockShared b
  let fmt := bits (fld b 3 1) 3 0
  let len := fld b 4 4
  if fld b 0 2 ≠ 0xF7C1 then some 1
  else if k = 0 ∨ 128 < k ∨ (fmt ≠ 3 ∧ fmt ≠ 4) ∨ bits (fld b 3 1) 7 5 ≠ 0 ∨ !zeros b 16 46 ∨ (sh ∧ (2 ^ lg k ≠ k ∨ fmt ≠ 4 ∨ w.stored)) then some 2
  else if len ≠ validLength k sh then some 3
  else if !w.dist len then some 4
  else if fld b 62 2 ≠ crc16 (b.take 62 ++ (b.drop 64).take (len - 64)) then some 5
  else match w.tile with
    | some (r, c) => if fld b 8 2 ≠ r ∨ fld b 10 2 ≠ c then some 6 else entryCheck k sh
    | none => entryCheck k sh
where
  entryCheck (k : Nat) (sh : Bool) : Option Nat := match w.entry with
    | some e => if e = 0 ∨ bits e 58 52 ≠ k - 1 ∨ bit e 59 ≠ sh then some 7 else none
    | none => none

/-- The most bytes that reading a block takes: its header, and its payload where the header's rank is one that exists. -/
def State.blockBytes (s : State) (x addr : Nat) : Except Nat (List Byte × Option Nat) :=
  match s.vaRead x addr 64 with
  | none => .error ((s.unmapped x addr 64).getD addr)
  | some (h, bad) =>
    let n := if 1 ≤ blockRank h ∧ blockRank h ≤ 128 then validLength (blockRank h) (blockShared h) else 64
    if bad then .ok (h, some addr) else
    match s.vaRead x addr n with
    | none => .error ((s.unmapped x addr n).getD addr)
    | some (b, bad) => .ok (b, if bad then (match s.objAt x addr with
        | some o => some (o.base + o.mem.firstBad (addr - o.base) n)
        | none => some addr) else none)

/-- What reading a block whole finds: an unmapped page, poison, the first check that fails, or the block. -/
inductive BlockRead where
  | page (addr : Nat) | poison (addr : Nat) | bad (check : Nat) | good (b : List Byte)
  deriving DecidableEq, Repr

/-- Read a block whole and judge it (R287); where its payload is not all mapped, the checks that its header alone decides come first. -/
def State.judgeBlock (s : State) (x addr : Nat) (w : BlockAt) : BlockRead :=
  match s.blockBytes x addr with
  | .ok (_, some g) => .poison g
  | .ok (b, none) => match blockCheck b w with
    | some k => .bad k
    | none => .good b
  | .error u => match s.vaRead x addr 64 with
    | some (h, _) => (match blockCheck h w with
      | some k => if k ≤ 4 then .bad k else .page u
      | none => .page u)
    | none => .page u

/-! ### Expansion (R293, R298) -/

/-- An FP value of a factor. -/
def factor (b : List Byte) (off : Nat) : Num := elemNum (bits (fld b 3 1) 3 0) (fld b off 2)

/-- W[i, j] of a block before conversion. -/
def expandElem (b : List Byte) (seed step i j : Nat) : Num :=
  let k := blockRank b
  let sh := blockShared b
  let u (r : Nat) : Num := factor b (64 + (i * k + r) * 2)
  let v (r : Nat) : Num :=
    if sh then .fin ((rand seed (fld b 12 4) 4 step (256 * r + j)).testBit 0) 1 0
    else factor b (64 + 512 * k + (r * 256 + j) * 2)
  let acc := (List.range k).foldl (fun (a : BitVec 32) r => rne ((num a).add ((u r).mul (v r)))) 0
  if sh then (num acc).scale (-(lg k : Int)) else num acc

/-- W[i, j] as OFMT writes it. -/
def expandCode (cmp : Nat) (b : List Byte) (seed step i j : Nat) : Nat :=
  match fmtOf (bits cmp 5 2) with
  | some f => (f.enc (bit cmp 6) (expandElem b seed step i j)).bits
  | none => 0

def expandEs (cmp : Nat) : Nat := if bits cmp 5 2 ≤ 1 then 1 else 2

/-! ### A compressed stream (R290 to R296, R299) -/

/-- Whether a range meets a PROTECTED object. -/
def State.protectedIn (s : State) (x addr n : Nat) : Bool := (pieces addr n).any (fun p => ((s.objAt x p.1).map (·.prot)).getD false)

/-- Whether a compressed share reads a PROTECTED object: its index entries and its blocks (R299). -/
def State.touchesProtected (s : State) (x : Nat) (ps : List Piece) : Bool :=
  ps.any (fun p => (match p.src with
    | .dev _ a => s.protectedIn x a p.es
    | _ => false) || (p.entry.map (fun a => s.protectedIn x a 8)).getD false)

/-- The base of the index table that an entry's address lies in: the highest header below it whose BLOCKS reach it (R285; DEDUCED, log entry 17). -/
def State.tableOfEntry (s : State) (x a : Nat) : Option Nat := match s.objAt x a with
  | none => none
  | some o =>
    let header (b : Nat) : Bool := b % 64 == 0 && decide (o.base ≤ b ∧ b + 64 ≤ a) && (match s.vaRead x b 8 with
      | some (h, _) => fld h 0 2 == 0xF7C2 && decide (a < b + 64 + 8 * fld h 4 4)
      | none => false)
    ((o.mem.cells.map (fun c => o.base + c.1)).filter header).foldl (fun best b => some (max b (best.getD 0))) none

/-- The number of the block that the entry at an address names; where no table's header stands before the entry, any number that agrees with the address, tables being 64-byte aligned (R285, R287; log entry 17). -/
def State.blockNumber (s : State) (x a : Nat) : Nat × State :=
  let (n, s1) := s.draw
  ((match s.tableOfEntry x a with
    | some b => (a - b - 64) / 8
    | none => n * 8 + a / 8 % 8) % 2 ^ 32, s1)

/-- A block of a stream fails a check: its core records it, the stream issues no more, the command's other streams stop at their next stream tile boundary, and the failure with the lowest check,
then the lowest block number, of those of one tick is kept for the command's end (R287, R295). -/
def State.damaged (s : State) (t : Stream) (x entry check : Nat) : State :=
  let (j, s1) := s.blockNumber x entry
  let s2 := match t.core with
    | some c => (s1.count .cmpExp c 0 32 16).setReg .cmpLast c 0 (j + check * 2 ^ 32)
    | none => s1
  let low := s2.low t
  let ids := (s2.outstanding t.id).map (·.id)
  let mine (f : Far) : Bool := match f.use with
    | .read i _ => ids.contains i
    | _ => false
  let kept : Nat × Nat × Nat := match mget s2.moves.damages t.uid with
    | some (n, k, b) => if n < s2.now ∨ k < check ∨ (k = check ∧ b ≤ j) then (n, k, b) else (n, check, j)
    | none => (s2.now, check, j)
  let s3 := s2.showProgress t.id true
  { s3 with
    moves := { s3.moves with
      damages := mset s3.moves.damages t.uid kept
      transfers := s3.moves.transfers.filter (fun x => x.stream != t.id)
      streams := s3.moves.streams.map (fun (k : Stream) =>
        if k.id = t.id then { k with stopping := true, stopped := true, todo := k.pieces.filter (fun p => decide (low < p.first + p.elems)) }
        else if k.uid = t.uid then { k with stopping := true } else k) }
    memory := { s3.memory with far := s3.memory.far.filter (fun f => !mine f) } }

/-- Commands whose blocks failed end once the streams they still run have stopped (R295); a stream begun meanwhile stops as well. -/
def State.damagesAtTick (s : State) : State :=
  s.moves.damages.foldl (fun (st : State) d =>
    let gone : State := { st with moves := { st.moves with damages := mdel st.moves.damages d.1 } }
    if ((st.cmd? d.1).map (fun c => c.reply.isSome)).getD true then gone else
    let st1 : State := { st with moves := { st.moves with streams := st.moves.streams.map (fun (k : Stream) => if k.uid = d.1 then { k with stopping := true } else k) } }
    let st2 := ((st1.moves.streams.filter (fun k => k.uid == d.1)).map (fun k => k.id)).foldl State.stopStream st1
    if (st2.moves.streams.filter (fun k => k.uid == d.1)).all (·.stopped) then
      ({ st2 with moves := { st2.moves with damages := mdel st2.moves.damages d.1 } } : State).failWork d.1 (errDamaged d.2.2.1 d.2.2.2)
    else st2) s

/-- Write one expanded tile (R291, R292). -/
def State.expandTile (s : State) (t : Stream) (x : Transfer) (b : List Byte) (seed step : Nat) : State :=
  let es := expandEs t.cmp
  match x.piece.dst with
  | .core c off =>
    if t.cmp % 4 = 1 then
      (List.range 256).foldl (fun st i =>
        let bs := (List.range 256).flatMap (fun j => toLe es (expandCode t.cmp b seed step i j))
        let st1 := st.storeWrite c ((off : Int) + i * t.step).toNat bs
        if st1.pair.t0 then st1.digestWrite t.uid t.tensor t.lcore t.engine bs (t.key x.piece) else st1) s
    else if t.cmp % 4 = 2 then
      (List.range 4).foldl (fun st a =>
        let lines := (List.range 64).map (fun n => (List.range 256).map (fun i => expandCode t.cmp b seed step i (64 * a + n)))
        st.modArray c a (fun k => { k with tagB := some ({
          addr := off + 64 * a * es, stride := t.step, k := 256, n := 64, fmt := bits t.cmp 5 2, scale := 0, lines := lines,
          scales := lines.map (fun _ => []), bad := [] } : Tag) })) s
    else
      let s1 := s.storeWrite c off (b.drop 64)
      if s1.pair.t0 then s1.digestWrite t.uid t.tensor t.lcore t.engine (b.drop 64) (t.key x.piece) else s1
  | _ => s

/-- The bytes of a block as its factor read brought them: those from far memory as its expander sent them. -/
def overlaid (parts : List FarPart) (addr : Nat) (b : List Byte) : List Byte :=
  if parts.isEmpty then b else b.zipIdx.map (fun p => match parts.find? (fun f => decide (f.addr ≤ addr + p.2 ∧ addr + p.2 < f.addr + f.bytes.length)) with
    | some f => (f.bytes[addr + p.2 - f.addr]?).getD 0
    | none => p.1)

/-- The last part of a factor block has arrived: its checks, then its tile (R294, R295). -/
def State.landBlock (s : State) (x : Transfer) (t : Stream) (cx a : Nat) : State :=
  match s.vaRead cx a 16 with
  | none => s.failUnmapped t.id t.engine ((s.unmapped cx a 16).getD a)
  | some (es, tbad) =>
    let e := fld es 0 8
    let at_ := entryAddr e
    let n := blockExtent e (fld es 8 8)
    if tbad then s.failStream t.id (errPoison 1 (s.vaUnit cx a))
    else if e = 0 then s.damaged t cx a 7
    else match s.vaRead cx at_ n with
      | none => s.failUnmapped t.id t.engine ((s.unmapped cx at_ n).getD at_)
      | some (_, true) => s.failStream t.id (errPoison 1 (s.vaUnit cx (match s.objAt cx at_ with
        | some o => o.base + o.mem.firstBad (at_ - o.base) n
        | none => at_)))
      | some (near, false) =>
        let b := overlaid t.parts at_ near
        match blockCheck b { dist := fun n => n + at_ == entryAddr (fld es 8 8), tile := none, entry := some e, stored := t.cmp % 4 == 3 } with
        | some k => s.damaged t cx a k
        | none =>
          let seed := ((s.ctx? cx).map (·.seed)).getD 0
          let step := ((s.cmd? t.uid).map (·.step)).getD 0
          let beyond : Bool := match x.piece.dst with
            | .core _ o => decide (storeBytes < o + (b.length - 64))
            | _ => false
          if t.cmp % 4 = 3 ∧ beyond then s.failStream t.id (errFormat 8)
          else
            let s1 := (s.expandTile t x b seed step).vaAccess t.core cx a 16
            let s2 := match t.core with
              | some c => if t.cmp % 4 = 3 then s1 else s1.count .cmpExp c 0 0 32
              | none => s1
            (s2.modStream t.id (fun k => { k with parts := [] })).landed x { t with parts := [] } x.piece.es

/-- A transfer of a factor read lands: poison ends the command with no check of the block (R287); the block is judged when its last part has come (R294). -/
def State.landPart (s : State) (x : Transfer) (t : Stream) (allBad : Bool) : State :=
  match x.piece.entry, x.piece.src with
  | some a, .dev cx b =>
    if allBad ∨ x.farData.any (fun f => f.mask != 0) then s.failStream t.id (errPoison 1 (s.vaUnit cx b)) else
    let t1 : Stream := { t with parts := t.parts ++ x.farData }
    let s1 := ((s.modStream t.id (fun _ => t1)).touchSource t (x.piece.span false)).touchPlace t.core (x.piece.span false)
    if (s.outstanding t.id).any (fun y => y.id != x.id && y.piece.first == x.piece.first) ∨ t.todo.any (fun p => p.first == x.piece.first) then s1.landed x t1 x.piece.es
    else s1.landBlock x t1 cx a
  | _, _ => s

/-! ### Index tables (R285, R286, R288) -/

/-- An index entry. -/
def indexEntry (addr k : Nat) (shared : Bool) : Nat := addr / 64 * 2 ^ 6 + k * 2 ^ 52 + (if shared then 2 ^ 59 else 0)

/-- Walk a factor stream: the entries that pass and the bytes read, and where a block fails, or its entry has nowhere to go, why. -/
def State.walkBlocks (s : State) (x src dst bytes cols n : Nat) : Nat → Nat → Nat → List Nat → List Nat × Nat × Option Reply
  | 0, j, pos, es => (es ++ [indexEntry (src + pos) 0 false], pos, (s.unmapped x (dst + 64 + 8 * j) 8).map (fun a => errPage 9 a j))
  | f + 1, j, pos, es =>
    let dist (len : Nat) : Bool := if j + 1 = n then pos + len == bytes else decide (pos + len < bytes)
    let stop (r : Reply) : List Nat × Nat × Option Reply := (es ++ [0], pos + 64, some { r with progress := j })
    match s.judgeBlock x (src + pos) { dist := dist, tile := some (j / cols, j % cols), entry := none } with
    | .page u => stop (errPage 9 u)
    | .poison g => stop (errPoison 1 (s.vaUnit x g))
    | .bad k => stop (errDamaged k j)
    | .good b => match s.unmapped x (dst + 64 + 8 * j) 8 with
      | some a => stop (errPage 9 a)
      | none => State.walkBlocks s x src dst bytes cols n f (j + 1) (pos + fld b 4 4) (es ++ [indexEntry (src + pos) (blockRank b - 1) (blockShared b)])

/-- A refusal over a PROTECTED object is counted (R299). -/
def State.refuseProtected (s : State) (c : Running) (off : Nat) : Except Stop (State × Option Reply) :=
  .ok (s.count .cmpRefused c.part 0 0 16, some (errFormat off))

/-- CMP_INDEX (R285, R286, R299). -/
def bodyCmpIndex : Body := fun c s => do
  plenIs c 16
  noTicket c
  let src := c.u 40 8
  let dst := c.u 48 8
  need (src % 64 == 0 && decide (src < 2 ^ 52)) (errFormat 40)
  need (dst % 64 == 0 && decide (dst < 2 ^ 52)) (errFormat 48)
  reserved c 56 8
  let bytes := c.u 64 8
  need (decide (64 ≤ bytes ∧ bytes ≤ 2 ^ 46)) (errFormat 64)
  need (c.u 72 2 ≠ 0) (errFormat 72)
  need (c.u 74 2 ≠ 0) (errFormat 74)
  reserved c 76 4
  let n := c.u 72 2 * c.u 74 2
  if s.protectedIn c.space src bytes then s.refuseProtected c 40
  else if s.protectedIn c.space dst (64 + 8 * (n + 1)) then s.refuseProtected c 48
  else match s.waitLines c [(src, bytes, false), (dst, 64 + 8 * (n + 1), true)] with
  | some s1 => .ok (s1, none)
  | none =>
    let put (st : State) (es : List Nat) : State :=
      let bs := es.flatMap (toLe 8)
      ((st.vaWrite c.space (dst + 64) bs).vaTouch c.space (dst + 64) bs.length).digestWrite c.uid 0 0 9 bs
    match s.walkBlocks c.space src dst bytes (c.u 74 2) n n 0 0 [] with
    | (es, pos, some r) => .ok ((put s es).vaTouch c.space src pos, some r)
    | (es, _, none) => match s.unmapped c.space dst 64 with
      | some a => .ok ((put s es).vaTouch c.space src bytes, some (errPage 9 a n))
      | none =>
        let hdr := toLe 2 0xF7C2 ++ toLe 2 0 ++ toLe 4 n ++ toLe 2 (c.u 72 2) ++ toLe 2 (c.u 74 2) ++
          toLe 4 (((s.objAt c.space src).map (·.handle)).getD 0) ++ toLe 8 src ++ toLe 8 bytes ++ List.replicate 30 0
        let h := hdr ++ toLe 2 (crc16 (hdr ++ es.flatMap (toLe 8)))
        .ok (((((put s es).vaWrite c.space dst h).vaTouch c.space dst 64).digestWrite c.uid 0 0 9 h).vaTouch c.space src bytes, some (okProgress n))

/-- The blocks of a table from one on: the first failure. Check 4 is made as the index has it and as the stream has it, its end at `last` (R287, R288). -/
def State.verifyBlocks (s : State) (x table cols n last : Nat) : Nat → Nat → Option Reply
  | 0, _ => none
  | f + 1, j =>
    match s.vaRead x (table + 64 + 8 * j) 16 with
    | none => some (errPage 9 ((s.unmapped x (table + 64 + 8 * j) 16).getD 0) j)
    | some (es, tbad) =>
      let e := fld es 0 8
      if tbad then some { (errPoison 1 (s.vaUnit x (table + 64 + 8 * j))) with progress := j } else
      if e = 0 then some (errDamaged 7 j j) else
      let dist (len : Nat) : Bool := len + entryAddr e == entryAddr (fld es 8 8) && (if j + 1 = n then len + entryAddr e == last else decide (len + entryAddr e < last))
      match s.judgeBlock x (entryAddr e) { dist := dist, tile := some (j / cols, j % cols), entry := some e } with
      | .page u => some (errPage 9 u j)
      | .poison g => some { (errPoison 1 (s.vaUnit x g)) with progress := j }
      | .bad k => some (errDamaged k j j)
      | .good _ => State.verifyBlocks s x table cols n last f (j + 1)

/-- The pages of a table and of some of its blocks have been read (R229). -/
def State.sawBlocks (s : State) (x table first count : Nat) : State :=
  (List.range count).foldl (fun st i => match s.vaRead x (table + 64 + 8 * (first + i)) 16 with
    | some (es, _) => st.vaTouch x (entryAddr (fld es 0 8)) (blockExtent (fld es 0 8) (fld es 8 8))
    | none => st) (s.vaTouch x table (64 + 8 * (first + count + 1)))

/-- CMP_VERIFY (R287, R288, R299). -/
def bodyCmpVerify : Body := fun c s => do
  noTicket c
  let t := c.u 40 8
  need (t % 64 == 0 && decide (t < 2 ^ 52)) (errFormat 40)
  reserved c 56 8
  if s.protectedIn c.space t 64 then s.refuseProtected c 40 else
  match s.vaRead c.space t 64 with
  | none => fail (errPage 9 ((s.unmapped c.space t 64).getD t))
  | some (h, bad) =>
    need (!bad) (errPoison 1 (s.vaUnit c.space t))
    need (fld h 0 2 == 0xF7C2) (errDamaged 8 0xFFFFFFFF)
    let n := fld h 4 4
    match s.vaRead c.space (t + 64) (8 * (n + 1)) with
    | none => fail (errPage 9 ((s.unmapped c.space (t + 64) (8 * (n + 1))).getD t))
    | some (es, bad) =>
      need (!bad) (errPoison 1 (s.vaUnit c.space (t + 64)))
      need (fld h 62 2 == crc16 (h.take 62 ++ es)) (errDamaged 8 0xFFFFFFFF)
      need (decide (c.u 48 4 ≤ n)) (errFormat 48)
      need (decide (c.u 48 4 + c.u 52 4 ≤ n)) (errFormat 52)
      let k := if c.u 52 4 = 0 then n - c.u 48 4 else c.u 52 4
      match s.waitLines c [(t, 64 + 8 * (n + 1), false), (fld h 16 8, fld h 24 8, false)] with
      | some s1 => .ok (s1, none)
      | none =>
        match s.verifyBlocks c.space t (max 1 (fld h 10 2)) n (fld h 16 8 + fld h 24 8) k (c.u 48 4) with
        | some r => .ok (s.sawBlocks c.space t (c.u 48 4) (r.progress - c.u 48 4), some { r with progress := r.progress - c.u 48 4 })
        | none => .ok (s.sawBlocks c.space t (c.u 48 4) k, some (okProgress k))

def execCmpIndex := opcodeStep 0x0A01 false false bodyCmpIndex
def execCmpVerify := opcodeStep 0x0A02 false false bodyCmpVerify

end Sys2Proof.Machine
end

