-- ==== Sys2Proof/Machine/Ladles.lean ====
section
/-! DEFINITION. The ladles and the memory-side adders: LADLE, MADD, staged Chill adds (R251 to R280). -/

namespace Sys2Proof.Machine
open Sys2Proof

/-- The operation of a core's gather engine that may start now, with its descriptor of n bytes, when it has this code. -/
def State.gatherOp (s : State) (c op n : Nat) : Option (Run × Queued × Except Reply (List Byte)) :=
  match s.startable c 8 with
  | some (r, q) => if q.op.op.toNat = op then some (r, q, s.opDesc c q n 0xB) else none
  | none => none

/-! ### The LADLE descriptor (R256 to R258) -/

/-- A LADLE descriptor. -/
structure LadleDesc where
  x : Nat
  y : Nat
  z : Nat
  len : Nat
  func : Nat
  fx : Nat
  fz : Nat
  sat : Bool
  alpha : BitVec 32
  beta : BitVec 32
  shift : Int
  rOff : Nat
  deriving DecidableEq, Repr

def ladleDesc (d : List Byte) : LadleDesc :=
  { x := fld d 0 8, y := fld d 8 8, z := fld d 16 8, len := fld d 24 8, func := fld d 32 1, fx := bits (fld d 33 1) 3 0, fz := bits (fld d 33 1) 7 4,
    sat := bit (fld d 34 1) 0, alpha := BitVec.ofNat 32 (fld d 36 4), beta := BitVec.ofNat 32 (fld d 40 4), shift := sfld d 44 4, rOff := fld d 48 4 }

def LadleDesc.reduces (t : LadleDesc) : Bool := t.func == 0x10 || t.func == 0x11
def LadleDesc.takesY (t : LadleDesc) : Bool := 1 ≤ t.func && t.func ≤ 3
def LadleDesc.es (t : LadleDesc) : Nat := es2 t.fx / 2

/-- Whether a range lies in live, unprotected PIN_T2 objects of a context whose AFFINITY names only ladle stacks; AFFINITY 0 names all eight clusters (R223, R258). -/
def State.ladleRange (s : State) (x addr n : Nat) : Bool :=
  (pieces addr n).all (fun p => match s.objAt x p.1 with
    | some o => o.policy == 2 && o.affinity != 0 && o.affinity &&& 0xAA == 0 && !o.prot
    | none => false)

/-- Whether two ranges of one length overlap. -/
def meets (a b n : Nat) : Bool := decide (a < b + n ∧ b < a + n)

/-- The first bad offset of a LADLE descriptor (R258). -/
def State.ladleErrors (s : State) (cx : Nat) (d : List Byte) (t : LadleDesc) : Option Nat :=
  let fmtOk (f : Nat) : Bool := 2 ≤ f && f ≤ 5
  let known := [1, 2, 3, 4, 5, 6, 0x10, 0x11].contains t.func
  let lenOk := decide (1 ≤ t.len ∧ t.len < 2 ^ 40)
  let ok := known && fmtOk t.fx && lenOk
  let n := t.len * t.es
  let rangeBad (a : Nat) : Bool := a % 256 != 0 || (ok && !s.ladleRange cx a n)
  leastOf (
    (if rangeBad t.x then [0] else []) ++
    (if t.takesY ∧ (rangeBad t.y ∨ t.y % pageBytes ≠ t.x % pageBytes) then [8] else []) ++
    (if known ∧ !t.reduces ∧ (rangeBad t.z ∨ t.z % pageBytes ≠ t.x % pageBytes ∨ (t.z = t.x ∧ t.shift ≠ 0) ∨
        (ok ∧ ((meets t.z t.x n ∧ t.z ≠ t.x) ∨ (t.takesY ∧ meets t.z t.y n ∧ t.z ≠ t.y)))) then [16] else []) ++
    (if lenOk then [] else [24]) ++ (if known then [] else [32]) ++
    (if !fmtOk t.fx ∨ !fmtOk t.fz ∨ (!t.reduces ∧ es2 t.fz ≠ es2 t.fx) then [33] else []) ++ (if fld d 34 1 / 2 ≠ 0 then [34] else []) ++
    (if fld d 35 1 ≠ 0 then [35] else []) ++ (if pageBytes < t.shift.natAbs * t.es then [44] else []) ++
    (if t.reduces ∧ (t.rOff % 4 ≠ 0 ∨ 0xBFFFFC < t.rOff) then [48] else []) ++
    (((List.range 12).filter (fun i => fld d (52 + i) 1 ≠ 0)).map (52 + ·)))

/-! ### Elements (R257, R261, R262) -/

/-- An element of device memory with the unit of the poison it carries. -/
structure MemElem where
  val : Num
  bad : Option Nat := none
  deriving DecidableEq, Repr

def State.memElem (s : State) (cx fmt addr : Nat) : MemElem :=
  match s.vaRead cx addr (es2 fmt / 2) with
  | some (bs, bad) => { val := elemNum fmt (leNat bs), bad := if bad then some (s.vaUnit cx addr) else none }
  | none => { val := .nan }

/-- u of element i. -/
def State.ladleU (s : State) (cx : Nat) (t : LadleDesc) (i : Nat) : BitVec 32 × Option Nat :=
  let j : Int := (i : Int) - t.shift
  let x : MemElem := if 0 ≤ j ∧ j < (t.len : Int) then s.memElem cx t.fx (t.x + j.toNat * t.es) else { val := .fin false 0 0 }
  (canon (rne (((num t.alpha).mul x.val).add (num t.beta))), x.bad)

def firstSome (a b : Option Nat) : Option Nat := match a with
  | some x => some x
  | none => b

/-- The result of element i before conversion. -/
def State.ladleElem (s : State) (cx : Nat) (t : LadleDesc) (i : Nat) : BitVec 32 × Option Nat :=
  let u := s.ladleU cx t i
  if t.takesY then
    let y := s.memElem cx t.fx (t.y + i * t.es)
    let z : MemElem := if t.func = 3 then s.memElem cx t.fz (t.z + i * t.es) else { val := .nan }
    let v := if t.func = 1 then rne ((num u.1).add y.val) else if t.func = 2 then rne ((num u.1).mul y.val) else rne (((num u.1).mul y.val).add z.val)
    (canon v, firstSome u.2 (firstSome y.bad z.bad))
  else
    ((if t.func = 5 then canon (rne ((num u.1).maxN (.fin false 0 0))) else if t.func = 6 then ladleGelu u.1 else u.1), u.2)

/-- The elements of an operation page by page: page address, first element, elements. -/
def ladlePages (t : LadleDesc) : List (Nat × Nat × Nat) := (pieces t.x (t.len * t.es)).map (fun p => (p.1, (p.1 - t.x) / t.es, p.2 / t.es))

/-- The lane of an address of X. -/
def laneOf (addr : Nat) : Nat := addr % pageBytes / 256 % 128

/-- Fold a nonempty list from its first value. -/
def foldFirst (f : BitVec 32 → BitVec 32 → BitVec 32) : List (BitVec 32) → Option (BitVec 32)
  | [] => none
  | a :: l => some (l.foldl f a)

/-- A page's reduction: the lanes in ascending address, then the chain in ascending lane (R264); lanes given no element take no part. -/
def pageReduce (f : BitVec 32 → BitVec 32 → BitVec 32) (es addr : Nat) (us : List (BitVec 32)) : BitVec 32 :=
  let tagged := us.zipIdx.map (fun p => (laneOf (addr + p.2 * es), p.1))
  (foldFirst f ((List.range 128).filterMap (fun l => foldFirst f ((tagged.filter (fun p => p.1 == l)).map (·.2))))).getD 0

/-! ### Pages and counters (R263) -/

/-- Count a page of an operation in its stack. -/
def State.countPage (s : State) (cx : Nat) (t : LadleDesc) (addr : Nat) : State :=
  match s.pageAt cx addr with
  | none => s
  | some (_, p) =>
    let k := p.place / 2
    let others := ((if t.takesY then [t.y] else []) ++ (if t.reduces then [] else [t.z])).filterMap (fun b => (s.pageAt cx (addr - t.x + b)).map (·.2))
    ((s.count .pnmOps k 0 0 32).count .pnmOps k 0 32 16 (if t.shift ≠ 0 ∨ others.any (fun o => o.ppn % 32 != p.ppn % 32) then 1 else 0)).count .pnmOps k 0 48 16
      (if others.any (fun o => o.place != p.place) then 1 else 0)

/-- The ladle stack of an address. -/
def State.ladleStack (s : State) (cx addr : Nat) : Nat := ((s.pageAt cx addr).map (fun p => p.2.place / 2)).getD 0

/-- The ladle that serves the lane of an address: the unit of its physical channel, and its bank group (R219, R251). -/
def State.ladleOf (s : State) (cx addr : Nat) : Option (Nat × Nat) :=
  (s.pageAt cx addr).map (fun p =>
    let d := dramPlace p.2.ppn (addr % pageBytes)
    (s.stackChannel p.2.place d.channel, d.bankGroup))

/-- A failed check of a ladle: recorded, and counted in its bucket where its event has not been (R268). -/
def State.ladleCheck (s : State) (unit bg : Nat) (counted : Bool) : State :=
  let k := bits unit 15 8 / 2
  let s1 := ((s.count .pnmCheck k 0 0 16).setField .pnmCheck k 0 16 6 (bits unit 7 0)).setField .pnmCheck k 0 22 2 bg
  if counted then s1 else s1.bucket 5 (.unit (BitVec.ofNat 32 unit) bg 0) s1.now

/-- Ranges that an operation reads or writes. -/
def LadleDesc.places (t : LadleDesc) (c cx : Nat) : List (Place × Nat) :=
  let n := t.len * t.es
  [(.dev cx t.x, n)] ++ (if t.takesY then [(.dev cx t.y, n)] else []) ++ (if t.reduces then [(.core c t.rOff, 4)] else [(.dev cx t.z, n)])

/-- Run a LADLE operation (R257 to R268); the check of the element that a fault names fails in the ladle that serves it. -/
def State.runLadle (s : State) (c cx : Nat) (t : LadleDesc) (fault : Option Nat) (counted : Bool) : State :=
  let failed : Option (Nat × Nat) := (fault.filter (fun i => decide (i < t.len))).bind (fun i => s.ladleOf cx (t.x + i * t.es))
  let hit (i : Nat) : Option Nat := if fault = some i then failed.map (·.1) else none
  let s0 := match failed with
    | some u => s.ladleCheck u.1 u.2 counted
    | none => s
  let touched := (s0.vaAccess (some c) cx t.x (t.len * t.es))
  let touched := if t.takesY then touched.vaAccess (some c) cx t.y (t.len * t.es) else touched
  let pages := ladlePages t
  if t.reduces then
    let f : BitVec 32 → BitVec 32 → BitVec 32 := if t.func = 0x10 then (fun a b => canon (fadd a b)) else (fun a b => canon (rne ((num a).maxN (num b))))
    let parts := pages.map (fun p =>
      let us := (List.range p.2.2).map (fun j => s.ladleU cx t (p.2.1 + j))
      (p.1, pageReduce f t.es p.1 (us.map (·.1)), us.zipIdx.foldl (fun a (u : (BitVec 32 × Option Nat) × Nat) => firstSome a (firstSome u.1.2 (hit (p.2.1 + u.2)))) none))
    let v := (foldFirst f (parts.map (fun p => p.2.1))).getD 0
    let bad := parts.foldl (fun a p => firstSome a p.2.2) none
    let s1 := parts.foldl (fun st p =>
      let k := st.ladleStack cx p.1
      ((st.countPage cx t p.1).flag .pnmStat k 0 1 p.2.2.isSome).flag .pnmStat k 0 3 (fIsNan p.2.1)) touched
    let s2 := s1.storeWrite c t.rOff (toLe 4 v.toNat) bad.isSome
    let s3 := if s2.pair.t0 then s2.digestCore c 8 12 (toLe 4 v.toNat) else s2
    match bad with
    | some u => s3.taintCore c 9 u
    | none => s3
  else
    let parts := pages.map (fun p =>
      let vs := (List.range p.2.2).map (fun j => let v := s.ladleElem cx t (p.2.1 + j)
        (v.1, firstSome v.2 (hit (p.2.1 + j))))
      (p, vs))
    parts.foldl (fun st q =>
      let p := q.1
      let za := p.1 - t.x + t.z
      let o := convertRow t.fz (t.sat || t.fz == 2) (q.2.map (·.1))
      let bs := packCodes t.fz o.codes
      let k := st.ladleStack cx p.1
      let bad := q.2.foldl (fun a v => firstSome a v.2) none
      let s1 := (((st.countPage cx t p.1).flag .pnmStat k 0 1 bad.isSome).flag .pnmStat k 0 2 (o.sat != 0)).flag .pnmStat k 0 3 o.nan
      let s2 := (s1.vaWrite cx za bs).vaAccess (some c) cx za bs.length
      let s3 := q.2.zipIdx.foldl (fun st v => if v.1.2.isSome then st.vaMarkFrom s cx (za + v.2 * t.es) t.es else st) s2
      let s4 := s3.digestCore c 8 12 bs
      let s5 := if o.half then s4.modCtx cx (fun x => { x with overflow := true }) else s4
      match bad with
      | some u => s5.taintCore c 9 u
      | none => s5) touched

/-- A LADLE operation of a core with its descriptor. -/
def State.tryLadle (s : State) (c cx : Nat) (fault : Option Nat) (counted : Bool) (d : List Byte) : Attempt :=
  let t := ladleDesc d
  match s.ladleErrors cx d t with
  | some off => .go (s.failCore c (errFormat off))
  | none =>
    if s.provHeld none (t.places c cx) then .wait s else
    match (t.places c cx).findSome? (fun p => match p.1 with
      | .dev x a => s.snoopWait x a p.2 (a == t.z && !t.reduces)
      | _ => none) with
    | some s1 => .wait s1
    | none => .go (s.runLadle c cx t fault counted)

/-- An embedding descriptor is refused: recorded in a core (R310). -/
def State.refuseEmb (s : State) (c off desc : Nat) : State :=
  ((s.flag .embStat c 0 1).setField .embStat c 0 8 7 off).setField .embStat c 0 16 18 (desc / 64)

/-- A gather engine's row: the operation at its head, with this code, starts and is tried. -/
def State.gatherRow (s : State) (c op n : Nat) (f : State → Run → Queued → List Byte → Attempt) : State :=
  match s.gatherOp c op n with
  | some (_, q, .error r) =>
    let s1 := s.begin c 8 q
    (if op ≤ 3 ∧ q.descBeyond n then s1.refuseEmb c 0 q.op.desc.toNat else s1).failCore c r
  | some (r, q, .ok d) => (match f (s.begin c 8 q) r q d with
    | .wait s1 => { s1 with cores := s.cores }
    | .go s1 => s1)
  | none => s

/-- LADLE (R255 to R268). -/
def execLadle (c : Fin 40) (fault : Option Nat) (s : State) : Host.Outcome State Fault Refusal :=
  s.run (fun s => s.gatherRow c 0x20 64 (fun s r _ d => s.tryLadle c r.ctx fault false d))

/-! ### Memory-side adders (R269 to R273) -/

/-- Element size of an add format. -/
def addEs (fmt : Nat) : Nat := if fmt = 3 ∨ fmt = 4 then 2 else if fmt = 0xC then 8 else 4

/-- The addend that changes nothing: -0 of a float format, 0 of an integer one. -/
def addNeutral (fmt : Nat) : Nat := if fmt = 3 ∨ fmt = 4 then 0x8000 else if fmt = 5 then 0x80000000 else 0

/-- One add of R271; the addend may be a sum held in FP32 (R276). -/
def addElem (fmt : Nat) (wide : Bool) (a b : Nat) : Nat :=
  match fmtOf fmt with
  | some f => (f.enc false ((f.dec a).add (if wide then num (BitVec.ofNat 32 b) else f.dec b))).bits
  | none => (a + b) % 2 ^ (8 * addEs fmt)

/-- A float addend as FP32, and an FP32 sum rounded to a float format. -/
def widen (fmt a : Nat) : Nat := match fmtOf fmt with
  | some f => (rne (f.dec a)).toNat
  | none => a
def narrow (fmt a : Nat) : Nat := match fmtOf fmt with
  | some f => (f.enc false (num (BitVec.ofNat 32 a))).bits
  | none => a

/-- Apply adds to one granule of device memory (R271): the elements given; a poisoned addend or target leaves it poisoned. The result says what poison it met. -/
def State.addGranule (s : State) (cx addr fmt : Nat) (wide : Bool) (vals : List (Nat × Nat)) (bad : Bool) : State × Bool :=
  match s.vaRead cx addr 64, s.pageAt cx addr with
  | some (old, was), some (_, p) =>
    let es := addEs fmt
    let s1 := vals.foldl (fun (st : State) v =>
      if v.2 = addNeutral fmt ∧ p.tier = .t3 then st else st.vaWrite cx (addr + v.1 * es) (toLe es (addElem fmt wide (fld old (v.1 * es) es) v.2))) s
    let s2 := if p.tier = .t3 then s1 else
      let i := if p.tier = .t1 then p.place else 8 + p.place
      (s1.countK .pnmAddStat i 0 32 1).count .pnmAddStat i 0 48 16 (if bad ∨ was then 1 else 0)
    ((if bad ∨ was then s2.vaMarkFrom s cx addr 64 else s2).vaTouch cx addr 64, bad || was)
  | _, _ => (s, false)

/-- The addends of a far request: its granules with neutral values where nothing is added. -/
def addPayload (fmt : Nat) (vals : List (Nat × Nat)) : List Byte :=
  (List.range (64 / addEs fmt)).flatMap (fun i => toLe (addEs fmt) (mgetD vals i (addNeutral fmt)))

/-- An ATOMIC_ADD of a T3 granule; none where no port of the group is up. -/
def State.farAdd (s : State) (uid : Nat) (core : Option Nat) (cx addr fmt : Nat) (vals : List (Nat × Nat)) (chill : Bool) : Option State :=
  match s.pageAt cx addr with
  | some (o, p) => s.sendFar 4 (.add core cx addr fmt) uid p.place (p.farAddr ((addr - o.base) % pageBytes)) 1 (addPayload fmt vals) chill
  | none => none

/-- An acknowledged ATOMIC_ADD has been applied by the expander: the model's image of far memory follows (R246). -/
def State.farAdded (s : State) (cx addr fmt : Nat) (payload : List Byte) : State :=
  (chunks 64 65 payload).zipIdx.foldl (fun st g =>
    (st.addGranule cx (addr + 64 * g.2) fmt false ((List.range (64 / addEs fmt)).map (fun i => (i, fld g.1 (i * addEs fmt) (addEs fmt)))) false).1) s

/-! ### Staged adds in Chill mode (R276 to R278) -/

/-- The cluster in which an add to a page is staged. -/
def stageCluster (p : Page) : Nat := p.place % 8

/-- The entries staged in a cluster that a predicate picks. -/
def State.stagedIn (s : State) (k : Nat) (p : Staged → Bool) : Nat := (s.memory.staged.filter (fun g => g.cluster == k && p g)).length

/-- Combine addends of one core into an entry's FP32 values in issue order (R276; DEDUCED, log entry 47). -/
def combineVals (old : List (Nat × Nat)) (new : List (Nat × Nat)) : List (Nat × Nat) :=
  new.foldl (fun m v => match mget m v.1 with
    | some a => mset m v.1 (fadd (BitVec.ofNat 32 a) (BitVec.ofNat 32 v.2)).toNat
    | none => mset m v.1 v.2) old

/-- Stage one granule's adds on chip with its controller, or spill them; none where both are full (R277). A barrier interval of a launch counts the cluster's spill once. -/
def State.stageAdd (s : State) (g : Staged) : Option State :=
  let mine (e : Staged) : Bool := e.launch == g.launch && e.uid == g.uid && e.ctx == g.ctx && e.addr == g.addr && e.fmt == g.fmt && e.core == g.core
  if s.memory.staged.any mine then
    some { s with memory := { s.memory with staged := upd s.memory.staged mine (fun e => { e with values := combineVals e.values g.values, poisoned := e.poisoned || g.poisoned }) } }
  else
    let full := decide (4096 ≤ s.stagedIn g.cluster (fun e => e.stack == g.stack && !e.spilled))
    if full ∧ 65536 ≤ s.stagedIn g.cluster (fun e => e.spilled) then none else
    let first := full && s.stagedIn g.cluster (fun e => e.spilled && e.launch == g.launch && e.uid == g.uid) == 0
    let s1 : State := { s with memory := { s.memory with staged := s.memory.staged ++ [{ g with spilled := full }] } }
    let s2 := s1.peak .pnmChillStat g.cluster 0 0 17 (s1.stagedIn g.cluster (fun _ => true))
    some (if first then s2.count .pnmChillStat g.cluster 0 32 16 else s2)

/-- Whether a staged add waits for its expander: its page rests in T3, and no port of the group is up. -/
def State.stagedLost (s : State) (g : Staged) : Bool := match s.pageAt g.ctx g.addr with
  | some (_, p) => p.tier == .t3 && !g.poisoned && (s.farPort p.place).isNone
  | none => false
def State.stagedBarred (s : State) (mine : Staged → Bool) : Bool := s.memory.staged.any (fun g => mine g && s.stagedLost g)

/-- Sum the entries of each staged granule by the FP32 tree of R139 in ascending logical core order and apply each sum once (R276); the sum of a T3 granule goes to its expander in the granule's format, and stays staged where no port of the group is up (DEDUCED, log entry 47). -/
def State.applyStaged (s : State) (want : Staged → Bool) : State :=
  let mine (g : Staged) : Bool := want g && !s.stagedLost g
  let es := insSort (fun g => g.core) (s.memory.staged.filter mine)
  let keys := es.foldl (fun (l : List (Nat × Nat × Nat)) g => if l.contains (g.ctx, g.addr, g.fmt) then l else l ++ [(g.ctx, g.addr, g.fmt)]) []
  let s0 : State := { s with memory := { s.memory with staged := s.memory.staged.filter (fun g => !mine g) } }
  keys.foldl (fun st k =>
    let gs := es.filter (fun g => g.ctx == k.1 && g.addr == k.2.1 && g.fmt == k.2.2)
    let fmt := k.2.2
    let idx := ((List.range (64 / addEs fmt)).filter (fun i => gs.any (fun g => (mget g.values i).isSome)))
    let vals := idx.map (fun i => (i, (treeSum (gs.map (fun g => BitVec.ofNat 32 (mgetD g.values i 0x80000000)))).toNat))
    let bad := gs.any (·.poisoned)
    let uid := ((gs.head?).map (·.uid)).getD 0
    match st.pageAt k.1 k.2.1 with
    | some (_, p) =>
      if p.tier = .t3 ∧ !bad then (st.farAdd uid none k.1 k.2.1 fmt (vals.map (fun v => (v.1, narrow fmt v.2))) true).getD st
      else
        let r := st.addGranule k.1 k.2.1 fmt true vals bad
        if r.2 then (match (gs.head?).bind (·.launch) with
          | some l => r.1.taintLaunch l 0xA (r.1.vaUnit k.1 k.2.1)
          | none => r.1.taint uid 0xA (r.1.vaUnit k.1 k.2.1)) else r.1
    | none => st) s0

/-! ### MADD (R270 to R272) -/

/-- A MADD descriptor's granules: address of each and the elements added there, as (index in the granule, addend, whether it is poisoned). -/
def maddGranules (k : Core) (dst src count fmt : Nat) : List (Nat × List (Nat × Nat) × Bool) :=
  let es := addEs fmt
  (List.range ((dst + count * es - 1) / 64 - dst / 64 + 1)).map (fun g =>
    let ga := (dst / 64 + g) * 64
    let lo := max dst ga
    let hi := min (dst + count * es) (ga + 64)
    (ga, (List.range ((hi - lo) / es)).map (fun j => ((lo - ga) / es + j, leNat (k.store.read (src + (lo - dst) + j * es) es))),
     k.store.bad (src + (lo - dst)) (hi - lo)))

/-- The first bad offset of a MADD descriptor. -/
def maddErrors (d : List Byte) : Option Nat :=
  let fmt := fld d 16 1
  let es := addEs fmt
  let n := fld d 12 4
  leastOf ((if fld d 0 8 % es ≠ 0 then [0] else []) ++ (if fld d 8 4 % es ≠ 0 ∨ storeBytes < fld d 8 4 + n % 2 ^ 24 * es then [8] else []) ++
    (if n = 0 ∨ 2 ^ 24 ≤ n then [12] else []) ++ (if [3, 4, 5, 0xB, 0xC].contains fmt then [] else [16]) ++
    ((List.range 47).filter (fun i => fld d (17 + i) 1 ≠ 0)).map (17 + ·))

/-- Apply, stage or send the adds of one granule. -/
def State.maddOne (s : State) (c uid cx fmt : Nat) (chill : Bool) (g : Nat × List (Nat × Nat) × Bool) : Except Unit State :=
  match s.pageAt cx g.1 with
  | none => .ok s
  | some (_, p) =>
    let float := decide (fmt ≤ 5)
    if chill ∧ float then
      match s.stageAdd { launch := (s.core c).run.map (·.launch), uid := uid, ctx := cx, addr := g.1, fmt := fmt, core := s.coreLogical c, cluster := stageCluster p,
                         stack := p.tier == .t2, values := g.2.1.map (fun v => (v.1, widen fmt v.2)), poisoned := g.2.2 } with
      | some s1 => .ok s1
      | none => .error ()
    else if p.tier = .t3 ∧ !g.2.2 then .ok ((s.farAdd uid (some c) cx g.1 fmt g.2.1 chill).getD s)
    else
      let r := s.addGranule cx g.1 fmt false g.2.1 g.2.2
      .ok (if r.2 then r.1.taintCore c 0xA (r.1.vaUnit cx g.1) else r.1)

/-- The adds of every granule in order; where the staging of a cluster is full, the state reached and the cluster (R277). -/
def State.maddAll (s : State) (c uid cx fmt : Nat) (chill : Bool) (gs : List (Nat × List (Nat × Nat) × Bool)) : Except (State × Nat) State :=
  gs.foldl (fun (acc : Except (State × Nat) State) g => match acc with
    | .ok st => (match st.maddOne c uid cx fmt chill g with
      | .ok st1 => .ok st1
      | .error _ => .error (st, ((st.pageAt cx g.1).map (fun o => stageCluster o.2)).getD 0))
    | e => e) (.ok s)

/-- A MADD operation of a core with its descriptor (R270 to R277). -/
def State.tryMadd (s : State) (c cx : Nat) (d : List Byte) : Attempt :=
  let dst := fld d 0 8
  let src := fld d 8 4
  let fmt := fld d 16 1
  let n := fld d 12 4 * addEs fmt
  match maddErrors d, s.unmapped cx dst n with
  | some off, _ => .go (s.failCore c (errFormat off))
  | none, some a => .go (s.failCore c (errPage 8 a))
  | none, none =>
    let far := (pieces dst n).filterMap (fun p => (s.pageAt cx p.1).bind (fun o => if o.2.tier = .t3 then some o else none))
    if far.any (fun o => o.1.prot) then .go (s.failCore c (errFormat 0))
    else if s.provHeld none [(.core c src, n), (.dev cx dst, n)] ∨ far.any (fun o => (s.farPort o.2.place).isNone) then .wait s
    else match s.snoopWait cx dst n true with
    | some s1 => .wait s1
    | none =>
      let uid := ((s.coreWork c).map (·.1)).getD 0
      let chill := s.coreChill c
      let gs := maddGranules (s.core c) dst src (fld d 12 4) fmt
      let s1 := (s.digestCore c 8 11 ((s.core c).store.read src n)).translate (some c) cx dst n
      match s1.maddAll c uid cx fmt chill gs with
      | .ok s2 => .go s2
      | .error (s2, k) => .go ((s2.count .pnmChillStat k 0 48 16).failCore c (errNofit 12 73728))

/-- MADD (R270 to R277). -/
def execMadd (c : Fin 40) (s : State) : Host.Outcome State Fault Refusal :=
  s.run (fun s => s.gatherRow c 0x21 64 (fun s r _ d => s.tryMadd c r.ctx d))

end Sys2Proof.Machine
end

