-- ==== Sys2Proof/Machine/Embed.lean ====
section
/-! DEFINITION. Embedding tables: rows, quantized-row adds, lookups, updates, Yarrow (R274, R302 to R330). -/

namespace Sys2Proof.Machine
open Sys2Proof

/-! ### Quantized rows (R274, R302) -/

/-- The next lower, and next higher, FP16 code. -/
def f16Pred (c : Nat) : Nat := if c = 0 then 0x8001 else if c < 0x8000 then c - 1 else c + 1
def f16Succ (c : Nat) : Nat := if c = 0x8000 then 1 else if c < 0x8000 then c + 1 else c - 1

/-- FP16 rounding toward -∞ and toward +∞, the latter saturating at 65,504. -/
def f16Down (x : Num) : Nat := let c := (f16.enc false x).bits
  if x.lt (f16.dec c) then f16Pred c else c
def f16Up (x : Num) : Nat := let c := (f16.enc false x).bits
  let u := if (f16.dec c).lt x then f16Succ c else c
  if u = 0x7C00 then 0x7BFF else u

/-- The integer at or below a value; NaN gives 0, an infinity a value beyond every code. -/
def Num.floor : Num → Int
  | .nan => 0
  | .inf neg => if neg then -1 else 65536
  | .fin neg m e =>
    let z : Int := if neg then -(m : Int) else m
    if 0 ≤ e then z * ((2 ^ e.toNat : Nat) : Int) else z / ((2 ^ (-e).toNat : Nat) : Int)

/-- Code i of a row. -/
def rowCode (b : Nat) (bs : List Byte) (i : Nat) : Nat :=
  if b = 8 then fld bs (8 + i) 1 else (if i % 2 = 0 then fld bs (8 + i / 2) 1 % 16 else fld bs (8 + i / 2) 1 / 16)

/-- v_i = fma(s, c_i, o). -/
def rowVal (b : Nat) (bs : List Byte) (i : Nat) : BitVec 32 :=
  canon (rne (((f16.dec (fld bs 0 2)).mul (Num.ofNat (rowCode b bs i))).add (f16.dec (fld bs 2 2))))

/-- Bytes of a row. -/
def rowLen (w b : Nat) : Nat := 8 + w * b / 8

/-- What an add carries beside its gradient row (R274, R328). -/
structure RowAdd where
  w : Nat
  b : Nat
  adaptive : Bool
  alpha : BitVec 32
  eps : BitVec 32
  step : Nat
  row : Nat
  key : Nat × Nat
  tag : Nat
  g : List (BitVec 32)
  deriving DecidableEq, Repr

/-- The quantized-row add; none leaves the row unchanged because a value is not finite. -/
def RowAdd.apply (a : RowAdd) (bs : List Byte) : Option (List Byte) :=
  let q := 2 ^ a.b - 1
  let m0 := BitVec.ofNat 32 (fld bs 4 4)
  let sq := match a.g.map (fun g => fmul g g) with
    | [] => 0
    | x :: l => l.foldl fadd x
  let m := if a.adaptive then rne ((num m0).add (num (rne ((num sq).div (Num.ofNat a.w))))) else m0
  let f := if a.adaptive then fmul a.alpha (special 0x13 (rne ((num m).add (num a.eps)))).val else a.alpha
  let t := a.g.zipIdx.map (fun p => rne (((num f).mul (num p.1)).add (num (rowVal a.b bs p.2))))
  if t.any (fun x => !fIsFin x) ∨ (a.adaptive ∧ !fIsFin m) then none else
  let lo := t.foldl (fun x y => if (num y).lt (num x) then y else x) (t.headD 0)
  let hi := t.foldl (fun x y => if (num x).lt (num y) then y else x) (t.headD 0)
  let s0 := fld bs 0 2
  let o0 := fld bs 2 2
  let out := (num lo).lt (f16.dec o0) || (num (rne ((f16.dec o0).add ((f16.dec s0).mul (Num.ofNat q))))).lt (num hi)
  let o := if out then f16Down (num lo) else o0
  let d := (num (rne ((num hi).add (f16.dec o).neg))).div (Num.ofNat q)
  let s := if out then f16Up (if d.lt (.fin false 1 (-24)) then .fin false 1 (-24) else d) else s0
  let inv := rne ((Num.ofNat 1).div (f16.dec s))
  let code (i : Nat) (x : BitVec 32) : Nat :=
    let r : Num := .fin false (randWord a.key a.step (a.row * 1024 + i) / 256) (-24)
    let z := ((num (rne ((num (rne ((num x).add (f16.dec o).neg))).mul (num inv)))).add r).floor
    (max 0 (min z (q : Int))).toNat
  let cs := t.zipIdx.map (fun p => code p.2 p.1)
  let body := if a.b = 8 then cs.map (BitVec.ofNat 8) else (chunks 2 (cs.length / 2 + 1) cs).map (fun p => BitVec.ofNat 8 ((p[0]?).getD 0 + 16 * (p[1]?).getD 0))
  some (toLe 2 s ++ toLe 2 o ++ toLe 4 (if a.adaptive then m.toNat else m0.toNat) ++ body)

/-- The ROW_ADD payload (R328): the parameter granule and the gradient row. -/
def RowAdd.payload (a : RowAdd) (off : Nat) : List Byte :=
  toLe 2 a.w ++ toLe 1 a.b ++ toLe 1 (if a.adaptive then 1 else 0) ++ toLe 2 off ++ toLe 2 0 ++ toLe 4 a.alpha.toNat ++ toLe 4 a.eps.toNat ++
    toLe 8 a.step ++ toLe 8 a.row ++ toLe 4 a.tag ++ toLe 4 a.key.1 ++ toLe 4 a.key.2 ++ List.replicate 20 0 ++
    slice (a.g.flatMap (fun x => toLe 4 x.toNat)) 0 (64 * cdiv a.w 16)

/-- The add that a ROW_ADD payload spells. -/
def RowAdd.ofPayload (p : List Byte) : RowAdd :=
  { w := fld p 0 2, b := fld p 2 1, adaptive := fld p 3 1 == 1, alpha := BitVec.ofNat 32 (fld p 8 4), eps := BitVec.ofNat 32 (fld p 12 4),
    step := fld p 16 8, row := fld p 24 8, tag := fld p 32 4, key := (fld p 36 4, fld p 40 4),
    g := (List.range (fld p 0 2)).map (fun i => BitVec.ofNat 32 (fld p (64 + 4 * i) 4)) }

/-! ### Tables (R303 to R307) -/

def Table.stride (t : Table) : Nat := 32 * cdiv (rowLen t.width t.bits) 32
def Table.rpp (t : Table) : Nat := pageBytes / t.stride
/-- The address of a row. -/
def Table.rowAddr (t : Table) (r : Nat) : Nat := t.base + r / t.rpp * pageBytes + r % t.rpp * t.stride

/-- The id hash (R306). -/
def Table.hash (t : Table) (id : Nat) : Nat := ((id ^^^ t.salt) * t.mult % 2 ^ 64) * t.rows / 2 ^ 64

def padId : Nat := 2 ^ 64 - 1

def State.tset? (s : State) (x id : Nat) : Option TableSet := s.embed.tsets.find? (fun t => t.ctx == x && t.id == id)
def State.table? (s : State) (x id k : Nat) : Option Table := (s.tset? x id).bind (fun t => t.tables[k]?)

/-- A table descriptor. -/
def tableOf (d : List Byte) : Table :=
  { object := fld d 0 4, tag := fld d 4 4, base := fld d 8 8, rows := fld d 16 8, width := fld d 24 2, bits := fld d 26 1, adaptive := bit (fld d 27 1) 0,
    eps := BitVec.ofNat 32 (fld d 28 4), mult := fld d 32 8, salt := fld d 40 8, yObj := fld d 48 4, ySlots := fld d 52 4 }

/-- Whether a policy lets pages lie in T3 (R223). -/
def policyT3 (policy : Nat) (prot : Bool) : Bool := policy == 5 || ((policy == 0 || policy == 3 || policy == 4) && !prot)

/-- The first bad offset of a table descriptor (R304, R305). -/
def State.tableErrors (s : State) (x : Nat) (d : List Byte) : Option Nat :=
  let t := tableOf d
  let shape := decide (1 ≤ t.width ∧ t.width ≤ 1024) && (t.bits == 8 || t.bits == 4)
  let o := s.objOf x t.object
  let rowsOk := decide (1 ≤ t.rows ∧ t.rows < 2 ^ 40)
  leastOf (
    (if o.isSome then [] else [0]) ++
    (match o with
     | some o =>
       (if t.base % pageBytes ≠ 0 ∨ t.base < o.base ∨ o.base + o.size ≤ t.base then [8] else
        if shape ∧ rowsOk ∧ o.base + o.size < t.rowAddr (t.rows - 1) + rowLen t.width t.bits then [16] else []) ++
       (if policyT3 o.policy o.prot ∧ 1008 < t.width then [24] else [])
     | none => []) ++
    (if rowsOk then [] else [16]) ++ (if decide (1 ≤ t.width ∧ t.width ≤ 1024) && !(t.bits == 4 && t.width % 2 == 1) then [] else [24]) ++
    (if t.bits = 8 ∨ t.bits = 4 then [] else [26]) ++ (if fld d 27 1 / 2 = 0 then [] else [27]) ++ (if t.mult % 2 = 1 then [] else [32]) ++
    (if t.yObj ≠ 0 ∧ !(match s.objOf x t.yObj with
      | some y => y.policy == 1 && (!shape || decide (t.ySlots * t.stride ≤ y.size))
      | none => false) then [48] else []) ++
    (if 2 ^ 24 ≤ t.ySlots ∨ (t.yObj = 0 ∧ t.ySlots ≠ 0) then [52] else []) ++ ((List.range 8).filter (fun i => fld d (56 + i) 1 ≠ 0)).map (56 + ·))

/-- EMB_TABLE_CREATE (R304, R305). -/
def bodyEmbTableCreate : Body := fun c s => do
  plenIs c 64
  noTicket c
  need (c.u 40 8 % 64 == 0 && decide (c.u 40 8 < 2 ^ 52)) (errFormat 40)
  let n := c.u 48 2
  need (decide (1 ≤ n ∧ n ≤ 4096)) (errFormat 48)
  reserved c 50 14
  declFormat c 64 64
  let bs ← s.input c false (c.u 40 8) (64 * n)
  let ds := chunks 64 4097 bs
  match ds.zipIdx.findSome? (fun p => (s.tableErrors c.ctx p.1).map (fun o => (o, p.2))) with
  | some (o, i) => fail (errFormat o i)
  | none =>
    let g ← s.admission c 64
    let (s0, pickId) := (let q := (s.sawInput c false (c.u 40 8) (64 * n)).pick 65536 ((s.embed.tsets.filter (·.ctx == c.ctx)).map (·.id)); (q.2, q.1))
    match pickId with
    | none => fail (errNofit 19 0)
    | some id =>
      let (s1, t) := s0.issue c g (.tables id)
      .ok ({ s1 with embed := { s1.embed with tsets := s1.embed.tsets ++ [{ ctx := c.ctx, id := id, part := c.part, slot := g.slot, tables := ds.map tableOf }] } },
           some (okProgress t id))

/-! ### Yarrow (R317 to R319) -/

/-- The bucket of a row address in its partition. -/
def yarrowBucket (base buckets ctx addr : Nat) : Nat :=
  base + ((ctx * 2 ^ 47 ||| addr / 32) * 0x9E3779B97F4A7C15 % 2 ^ 64) * buckets / 2 ^ 64

/-- Order of entries: highest priority first, then lowest slot. -/
def yarrowBest : List Yarrow → Option Yarrow
  | [] => none
  | y :: l => match yarrowBest l with
    | none => some y
    | some z => if z.prio < y.prio ∨ (z.prio = y.prio ∧ y.slot ≤ z.slot) then some y else some z

/-- The entries that match a row address (`row` holds it divided by 32). -/
def State.yarrowHits (s : State) (p x addr : Nat) : List Yarrow := s.embed.yarrow.filter (fun y => y.part == p && y.ctx == x && y.row == addr / 32)

/-- The address of an entry's copy. -/
def State.copyAddr (s : State) (y : Yarrow) : Option Nat :=
  match s.table? y.ctx y.tset y.table with
  | some t => (s.objOf y.ctx t.yObj).map (fun o => o.base + y.slot * t.stride)
  | none => none

/-- Where a row's authoritative value lies (R318, R319). -/
def State.authority (s : State) (p x addr : Nat) : Nat :=
  match yarrowBest (s.yarrowHits p x addr) with
  | some y => (s.copyAddr y).getD addr
  | none => addr

/-- Count a probe (R318, R329). -/
def State.probe (s : State) (p x addr table row : Nat) : State :=
  let hs := s.yarrowHits p x addr
  match yarrowBest hs with
  | none => s.countK .embYarrowHm p 32 32 1
  | some y =>
    let s1 := s.countK .embYarrowHm p 0 32 1
    if 1 < (hs.filter (fun z => z.prio == y.prio)).length then (s1.count .embYarrowStat p 0 0 16).event .yarrowMulti p 0 (toLe 4 table ++ toLe 8 row) else s1

/-! ### The embedding descriptor (R309, R310) -/

/-- An embedding descriptor. -/
structure EmbDesc where
  ids : Nat
  offs : Nat
  wts : Nat
  data : Nat
  stride : Nat
  bags : Nat
  tset : Nat
  table : Nat
  pool : Nat
  hashed : Bool
  fmt : Nat
  dev : Bool
  dataDev : Bool
  alpha : BitVec 32
  coalesce : Bool
  scratch : Nat
  scratchBytes : Nat
  deriving DecidableEq, Repr

def embDesc (d : List Byte) : EmbDesc :=
  { ids := fld d 0 8, offs := fld d 8 8, wts := fld d 16 8, data := fld d 24 8, stride := fld d 32 4, bags := fld d 36 4, tset := fld d 40 2, table := fld d 42 2,
    pool := fld d 44 1, hashed := fld d 45 1 == 1, fmt := fld d 46 1, dev := bit (fld d 47 1) 0, dataDev := bit (fld d 47 1) 1,
    alpha := BitVec.ofNat 32 (fld d 48 4), coalesce := bit (fld d 52 1) 0, scratch := fld d 56 8, scratchBytes := fld d 64 8 }

/-- Bytes of an embedding operand. -/
def State.embRead (s : State) (c x : Nat) (dev : Bool) (addr n : Nat) : List Byte × Bool :=
  if dev then (s.vaRead x addr n).getD ([], false) else ((s.core c).store.read addr n, (s.core c).store.bad addr n)

/-- The bag starts (R309): entry k and k + 1 bound bag k. -/
def State.bagStart (s : State) (c x : Nat) (t : EmbDesc) (k : Nat) : Nat :=
  if t.offs = 0 then k else leNat (s.embRead c x t.dev (t.offs + 4 * k) 4).1

/-- The first unmapped address of the device ranges an operation names. -/
def firstUnmapped (s : State) (x : Nat) (l : List (Bool × Nat × Nat)) : Option Nat := l.findSome? (fun r => if r.1 then s.unmapped x r.2.1 r.2.2 else none)

/-- Bytes of a bag's data row. -/
def dataBytes (op : Nat) (t : EmbDesc) (w : Nat) : Nat := if op = 3 then 8 else w * (es2 t.fmt / 2)

/-- The ranges of an operation apart from ids and weights: in device memory or not, start, bytes. -/
def dataRange (op : Nat) (t : EmbDesc) (w lo hi : Nat) : Bool × Nat × Nat :=
  if op = 3 then (t.dataDev, t.data + 8 * lo, 8 * (hi - lo)) else (t.dataDev, t.data + lo * t.stride, (hi - lo - 1) * t.stride + dataBytes op t w)

/-- What is wrong with a descriptor: a bad field, or an unmapped bag start. -/
inductive EmbBad where
  | field (off : Nat)
  | unmapped (addr : Nat)
  deriving DecidableEq, Repr

/-- The check of R310 for bags lo to hi - 1, which excepts no operation from reserved values and alignment; the values that HASH does not use are not followed further (log entry 21); `needs` says whether the operation coalesces. -/
def State.embErrors (s : State) (op c x : Nat) (d : List Byte) (needs : Bool) : Option EmbBad :=
  let t := embDesc d
  let tbl := s.table? x t.tset t.table
  let w := (tbl.map (·.width)).getD 1
  let bagsOk := decide (1 ≤ t.bags ∧ t.bags < 2 ^ 24)
  let n := if bagsOk then t.bags else 1
  let t0 (dev : Bool) (a k : Nat) : Bool := !dev && decide (storeBytes < a + k)
  let r := dataRange op t w 0 n
  let early := leastOf (
    (if t.ids % 8 ≠ 0 then [0] else []) ++ (if t.offs % 4 ≠ 0 ∨ (op ≠ 3 ∧ t.offs ≠ 0 ∧ t0 t.dev t.offs (4 * (n + 1))) then [8] else []) ++
    (if t.wts % 4 ≠ 0 then [16] else []) ++
    (if t.data % (if op = 3 then 8 else max 1 (es2 t.fmt / 2)) ≠ 0 ∨ t0 r.1 r.2.1 r.2.2 then [24] else []) ++
    (if op ≠ 3 ∧ 1 < n ∧ t.stride % max 1 (es2 t.fmt / 2) ≠ 0 then [32] else []) ++ (if bagsOk then [] else [36]) ++
    (if (s.tset? x t.tset).isSome then (if tbl.isSome then [] else [42]) else [40]) ++
    (if 4 ≤ t.pool ∨ (op = 2 ∧ t.pool = 2) then [44] else []) ++ (if 2 ≤ fld d 45 1 then [45] else []) ++
    (if t.fmt = 3 ∨ t.fmt = 4 ∨ t.fmt = 5 then [] else [46]) ++ (if 4 ≤ fld d 47 1 then [47] else []) ++ (if 2 ≤ fld d 52 1 then [52] else []) ++
    ((List.range 3).filter (fun i => fld d (53 + i) 1 ≠ 0)).map (53 + ·) ++ (if t.scratch % 64 ≠ 0 then [56] else []) ++
    (if op = 2 ∧ needs ∧ t.scratchBytes = 0 then [64] else []) ++ ((List.range 56).filter (fun i => fld d (72 + i) 1 ≠ 0)).map (72 + ·))
  if early.any (· < 8) ∨ (early.isSome ∧ (early.any (· == 8) ∨ !bagsOk)) then early.map .field else
  match (if op = 3 ∨ t.offs = 0 ∨ !t.dev then none else s.unmapped x t.offs (4 * (n + 1))) with
  | some a => some (.unmapped a)
  | none =>
    let starts := (List.range (n + 1)).map (s.bagStart c x t)
    let total := if op = 3 then n else (starts.getLast?).getD n
    let badOffs := op != 3 && (starts.zip (starts.drop 1)).any (fun p => decide (p.2 < p.1 ∨ 65535 < p.2 - p.1))
    (leastOf ((if t0 t.dev t.ids (8 * total) then [0] else []) ++ (if badOffs then [8] else []) ++
      (if t.pool = 3 ∧ op ≠ 3 ∧ t0 t.dev t.wts (4 * total) then [16] else []) ++ early.toList)).map .field

/-! ### Bags -/

/-- A bag position: its row unless it is a pad, its weight, whether a word it was read from is poisoned, whether its id was bad (R307). -/
structure BagPos where
  row : Option Nat
  wt : BitVec 32
  bad : Bool
  badId : Bool
  deriving DecidableEq, Repr

def State.bagPos (s : State) (c x : Nat) (t : EmbDesc) (tbl : Table) (j : Nat) : BagPos :=
  let (ib, ibad) := s.embRead c x t.dev (t.ids + 8 * j) 8
  let id := leNat ib
  let w := if t.pool = 3 then s.embRead c x t.dev (t.wts + 4 * j) 4 else ([], false)
  if id = padId then { row := none, wt := 0, bad := ibad, badId := false }
  else if t.hashed then { row := some (tbl.hash id), wt := BitVec.ofNat 32 (leNat w.1), bad := ibad || w.2, badId := false }
  else if tbl.rows ≤ id then { row := none, wt := 0, bad := ibad, badId := true }
  else { row := some id, wt := BitVec.ofNat 32 (leNat w.1), bad := ibad || w.2, badId := false }

/-- The positions of bag k. -/
def State.bag (s : State) (c x : Nat) (t : EmbDesc) (tbl : Table) (k : Nat) : List BagPos :=
  let a := s.bagStart c x t k
  let b := s.bagStart c x t (k + 1)
  (List.range (b - a)).map (fun i => s.bagPos c x t tbl (a + i))

/-- Every position of bags lo to hi - 1. -/
def State.bagsOf (s : State) (c x : Nat) (t : EmbDesc) (tbl : Table) (lo hi : Nat) : List (Nat × List BagPos) :=
  (List.range (hi - lo)).map (fun i => (lo + i, s.bag c x t tbl (lo + i)))

/-- Count bad ids (R307). -/
def State.badIds (s : State) (c n : Nat) : State := if n = 0 then s else (s.count .embBadid c 0 0 32 n).flag .embStat c 0 3

/-- The first unmapped device address that the bags' ids and weights name. -/
def State.idsUnmapped (s : State) (c x : Nat) (t : EmbDesc) (op lo hi : Nat) : Option Nat :=
  let a := if op = 3 then lo else s.bagStart c x t lo
  let b := if op = 3 then hi else s.bagStart c x t hi
  firstUnmapped s x ([(t.dev, t.ids + 8 * a, 8 * (b - a))] ++ (if t.pool = 3 ∧ op ≠ 3 then [(t.dev, t.wts + 4 * a, 4 * (b - a))] else []))

/-- Whether a device range waits for back-invalidate snoops. -/
def State.snoopAny (s : State) (x : Nat) (l : List (Bool × Nat × Nat × Bool)) : Option State :=
  l.findSome? (fun r => if r.1 then s.snoopWait x r.2.1 r.2.2.1 r.2.2.2 else none)

/-! ### Lookups (R312, R313, R315, R316) -/

/-- Bytes of a row where it lies: the ones a far read returned, else memory's. -/
def State.rowBytesAt (s : State) (x : Nat) (got : List FarPart) (addr n : Nat) : List Byte × Bool :=
  match got.find? (fun f => decide (f.addr ≤ addr ∧ addr + n ≤ f.addr + f.bytes.length)) with
  | some f => ((f.bytes.drop (addr - f.addr)).take n, (List.range ((addr + n - 1) / 64 - addr / 64 + 1)).any (fun i => f.mask.testBit ((addr / 64 + i) - f.addr / 64)))
  | none => (s.vaRead x addr n).getD ([], false)

/-- A bag's pooled row (R312) with whether poison reached it. -/
def State.poolBag (s : State) (p x : Nat) (t : EmbDesc) (tbl : Table) (got : List FarPart) (ps : List BagPos) : List (BitVec 32) × Bool :=
  let rows := ps.filterMap (fun q => q.row.map (fun r => (s.rowBytesAt x got (s.authority p x (tbl.rowAddr r)) (rowLen tbl.width tbl.bits), q.wt)))
  let bad := ps.any (·.bad) || rows.any (·.1.2)
  let out := (List.range tbl.width).map (fun i =>
    let vs := rows.map (fun r => (rowVal tbl.bits r.1.1 i, r.2))
    match vs with
    | [] => 0
    | v :: l =>
      if t.pool = 2 then l.foldl (fun a b => canon (rne ((num a).maxN (num b.1)))) v.1
      else if t.pool = 3 then vs.foldl (fun a b => canon (rne (((num b.2).mul (num b.1)).add (num a)))) 0
      else
        let sum := vs.foldl (fun a b => canon (fadd a b.1)) 0
        if t.pool = 1 then canon (rne ((num sum).div (Num.ofNat vs.length))) else sum)
  (out, bad)

/-- A pooled row as DFMT writes it. -/
def poolBytes (fmt : Nat) (vs : List (BitVec 32)) : List Byte :=
  match fmtOf fmt with
  | some f => vs.flatMap (fun v => toLe (es2 fmt / 2) (f.enc false (num v)).bits)
  | none => []

/-- Write an output row; T3 pages are written by far requests whose count is returned. -/
def State.embWrite (s : State) (g : Nat) (uid c x : Nat) (dev : Bool) (addr : Nat) (bs : List Byte) (bad : Bool) : State × Nat :=
  if dev then
    let s1 := ((s.vaWrite x addr bs bad).vaAccess (some c) x addr bs.length).digestCore c 8 8 bs
    (pieces addr bs.length).foldl (fun (acc : State × Nat) p => match s.pageAt x p.1 with
      | some (o, pg) =>
        if pg.tier = .t3 then (match acc.1.farWrite (.out g) uid pg ((p.1 - o.base) % pageBytes) ((bs.drop (p.1 - addr)).take p.2) (s.coreChill c) with
          | some (st, n) => (st, acc.2 + n)
          | none => acc) else acc
      | none => acc) (s1, 0)
  else (s.opWrite c 8 addr bs bad, 0)

def State.gather? (s : State) (id : Nat) : Option Gather := s.embed.gathers.find? (·.id == id)
def State.modGather (s : State) (id : Nat) (f : Gather → Gather) : State := { s with embed := { s.embed with gathers := upd s.embed.gathers (·.id == id) f } }

/-- The places of a descriptor's bag starts, which are read first. -/
def EmbDesc.offsAt (t : EmbDesc) (op c x lo hi : Nat) : List (Place × Nat) :=
  if op = 3 ∨ t.offs = 0 then [] else [(if t.dev then .dev x (t.offs + 4 * lo) else .core c (t.offs + 4 * lo), 4 * (hi - lo + 1))]

/-- The places of the ids and weights of bags lo to hi - 1. -/
def State.idsAt (s : State) (t : EmbDesc) (op c x lo hi : Nat) : List (Place × Nat) :=
  let a := if op = 3 then lo else s.bagStart c x t lo
  let b := if op = 3 then hi else s.bagStart c x t hi
  let at_ (o n : Nat) : Place × Nat := (if t.dev then .dev x o else .core c o, n)
  [at_ (t.ids + 8 * a) (8 * (b - a))] ++ (if t.pool = 3 ∧ op ≠ 3 then [at_ (t.wts + 4 * a) (4 * (b - a))] else [])

/-- The places of an operation's bags lo to hi - 1: bag starts, ids, weights, data, and the rows they name (R211). -/
def State.embPlaces (s : State) (t : EmbDesc) (tbl : Table) (op c x lo hi : Nat) : List (Place × Nat) :=
  let p := ((s.ctx? x).map (·.part)).getD 0
  let data := dataRange op t tbl.width lo hi
  t.offsAt op c x lo hi ++ s.idsAt t op c x lo hi ++ [(if t.dataDev then .dev x data.2.1 else .core c data.2.1, data.2.2)] ++
    (if op = 3 then [] else ((s.bagsOf c x t tbl lo hi).flatMap (fun b => b.2.filterMap (·.row))).map (fun r => (.dev x (s.authority p x (tbl.rowAddr r)), rowLen tbl.width tbl.bits)))

/-- A core's gather engine reads or writes places (R221, R229). -/
def State.embAccess (s : State) (c : Nat) (l : List (Place × Nat)) : State := l.foldl (fun st q => st.touchPlace (some c) q) s

/-- Whether every T3 page of an output has a port of its group up. -/
def State.outReady (s : State) (x : Nat) (r : Bool × Nat × Nat) : Bool :=
  !r.1 || (pieces r.2.1 r.2.2).all (fun p => match s.pageAt x p.1 with
    | some (_, g) => g.tier != .t3 || (s.farPort g.place).isSome
    | none => true)

/-- The sparse trackers that a core holds (R315). -/
def State.sparseHeld (s : State) (c : Nat) : Nat :=
  sumOf (fun g => if g.core = c ∧ !g.writing then g.awaiting else 0) s.embed.gathers +
  (s.memory.far.filter (fun f => match f.use with
    | .rowAdd (some k) _ _ _ => k == c
    | _ => false)).length

/-- A lookup of one core has ended (R103, R311): with the last share its command has its outcome. -/
def State.endGather (s : State) (g : Gather) : State :=
  let s1 : State := { s with embed := { s.embed with gathers := s.embed.gathers.filter (fun k => k.id != g.id) } }
  match g.owner with
  | .engine c e => s1.modRun c (fun r => r.setEngine e { r.engine e with streaming := false })
  | .job _ => if s1.embed.gathers.any (fun k => k.uid == g.uid) ∨ ((s1.cmd? g.uid).map (·.opcode)) ≠ some 0x602 then s1 else s1.reply g.uid (okProgress (embDesc g.desc).bags)

/-- Pool and write the bags of a tile whose rows have come. -/
def State.finishTile (s : State) (id : Nat) : State :=
  match s.gather? id with
  | none => s
  | some g =>
    match s.table? g.ctx g.tset g.table, s.ctx? g.ctx with
    | some tbl, some x =>
      let t := embDesc g.desc
      let outs := (s.bagsOf g.core g.ctx t tbl g.lo g.mid).map (fun b => (b.1, s.poolBag x.part g.ctx t tbl g.got b.2))
      let (s1, n) := outs.foldl (fun (acc : State × Nat) o =>
        let (st, k) := acc.1.embWrite id g.uid g.core g.ctx t.dataDev (t.data + o.1 * t.stride) (poolBytes t.fmt o.2.1) o.2.2
        (st, acc.2 + k)) (s, 0)
      let s2 := if outs.any (fun o => o.2.2) then (s1.flag .embStat g.core 0 2).taintCore g.core 0xB (coreUnit g.core) else s1
      s2.modGather id (fun k => { k with writing := decide (n ≠ 0), awaiting := n })
    | _, _ => s

/-- The sparse trackers a share may hold (R315). -/
def Gather.limit (g : Gather) : Nat := min 8192 g.sparse

/-- Ask for far rows while trackers are free and a port is up (R315). -/
def State.pumpGatherN : Nat → Nat → State → State
  | 0, _, s => s
  | f + 1, id, s =>
    match s.gather? id with
    | some g => match g.todo with
      | (a, n) :: rest =>
        if g.writing ∨ g.stopped ∨ g.limit ≤ s.sparseHeld g.core then s else
        (match s.pageAt g.ctx a with
         | some (o, p) =>
           let lo := a / 64 * 64
           let k := (a + n + 63) / 64 - a / 64
           (match s.sendFar 1 (.row id lo) g.uid p.place (p.farAddr ((lo - o.base) % pageBytes)) k [] (s.coreChill g.core) with
            | some s1 => State.pumpGatherN f id ((s1.modGather id (fun g => { g with todo := rest, awaiting := g.awaiting + 1 })).peak .embOutst g.core 0 32 14 (s.sparseHeld g.core + 1))
            | none => s)
         | none => s)
      | [] => s
    | none => s

/-- The rows that bags name, with their positions in order. -/
def rowsOf (bags : List (Nat × List BagPos)) : List Nat := bags.flatMap (fun b => b.2.filterMap (·.row))

/-- The ranges of a tile that must be mapped: its ids and weights first, for they name the rows. -/
def State.tileUnmapped (s : State) (c x : Nat) (t : EmbDesc) (tbl : Table) (lo mid : Nat) : Option Nat :=
  let p := ((s.ctx? x).map (·.part)).getD 0
  match s.idsUnmapped c x t 1 lo mid with
  | some a => some a
  | none => firstUnmapped s x ((rowsOf (s.bagsOf c x t tbl lo mid)).map (fun r => (true, s.authority p x (tbl.rowAddr r), rowLen tbl.width tbl.bits)) ++
      (if lo < mid then [dataRange 1 t tbl.width lo mid] else []))

/-- A lookup takes up its next tile of 64 bags (R316): its rows are probed and counted, and those in T3 are to be asked for; or the address that is not mapped. -/
def State.openTile (s : State) (g : Gather) : Except Nat State :=
  match s.table? g.ctx g.tset g.table with
  | none => .ok s
  | some tbl =>
    let t := embDesc g.desc
    let mid := min g.hi (g.lo + 64)
    match s.tileUnmapped g.core g.ctx t tbl g.lo mid with
    | some a => .error a
    | none =>
      let p := ((s.ctx? g.ctx).map (·.part)).getD 0
      let bags := s.bagsOf g.core g.ctx t tbl g.lo mid
      let rows := rowsOf bags
      let n := rowLen tbl.width tbl.bits
      let at_ := rows.map (fun r => s.authority p g.ctx (tbl.rowAddr r))
      let far := distinct (at_.filter (fun a => ((s.pageAt g.ctx a).map (fun q => q.2.tier == Tier.t3)).getD false))
      let s1 := rows.foldl (fun st r => st.probe p g.ctx (tbl.rowAddr r) t.table r) s
      let s2 := s1.embAccess g.core (t.offsAt 1 g.core g.ctx g.lo mid ++ s.idsAt t 1 g.core g.ctx g.lo mid ++ at_.map (fun a => (.dev g.ctx a, n)))
      let s3 := (s2.badIds g.core ((bags.flatMap (·.2)).filter (·.badId)).length).countK .embRows g.core 0 32 rows.length
      .ok ((s3.peak .embOutst g.core 0 32 14 (min g.limit (if rows.isEmpty then 0 else 1))).modGather g.id (fun k => { k with
        mid := mid, needs := !rows.isEmpty, todo := far.map (fun a => (a, n)), got := [], writing := false, awaiting := 0 }))

/-- A lookup meets an unmapped page: it ends its program or command (R205). -/
def State.failGather (s : State) (g : Gather) (a : Nat) : State := match g.owner with
  | .engine c _ => s.failCore c (errPage 8 a)
  | .job _ => s.failAt g.uid (errPage 8 a)

/-- A tile is written: the lookup ends with its share's last, stops at the boundary if it is to stop, or takes up the next (R316). -/
def State.nextTile (s : State) (g : Gather) : State :=
  let g1 : Gather := { g with lo := g.mid, got := [], writing := false, needs := false }
  let s1 := s.modGather g.id (fun _ => g1)
  if g.hi ≤ g.mid then s1.endGather g1
  else if g.stopping then s1.modGather g.id (fun k => { k with stopped := true })
  else match s1.openTile g1 with
    | .ok s2 => s2
    | .error a => s1.failGather g1 a

/-- Whether every row of a lookup's tile has come, and its output can be written. -/
def State.tileReady (s : State) (g : Gather) : Bool :=
  let t := embDesc g.desc
  !g.writing && g.todo.isEmpty && g.awaiting == 0 && !(g.needs && g.limit == 0) &&
  s.outReady g.ctx (dataRange 1 t (((s.table? g.ctx g.tset g.table).map (·.width)).getD 0) g.lo g.mid)

/-- Let a lookup go on as far as it can; the fuel is its number of tiles. -/
def State.runGather : Nat → Nat → State → State
  | 0, _, s => s
  | f + 1, id, s =>
    match s.gather? id with
    | none => s
    | some g =>
      if g.stopped then s else
      let s1 := State.pumpGatherN g.todo.length id s
      match s1.gather? id with
      | none => s1
      | some g1 =>
        if !s1.tileReady g1 then s1 else
        let s2 := s1.finishTile id
        (match s2.gather? id with
         | none => s2
         | some g2 => if g2.writing then s2 else State.runGather f id (s2.nextTile g2))

def State.pumpGather (s : State) (id : Nat) : State := match s.gather? id with
  | some g => State.runGather ((g.hi - g.lo) / 64 + 2) id s
  | none => s

/-- A far row has come, or a far write of a lookup is acknowledged. -/
def State.gatherReply (s : State) (id : Nat) (part : Option FarPart) : State :=
  let s1 := s.modGather id (fun g => { g with awaiting := g.awaiting - 1, got := g.got ++ part.toList })
  match s1.gather? id with
  | some g => if g.writing then (if g.awaiting = 0 then (s1.nextTile g).pumpGather id else s1) else s1.pumpGather id
  | none => s1

/-- Start a lookup of bags lo to hi - 1 on a core: the state, or the address that is not mapped. -/
def State.startLookup (s : State) (owner : Owner) (uid c lcore x : Nat) (d : List Byte) (lo hi sparse : Nat) : Except Nat State :=
  let t := embDesc d
  let id := s.moves.nextId
  let g : Gather := { id := id, owner := owner, uid := uid, core := c, lcore := lcore, ctx := x, tset := t.tset, table := t.table, desc := d, lo := lo, hi := hi, mid := lo, sparse := sparse }
  let s1 : State := { s with embed := { s.embed with gathers := s.embed.gathers ++ [g] }, moves := { s.moves with nextId := id + 1 } }
  match s1.openTile g with
  | .error a => .error a
  | .ok s2 => .ok (s2.pumpGather id)

/-! ### Updates (R322 to R328) -/

/-- A contribution: bag, row, gradient row, whether it is poisoned. -/
structure Contribution where
  bag : Nat
  row : Nat
  g : List (BitVec 32)
  bad : Bool
  deriving DecidableEq, Repr

/-- The contributions of bags lo to hi - 1 in coalescing order. -/
def State.contributions (s : State) (c x : Nat) (t : EmbDesc) (tbl : Table) (lo hi : Nat) : List Contribution :=
  (s.bagsOf c x t tbl lo hi).flatMap (fun b =>
    let es := es2 t.fmt / 2
    let (gb, gbad) := s.embRead c x t.dataDev (t.data + b.1 * t.stride) (tbl.width * es)
    let g := (List.range tbl.width).map (fun i => rne (elemNum t.fmt (fld gb (i * es) es)))
    let n := (b.2.filter (fun q => q.row.isSome)).length
    b.2.filterMap (fun q => q.row.map (fun r =>
      { bag := b.1, row := r, bad := gbad || q.bad,
        g := if t.pool = 1 then g.map (fun v => canon (rne ((num v).div (Num.ofNat n)))) else if t.pool = 3 then g.map (fun v => canon (fmul q.wt v)) else g.map canon })))

/-- Bytes of a scratch entry (R323). -/
def entryBytes (w : Nat) : Nat := 32 * cdiv (32 + 4 * w) 32

/-- Add vectors element by element, one rounding each. -/
def addRows (a b : List (BitVec 32)) : List (BitVec 32) := (a.zip b).map (fun p => canon (fadd p.1 p.2))

/-- Sum contributions per row, in coalescing order from +0; at most `room` rows find an entry, and the others are returned. -/
def coalesceRows (w room : Nat) (cs : List Contribution) : List Contribution × List Contribution :=
  cs.foldl (fun (acc : List Contribution × List Contribution) k =>
    if acc.1.any (fun e => e.row == k.row) then
      (upd acc.1 (fun e => e.row == k.row) (fun e => { e with g := addRows e.g k.g, bad := e.bad || k.bad }), acc.2)
    else if acc.1.length < room then (acc.1 ++ [{ k with g := addRows (List.replicate w 0) k.g }], acc.2)
    else (acc.1, acc.2 ++ [k])) ([], [])

/-- Poison that a row add met ends what issued it. -/
def State.taintAdd (s : State) (r : RowReq) (block unit : Nat) : State := match r.core, r.launch with
  | some c, _ => s.taintCore c block unit
  | none, some l => s.taintLaunch l block unit
  | none, none => s.taint r.uid block unit

/-- Issue one quantized-row add: at its adder, or as ROW_ADD to its expander (R274, R322); none where no port of the expander is up. -/
def State.rowAdd (s : State) (r : RowReq) : Option State :=
  let x := r.ctx
  match s.ctx? x, s.table? x r.tset r.table with
  | some cx, some tbl =>
    let a := s.authority cx.part x (tbl.rowAddr r.row)
    let n := rowLen tbl.width tbl.bits
    let add : RowAdd := { w := tbl.width, b := tbl.bits, adaptive := tbl.adaptive, alpha := r.alpha, eps := tbl.eps, step := r.step, row := r.row,
                          key := randKey cx.seed tbl.tag 2, tag := tbl.tag, g := r.g }
    let s1 := (s.probe cx.part x (tbl.rowAddr r.row) r.table r.row).translate r.core x a n
    let s0 := match r.core with
      | some c => (s1.countK .embRows c 32 32 1).peak .embOutst c 0 32 14 (s1.sparseHeld c + 1)
      | none => s1
    match s0.pageAt x a, s0.vaRead x a n with
    | some (o, p), some (bs, was) =>
      if p.tier = .t3 ∧ !r.bad then
        s0.sendFar 5 (.rowAdd r.core x a r.index) r.uid p.place (p.farAddr ((a / 64 * 64 - o.base) % pageBytes)) (1 + cdiv tbl.width 16) (add.payload (a % 64)) r.core.isNone
      else
        let i := if p.tier = .t1 then p.place else 8 + p.place
        let s1 := (s0.countK .pnmAddStat i 0 32 ((a + n - 1) / 64 - a / 64 + 1)).vaTouch x a n
        let s2 := match add.apply bs with
          | some new => s1.vaWrite x a new
          | none => (s1.count .pnmAddStat i 0 32 16).event .rowNonfinite cx.part 0 (toLe 4 r.table ++ toLe 8 r.row)
        some (if r.bad ∨ was then
          let s3 := (s2.vaMarkFrom s0 x a n).count .pnmAddStat i 0 48 16
          if r.bad then s3 else s3.taintAdd r 0xA (s3.vaUnit x a)
        else s2)
    | _, _ => some s0
  | _, _ => some s

/-- Whether a row add may leave: a sparse tracker of its core is free, its command holds the core, and does not stop at the tile boundary that the add begins (R315, R316). -/
def State.addLeaves (s : State) (r : RowReq) : Bool :=
  (match r.owner, r.core with
   | some (.job _), some c => (s.core c).user == some r.uid
   | _, _ => true) &&
  (match r.core with
   | some c => decide (s.sparseHeld c < min 8192 r.sparse)
   | none => true) && !(r.edge && ((s.cmd? r.uid).map (fun c => c.halt)).getD false)

/-- Cores leave a command. -/
def State.dropCores (s : State) (uid : Nat) : State :=
  { s with cores := { s.cores with cores := s.cores.cores.map (fun (k : Core) => if k.user = some uid then { k with user := none } else k) } }

/-- Issue the row adds that may leave, in order; those of a core wait behind its first that may not (R315). -/
def State.issueAdds (s : State) : State :=
  let q := s.embed.adds
  let (s1, rest) := q.foldl (fun (acc : State × List RowReq) r =>
    if (r.core.isSome && acc.2.any (fun k => k.core == r.core)) || !acc.1.addLeaves r then (acc.1, acc.2 ++ [r]) else
    match acc.1.rowAdd r with
    | some st => (st, acc.2)
    | none => (acc.1, acc.2 ++ [r])) ({ s with embed := { s.embed with adds := [] } }, [])
  let s2 : State := { s1 with embed := { s1.embed with adds := rest } }
  q.foldl (fun (st : State) r =>
    if st.embed.adds.any (fun k => k.owner == r.owner && k.uid == r.uid) then st else
    match r.owner with
    | some (.engine c e) => st.modRun c (fun k => k.setEngine e { k.engine e with streaming := false })
    | some (.job _) => (match st.cmd? r.uid with
      | some c => if c.opcode = 0x603 ∧ c.work = .jobs ∧ c.reply.isNone then (st.dropCores r.uid).reply r.uid (okProgress (fld (c.pkt.bytes.drop 64) 36 4)) else st
      | none => st)
    | none => st) s2

/-- An acknowledged ROW_ADD: the model's image of the row follows (R246). -/
def State.farRowAdded (s : State) (x addr : Nat) (payload : List Byte) : State :=
  let a := RowAdd.ofPayload payload
  match s.vaRead x addr (rowLen a.w a.b) with
  | some (bs, _) => match a.apply bs with
    | some new => (s.vaWrite x addr new).vaTouch x addr new.length
    | none => s
  | none => s

/-- Update bags lo to hi - 1 on a core (R322 to R325): adds in normal mode; in Chill mode scratch entries, which the caller has found to fit. -/
def State.runUpdate (s : State) (owner : Owner) (uid c lcore op x : Nat) (d : List Byte) (tbl : Table) (lo hi share step sparse : Nat) (chill : Bool) (cs : List Contribution) : State :=
  let t := embDesc d
  let e := entryBytes tbl.width
  let bags := s.bagsOf c x t tbl lo hi
  let data := dataRange 2 t tbl.width lo hi
  let s0 := (s.badIds c ((bags.flatMap (·.2)).filter (·.badId)).length).embAccess c (t.offsAt 2 c x lo hi ++ s.idsAt t 2 c x lo hi ++ [(if t.dataDev then .dev x data.2.1 else .core c data.2.1, data.2.2)])
  let s1 := if cs.any (·.bad) then s0.taintCore c 0xB (coreUnit c) else s0
  let room := if chill then cs.length else if t.coalesce then share / e else 0
  let (entries, singles) := coalesceRows tbl.width room cs
  let s2 := (s1.countK .embCoal c 0 32 (cs.length - singles.length)).countK .embCoal c 32 32 entries.length
  let s3 := if chill ∨ t.coalesce then s2.scramble x (.dev x (t.scratch + lcore * share), min share (entries.length * e)) else s2
  let s4 := (singles ++ entries).foldl (fun st k => st.digestCore c 8 11 (k.g.flatMap (fun v => toLe 4 v.toNat))) s3
  if chill then
    { s4 with embed := { s4.embed with scratch := s4.embed.scratch ++ entries.map (fun k =>
        ({ launch := (s.core c).run.map (·.launch), uid := uid, op := op, ctx := x, tset := t.tset, table := t.table, row := k.row, core := lcore, alpha := t.alpha, step := step,
           acc := k.g, poisoned := k.bad } : Scratch)) } }
  else
    let all := singles ++ entries
    let reqs := (all.zip (none :: all.map some)).map (fun p =>
      ({ owner := some owner, uid := uid, core := some c, ctx := x, tset := t.tset, table := t.table, row := p.1.row, g := p.1.g, bad := p.1.bad, alpha := t.alpha, step := step,
         index := p.1.bag, sparse := sparse, edge := (p.2.map (fun q => (q.bag - lo) / 64)) != some ((p.1.bag - lo) / 64) } : RowReq))
    ({ s4 with embed := { s4.embed with adds := s4.embed.adds ++ reqs } } : State).issueAdds

/-- Apply scratch entries at their barrier's release: each row's entries are summed by the tree of R139 in ascending logical core and applied once, in ascending row address (R324, R326). The number of rows is returned. -/
def State.applyScratch (s : State) (mine : Scratch → Bool) : State × Nat :=
  let es := insSort (fun g => g.core) (s.embed.scratch.filter mine)
  let key (g : Scratch) : Nat × Nat × Nat × Nat × Nat := (g.ctx, g.tset, g.table, g.row, g.op)
  let addr (g : Scratch) : Nat := ((s.table? g.ctx g.tset g.table).map (fun t => t.rowAddr g.row)).getD 0
  let firsts := insSort addr (es.foldl (fun (l : List Scratch) g => if l.any (fun h => key h == key g) then l else l ++ [g]) [])
  let s0 : State := { s with embed := { s.embed with scratch := s.embed.scratch.filter (fun g => !mine g) } }
  let reqs := firsts.zipIdx.map (fun p =>
    let f := p.1
    let gs := es.filter (fun g => key g == key f)
    ({ launch := f.launch, uid := f.uid, ctx := f.ctx, tset := f.tset, table := f.table, row := f.row, g := combine addRows [] (gs.map (·.acc)), bad := gs.any (·.poisoned),
       alpha := f.alpha, step := f.step, index := p.2 } : RowReq))
  (({ s0 with embed := { s0.embed with adds := s0.embed.adds ++ reqs } } : State).issueAdds, firsts.length)

/-! ### Quiesced tables (R320) -/

/-- Whether a YARROW command of a table waits to run (R320). -/
def State.yarrowWaits (s : State) (x tset table : Nat) : Bool :=
  (s.queues.flatMap (·.running)).any (fun k => (k.opcode == 0x604 || k.opcode == 0x605) && k.work == .held && k.reply.isNone && k.ctx == x && k.u 40 2 == tset && k.u 42 2 == table)

/-- Whether lookups or updates of a table are under way. -/
def State.tableBusy (s : State) (x tset table order : Nat) : Bool :=
  s.embed.gathers.any (fun g => g.ctx == x && g.tset == tset && g.table == table) ||
  s.embed.scratch.any (fun g => g.ctx == x && g.tset == tset && g.table == table) ||
  s.embed.adds.any (fun r => r.ctx == x && r.tset == tset && r.table == table) ||
  s.memory.far.any (fun f => match f.use with
    | .rowAdd _ y a _ => y == x && ((s.table? x tset table).map (fun t => decide (t.base ≤ a ∧ a < t.rowAddr (t.rows - 1) + t.stride))).getD false
    | _ => false) ||
  (s.queues.flatMap (·.running)).any (fun k => (k.opcode == 0x602 || k.opcode == 0x603) && decide (k.order < order) && k.reply.isNone && k.ctx == x && k.u 104 2 == tset && k.u 106 2 == table)

/-! ### Core-program operations (R308 to R316) -/

/-- An unmapped address ends the program (R205). -/
def State.embPage (s : State) (c a : Nat) : State := s.failCore c (errPage 8 a)

/-- Mark a program's gather engine as waiting for far replies. -/
def State.streamingOn (s : State) (o : Owner) : State := match o with
  | .engine c e => s.modRun c (fun r => r.setEngine e { r.engine e with streaming := true })
  | .job _ => s

/-- Its operation waits no more. -/
def State.streamingOff (s : State) (o : Owner) : State := match o with
  | .engine c e => s.modRun c (fun r => r.setEngine e { r.engine e with streaming := false })
  | .job _ => s

/-- A LOOKUP of a core with its descriptor (R312). -/
def State.tryLookup (s : State) (owner : Owner) (uid c lcore cx sparse desc : Nat) (d : List Byte) : Attempt :=
  let t := embDesc d
  if s.provHeld none (t.offsAt 1 c cx 0 t.bags) then .wait s else
  match s.embErrors 1 c cx d false, s.table? cx t.tset t.table with
  | some (.field off), _ => .go ((s.refuseEmb c off desc).failCore c (errFormat off))
  | some (.unmapped a), _ => .go (s.embPage c a)
  | none, some tbl =>
    let out := dataRange 1 t tbl.width 0 t.bags
    if s.yarrowWaits cx t.tset t.table ∨ s.provHeld none (s.embPlaces t tbl 1 c cx 0 t.bags) then .wait s else
    (match s.snoopAny cx [(t.dataDev, t.data, out.2.2, true)] with
     | some s1 => .wait s1
     | none => match (s.streamingOn owner).startLookup owner uid c lcore cx d 0 t.bags sparse with
       | .ok s1 => .go s1
       | .error a => .go (s.embPage c a))
  | none, none => .wait s

/-- LOOKUP (R312). -/
def execLookup (c : Fin 40) (s : State) : Host.Outcome State Fault Refusal :=
  s.run (fun s => s.gatherRow c 1 128 (fun s r q d =>
    s.tryLookup (.engine c 8) (((s.coreWork c).map (·.1)).getD 0) c r.logical r.ctx (((s.launch? r.launch).map (·.sparse)).getD 0) q.op.desc.toNat d))

/-- Whether a contribution would reach a PROTECTED page in T3 (R228). -/
def State.farProtected (s : State) (p x : Nat) (tbl : Table) (cs : List Contribution) : Bool :=
  cs.any (fun k => match s.pageAt x (s.authority p x (tbl.rowAddr k.row)) with
    | some (o, g) => g.tier == .t3 && o.prot
    | none => false)

/-- An UPDATE of a core with its descriptor; `index` is its place in its program (R322 to R325). -/
def State.tryUpdate (s : State) (owner : Owner) (uid c lcore cx index sparse desc : Nat) (d : List Byte) : Attempt :=
  let t := embDesc d
  let chill := s.coreChill c
  if s.provHeld none (t.offsAt 2 c cx 0 t.bags) then .wait s else
  match s.embErrors 2 c cx d (chill || t.coalesce), s.table? cx t.tset t.table with
  | some (.field off), _ => .go ((s.refuseEmb c off desc).failCore c (errFormat off))
  | some (.unmapped a), _ => .go (s.embPage c a)
  | none, some tbl =>
    let inp := dataRange 2 t tbl.width 0 t.bags
    let p := ((s.ctx? cx).map (·.part)).getD 0
    if s.yarrowWaits cx t.tset t.table ∨ s.provHeld none (s.embPlaces t tbl 2 c cx 0 t.bags) then .wait s else
    (match firstUnmapped s cx ([inp] ++ (if chill ∨ t.coalesce then [(true, t.scratch, t.scratchBytes)] else [])), s.idsUnmapped c cx t 2 0 t.bags with
     | some a, _ => .go (s.embPage c a)
     | none, some a => .go (s.embPage c a)
     | none, none =>
       let cs := s.contributions c cx t tbl 0 t.bags
       let n := rowLen tbl.width tbl.bits
       match firstUnmapped s cx (cs.map (fun k => (true, s.authority p cx (tbl.rowAddr k.row), n))) with
       | some a => .go (s.embPage c a)
       | none =>
         let need_ := entryBytes tbl.width * (distinct (cs.map (fun k => k.row))).length
         if s.farProtected p cx tbl cs then .go (s.failCore c (errFormat 42))
         else if chill ∧ t.scratchBytes < need_ then .go (s.failCore c (errNofit 13 (cdiv need_ 65536)))
         else match s.snoopAny cx ([(t.dataDev, t.data, inp.2.2, false)] ++ cs.map (fun k => (true, s.authority p cx (tbl.rowAddr k.row), n, true))) with
         | some s1 => .wait s1
         | none =>
           let s1 := (s.streamingOn owner).runUpdate owner uid c lcore index cx d tbl 0 t.bags t.scratchBytes (s.coreStep c) sparse chill cs
           .go (if s1.embed.adds.any (fun r => r.owner == some owner && r.core == some c) then s1 else s1.streamingOff owner))
  | none, none => .wait s

/-- UPDATE (R322 to R325). -/
def execUpdate (c : Fin 40) (s : State) : Host.Outcome State Fault Refusal :=
  s.run (fun s => s.gatherRow c 2 128 (fun s r q d => s.tryUpdate (.engine c 8) (((s.coreWork c).map (·.1)).getD 0) c r.logical r.ctx q.index (((s.launch? r.launch).map (·.sparse)).getD 0) q.op.desc.toNat d))

/-- A HASH of a core with its descriptor (R306, R308): the row index of each id; the pad id is written back as it is. -/
def State.tryHash (s : State) (c cx desc : Nat) (d : List Byte) : Attempt :=
  let t := embDesc d
  match s.embErrors 3 c cx d false, s.table? cx t.tset t.table with
  | some (.field off), _ => .go ((s.refuseEmb c off desc).failCore c (errFormat off))
  | some (.unmapped a), _ => .go (s.embPage c a)
  | none, some tbl =>
    let n := 8 * t.bags
    if s.provHeld none (s.embPlaces t tbl 3 c cx 0 t.bags) ∨ !s.outReady cx (t.dataDev, t.data, n) then .wait s else
    (match firstUnmapped s cx [(t.dev, t.ids, n), (t.dataDev, t.data, n)] with
     | some a => .go (s.embPage c a)
     | none => match s.snoopAny cx [(t.dev, t.ids, n, false), (t.dataDev, t.data, n, true)] with
       | some s1 => .wait s1
       | none =>
         let ids := (List.range t.bags).map (fun j => s.embRead c cx t.dev (t.ids + 8 * j) 8)
         .go (ids.zipIdx.foldl (fun st p =>
           let id := leNat p.1.1
           let st1 := (st.embWrite 0 0 c cx t.dataDev (t.data + 8 * p.2) (toLe 8 (if id = padId then padId else tbl.hash id)) p.1.2).1
           if p.1.2 then st1.taintCore c 0xB (coreUnit c) else st1) (s.embAccess c (s.idsAt t 3 c cx 0 t.bags))))
  | none, none => .wait s

/-- HASH (R306, R308). -/
def execHash (c : Fin 40) (s : State) : Host.Outcome State Fault Refusal :=
  s.run (fun s => s.gatherRow c 3 128 (fun s r q d => s.tryHash c r.ctx q.op.desc.toNat d))

/-! ### Commands (R311, R319 to R321, R352) -/

/-- Whether a command's STEP is skipped by the scale vote, or its vote is still out (R352, R353). -/
def State.stepSkipped (s : State) (x step : Nat) : Bool := ((s.ctx? x).map (fun k => k.votes.any (fun v => v.step == step && v.skipped))).getD false
def State.stepWaits (s : State) (x step : Nat) : Bool := ((s.ctx? x).map (fun k => k.pendingVotes.contains step)).getD false

/-- The bags of core l of n (R311). -/
def bagShare (bags n l : Nat) : Nat × Nat := (l * bags / n, (l + 1) * bags / n)

/-- Give cores to a command (log entry 15). -/
def State.holdCores (s : State) (uid x : Nat) (phys : List Nat) : State :=
  phys.foldl (fun st c => (st.modCore c (fun k => { k.own x with user := some uid })).wake c (((s.cmd? uid).map (·.chill)).getD false)) s

/-- The first bad field of a command's descriptor whose SPACE is not 3: at offset 47 unless an earlier field is bad, whatever space it is in (R310, R311). -/
def State.spaceBad (s : State) (op c x : Nat) (d : List Byte) : Nat :=
  match s.embErrors op c x (d.take 47 ++ [3] ++ d.drop 48) false with
  | some (.field o) => min o 47
  | _ => 47

/-- What EMB_LOOKUP and EMB_UPDATE have in common: fields, ticket, descriptor, table, physical cores. -/
def State.embCommand (s : State) (c : Running) (op : Nat) : Except Stop (Except Nat (List Byte × Table × List Nat × Ticket)) := do
  plenIs c 128
  let (_, t) ← s.judgeTicket c .tables (reserved c 42 22)
  let cores ← coreRange t (c.u 40 1) (c.u 41 1) 40
  reserved c 42 22
  let d := (c.pkt.bytes.drop 64).take 128
  let e := embDesc d
  match s.physCores cores with
  | none => .error .held
  | some phys =>
    let bad : Option EmbBad := if t.payload ≠ .tables e.tset then some (.field 40) else if fld d 47 1 ≠ 3 then some (.field (s.spaceBad op (phys.headD 0) c.ctx d)) else s.embErrors op (phys.headD 0) c.ctx d (op == 2 && (c.chill || e.coalesce))
    match bad, s.table? c.ctx e.tset e.table with
    | some (.field off), _ => .ok (.error off)
    | some (.unmapped a), _ => fail (errPage 8 a)
    | none, none => .ok (.error 42)
    | none, some tbl => .ok (.ok (d, tbl, phys, t))

/-- A refused command descriptor is recorded in the first core of the range (R310). -/
def State.refuseEmbCmd (s : State) (c : Running) (off : Nat) : State × Option Reply :=
  let c0 := match s.useTicket c .tables with
    | .ok (_, t) => (((t.cores.drop (c.u 40 1)).head?).bind s.posCore).getD 0
    | .error _ => 0
  (s.refuseEmb c0 off 0, some (errFormat off))

/-- Start a command's lookup on its cores, each with its share of the bags (R311). -/
def State.lookupShares (s : State) (c : Running) (d : List Byte) (sparse : Nat) (phys : List Nat) : Except Nat State :=
  phys.zipIdx.foldl (fun (acc : Except Nat State) p => match acc with
    | .ok st =>
      let sh := bagShare (embDesc d).bags phys.length p.2
      if ((st.cmd? c.uid).map (fun k => k.reply.isSome)).getD true ∨ sh.2 ≤ sh.1 then .ok st else
      st.startLookup (.job c.uid) c.uid p.1 p.2 c.ctx d sh.1 sh.2 sparse
    | e => e) (.ok s)

/-- EMB_LOOKUP (R311, R312). -/
def bodyEmbLookup : Body := fun c s => do
  match ← s.embCommand c 1 with
  | .error off => .ok (s.refuseEmbCmd c off)
  | .ok (d, tbl, phys, tk) =>
    let t := embDesc d
    if !phys.all (s.coreFree c.ctx) ∨ s.yarrowWaits c.ctx t.tset t.table ∨ s.provHeld none (s.embPlaces t tbl 1 0 c.ctx 0 t.bags) then .error .held else
    match s.waitLines c [(t.data, (t.bags - 1) * t.stride + dataBytes 1 t tbl.width, true)] with
    | some s1 => .ok (s1, none)
    | none =>
      let s1 := (s.holdCores c.uid c.ctx phys).modCmd c.uid (fun k => { k with work := .jobs })
      match s1.lookupShares c d tk.decl.sparse phys with
      | .error a => .ok (s.killWork c.uid, some (errPage 8 a))
      | .ok s2 => .ok (if s2.embed.gathers.any (·.uid == c.uid) then (s2, none) else (s2, some (okProgress t.bags)))

/-- EMB_UPDATE (R311, R322 to R326, R352, R353). -/
def bodyEmbUpdate : Body := fun c s => do
  if s.stepWaits c.ctx c.step then .error .held else
  match ← s.embCommand c 2 with
  | .error off => .ok (s.refuseEmbCmd c off)
  | .ok (d, tbl, phys, tk) =>
    if s.stepSkipped c.ctx c.step then .ok (s, some okSkipped) else
    let t := embDesc d
    if !phys.all (s.coreFree c.ctx) ∨ s.yarrowWaits c.ctx t.tset t.table ∨ s.provHeld none (s.embPlaces t tbl 2 0 c.ctx 0 t.bags) then .error .held else
    let p := ((s.ctx? c.ctx).map (·.part)).getD 0
    let n := phys.length
    let chill := c.chill
    match firstUnmapped s c.ctx ([dataRange 2 t tbl.width 0 t.bags] ++ (if chill ∨ t.coalesce then [(true, t.scratch, t.scratchBytes)] else [])), s.idsUnmapped 0 c.ctx t 2 0 t.bags with
    | some a, _ => fail (errPage 8 a)
    | none, some a => fail (errPage 8 a)
    | none, none =>
      let parts := phys.zipIdx.map (fun q => let sh := bagShare t.bags n q.2
        (q.1, q.2, sh, s.contributions q.1 c.ctx t tbl sh.1 sh.2))
      let all := parts.flatMap (fun q => q.2.2.2)
      let len := rowLen tbl.width tbl.bits
      match firstUnmapped s c.ctx (all.map (fun k => (true, s.authority p c.ctx (tbl.rowAddr k.row), len))) with
      | some a => fail (errPage 8 a)
      | none =>
        let need_ := entryBytes tbl.width * sumOf (fun q => (distinct (q.2.2.2.map (fun k => k.row))).length) parts
        need (!s.farProtected p c.ctx tbl all) (errFormat 42)
        need (!(chill && decide (t.scratchBytes < need_))) (errNofit 13 (cdiv need_ 65536))
        match s.waitLines c (all.map (fun k => (s.authority p c.ctx (tbl.rowAddr k.row), len, true))) with
        | some s1 => .ok (s1, none)
        | none =>
          let s1 := (s.holdCores c.uid c.ctx phys).modCmd c.uid (fun k => { k with work := .jobs })
          let s2 := parts.foldl (fun st q => st.runUpdate (.job c.uid) c.uid q.1 q.2.1 0 c.ctx d tbl q.2.2.1.1 q.2.2.1.2 (t.scratchBytes / n) c.step tk.decl.sparse chill q.2.2.2) s1
          if chill then .ok (s2.modCmd c.uid (fun k => { k with work := .barrier }), none)
          else if s2.embed.adds.any (fun r => r.uid == c.uid) then .ok (s2, none)
          else .ok (s2.dropCores c.uid, some (okProgress t.bags))

/-- The fields that the YARROW commands share (R319): the table, and the listed rows. -/
def State.yarrowArgs (s : State) (c : Running) (load : Bool) : Except Stop (Table × List Nat) := do
  let (_, t) ← s.judgeTicket c .tables (do
    need (decide (c.u 44 1 ≤ if load then 1 else 2)) (errFormat 44)
    reserved c 46 2
    reserved c 60 4)
  need (t.payload == .tables (c.u 40 2)) (errFormat 40)
  match s.table? c.ctx (c.u 40 2) (c.u 42 2) with
  | none => fail (errFormat 42)
  | some tbl =>
    need (decide (c.u 44 1 ≤ if load then 1 else 2)) (errFormat 44)
    need (decide (if load then c.u 45 1 < 4 else c.u 45 1 = 0)) (errFormat 45)
    reserved c 46 2
    let lists := load || c.u 44 1 == 2
    need (!lists || (c.u 48 8 % 8 == 0 && decide (c.u 48 8 < 2 ^ 52))) (errFormat 48)
    need (!lists || c.u 56 4 != 0) (errFormat 56)
    reserved c 60 4
    if s.tableBusy c.ctx (c.u 40 2) (c.u 42 2) c.order then .error .held
    else if lists then
      let bs ← s.input c false (c.u 48 8) (8 * c.u 56 4)
      .ok (tbl, (chunks 8 (c.u 56 4 + 1) bs).map leNat)
    else .ok (tbl, [])

/-- Copy a row's bytes with their poison. -/
def State.copyRow (s : State) (c : Running) (src dst n : Nat) : State :=
  match s.vaRead c.ctx src n with
  | some (bs, bad) =>
    let s1 := ((s.vaWrite c.ctx dst bs bad).vaTouch c.ctx src n).vaTouch c.ctx dst n
    let s2 := s1.digestWrite c.uid 0 0 9 bs
    if bad then s2.taint c.uid 0xB (s2.vaUnit c.ctx src) else s2
  | none => s

/-- The rows of a table that are resident, in ascending address. -/
def State.residents (s : State) (c : Running) (tbl : Table) : List Nat :=
  insSort id ((distinct ((s.embed.yarrow.filter (fun y => y.part == c.part && y.ctx == c.ctx && y.tset == c.u 40 2 && y.table == c.u 42 2)).map (fun y => y.row * 32))).filter (fun a => decide (tbl.base ≤ a)))

/-- Write a resident row's serving copy back; drop its other entries, and with `evict` all of them (R321). -/
def State.yarrowBack (s : State) (c : Running) (tbl : Table) (evict : Bool) (addr : Nat) : State :=
  let hs := s.yarrowHits c.part c.ctx addr
  match yarrowBest hs with
  | none => s
  | some y =>
    let s1 := s.copyRow c ((s.copyAddr y).getD addr) addr (rowLen tbl.width tbl.bits)
    let s2 := s1.count .embYarrowStat c.part 0 32 16 (hs.length - 1)
    { s2 with embed := { s2.embed with yarrow := s2.embed.yarrow.filter (fun z => !(hs.contains z && (evict || z != y))) } }

/-- Load listed rows in list order (R321): the rows loaded are counted. -/
def State.yarrowLoadRows (s : State) (c : Running) (tbl : Table) (k : Part) (rows : List Nat) : State × Nat :=
  rows.foldl (fun (acc : State × Nat) r =>
    let st := acc.1
    let addr := tbl.rowAddr r
    let b := yarrowBucket k.bktBase k.carve.buckets c.ctx addr
    let used := (st.embed.yarrow.filter (fun y => y.ctx == c.ctx && y.tset == c.u 40 2 && y.table == c.u 42 2)).map (·.slot)
    let full := decide (8 ≤ (st.embed.yarrow.filter (fun y => y.part == c.part && y.bucket == b)).length) || k.carve.buckets == 0
    match (if tbl.rows ≤ r ∨ full then none else firstFree tbl.ySlots used) with
    | none => (st.count .embYarrowStat c.part 0 16 16, acc.2)
    | some slot =>
      let y : Yarrow := { part := c.part, bucket := b, ctx := c.ctx, row := addr / 32, tset := c.u 40 2, table := c.u 42 2, slot := slot, prio := c.u 45 1 }
      let st1 := match st.copyAddr y with
        | some a => st.copyRow c (st.authority c.part c.ctx addr) a (rowLen tbl.width tbl.bits)
        | none => st
      ({ st1 with embed := { st1.embed with yarrow := st1.embed.yarrow ++ [y] } }, acc.2 + 1)) (s, 0)

/-- YARROW_LOAD (R319 to R321). -/
def bodyYarrowLoad : Body := fun c s => do
  let (tbl, rows) ← s.yarrowArgs c true
  match s.part? c.part with
  | none => fail (errFormat 40)
  | some k =>
    let s0 := s.sawInput c false (c.u 48 8) (8 * c.u 56 4)
    let s1 := if c.u 44 1 = 0 then (s.residents c tbl).foldl (fun st a => st.yarrowBack c tbl true a) s0 else s0
    let (s2, n) := s1.yarrowLoadRows c tbl k rows
    .ok (s2, some (okProgress rows.length n))

/-- YARROW_WRITEBACK (R319 to R321). -/
def bodyYarrowWriteback : Body := fun c s => do
  let (tbl, rows) ← s.yarrowArgs c false
  let res := s.residents c tbl
  if c.u 44 1 = 2 then
    let s1 := rows.foldl (fun st r => if r < tbl.rows ∧ res.contains (tbl.rowAddr r) then st.yarrowBack c tbl true (tbl.rowAddr r) else st) (s.sawInput c false (c.u 48 8) (8 * c.u 56 4))
    .ok (s1, some (okProgress rows.length))
  else
    .ok (res.foldl (fun st a => st.yarrowBack c tbl (c.u 44 1 == 1) a) s, some (okProgress res.length))

def execEmbTableCreate := opcodeStep 0x0601 false false bodyEmbTableCreate
def execEmbLookup := opcodeStep 0x0602 false false bodyEmbLookup
def execEmbUpdate := opcodeStep 0x0603 false false bodyEmbUpdate
def execYarrowLoad := opcodeStep 0x0604 false false bodyYarrowLoad
def execYarrowWriteback := opcodeStep 0x0605 false false bodyYarrowWriteback

end Sys2Proof.Machine
end

