-- ==== Sys2Proof/Machine/Chains.lean ====
section
/-! DEFINITION. Streams of programs and commands, copies, fused chains, plans, landing and parking (R189 to R209). -/

namespace Sys2Proof.Machine
open Sys2Proof

/-! ### Opening streams -/

/-- A refused stream descriptor is recorded in a core (R183, R215). -/
def State.refuseStream (s : State) (c off desc : Nat) : State :=
  ((s.flag .strStat c 0 3).setField .strStat c 0 8 8 off).setField .strStat c 0 16 18 (desc / 64)

/-- A stream begins to issue (R185, R186); a run-ahead one gets its record (R210). -/
def State.openStream (s : State) (k : Stream) : State :=
  let id := s.moves.nextId
  let t : Stream := { k with id := id }
  let s1 : State := { s with moves := { s.moves with nextId := id + 1, streams := s.moves.streams ++ [t] } }
  let c := t.core.getD 0
  let launch := match t.owner with
    | .engine c _ => (s.core c).run.map (·.launch)
    | .job _ => none
  let v : Provisional := { sid := id, uid := t.uid, core := c, ctx := ((s.core c).storeCtx).getD 0, launch := launch }
  let s2 : State := if t.runahead then { s1 with memory := { s1.memory with provisional := s1.memory.provisional ++ [v] } } else s1
  ((s2.issueStream id).showProgress id).endStream id

/-- The pieces of a share of a descriptor. -/
def State.share (s : State) (t : StreamDesc) (e : Ends) (dim lo hi : Nat) : List Piece := if t.cmp % 4 = 0 then walk t e dim lo hi else s.blockWalk t e dim lo hi

/-- What a stream of a descriptor starts as. -/
def StreamDesc.stream (t : StreamDesc) (owner : Owner) (uid : Nat) (core : Option Nat) (engine lcore tensor dense : Nat) (ps : List Piece) : Stream :=
  { id := 0, owner := owner, uid := uid, core := core, engine := engine, lcore := lcore, pieces := ps, todo := ps, total := t.total, noAlloc := t.noAlloc, runahead := t.runahead,
    cmp := t.cmp, step := (t.ds[5]?).getD 0, tensor := tensor, dense := dense, counts := t.counts }

/-- The ends of a command's transfers on a core. -/
def State.endsOf (s : State) (c : Running) (core : Nat) : Ends := { core := core, ctx := c.space, link := s.linkOf c.queue, pasid := s.pasidOf c }

/-- The check of a stream descriptor for an engine (R183, R290). -/
def streamBad (engine : Nat) (d : List Byte) (t : StreamDesc) : Option Nat :=
  match streamErrors d t with
  | some o => some o
  | none => if engine = 7 ∧ t.cmp % 4 ≠ 0 then some 114 else none

/-- STREAM_OPERATION: a stream engine starts the operation at its head (R189). -/
def State.streamOp (s : State) (c e : Nat) : State :=
  match s.startable c e with
  | none => s
  | some (r, q) =>
    let s1 := s.begin c e q
    if q.descBeyond 192 then (s1.refuseStream c 0 q.op.desc.toNat).failCore c (errFormat 0) else
    match s1.opDesc c q 192 1 with
    | .error rep => s1.failCore c rep
    | .ok d =>
      let t := streamDesc d q.loops
      match streamBad e d t with
      | some off => (s1.refuseStream c off q.op.desc.toNat).failCore c (errFormat off)
      | none =>
        let uid := ((s1.coreWork c).map (·.1)).getD 0
        let ends : Ends := match s1.cmd? uid with
          | some k => { (s1.endsOf k c) with ctx := r.ctx }
          | none => { core := c, ctx := r.ctx, link := 0, pasid := none }
        let ps := s1.share t ends 0 0 (t.count 0)
        if t.cmp % 4 ≠ 0 ∧ s1.touchesProtected r.ctx ps then ((s1.refuseStream c 114 q.op.desc.toNat).count .cmpRefused r.part 0 0 16).failCore c (errFormat 114) else
        let s2 := s1.modRun c (fun r => r.setEngine e { r.engine e with streaming := true })
        s2.openStream { t.stream (.engine c e) uid (some c) e r.logical (s1.tensorOf c e) (((s1.launch? r.launch).map (·.dense)).getD 0) ps with descOff := some q.op.desc.toNat }

/-- STREAM_OPERATION (R189). -/
def execStreamOperation (c : Fin 40) (out : Bool) (s : State) : Host.Outcome State Fault Refusal := s.run (fun s => s.streamOp c (if out then 7 else 6))

/-! ### Streams of commands (R190, R191) -/

/-- Every other piece. -/
def alternate : Bool → List Piece → List Piece
  | _, [] => []
  | b, p :: l => if b then p :: alternate false l else alternate true l

/-- A job: a stream split over cores, or a fused chain. -/
def State.addJob (s : State) (uid entry total : Nat) (cores : List Nat) (fused : Option Fused) : State × Nat :=
  let id := s.moves.nextId
  ({ s with moves := { s.moves with nextId := id + 1, jobs := s.moves.jobs ++ [{ id := id, uid := uid, entry := entry, cores := cores, total := total, fused := fused }] } }, id)

/-- The first bad offset of a STREAM command's inline fields. -/
def streamFields (bs : List Byte) : Option Nat :=
  leastOf ((if 5 < fld bs 40 1 ∨ fld bs 179 1 ≤ fld bs 40 1 then [40] else []) ++ ((List.range 21).filter (fun i => fld bs (43 + i) 1 ≠ 0)).map (43 + ·))

/-- Open the streams of a core's share on the engines that R190 chooses. -/
def State.openShare (s : State) (t : StreamDesc) (ps : List Piece) (mk : Nat → List Piece → Stream) : State :=
  if t.dp = 0 then s.openStream (mk 6 ps)
  else if t.sp = 0 then s.openStream (mk 7 ps)
  else (s.openStream { mk 6 (alternate true ps) with tile := 32 }).openStream { mk 7 (alternate false ps) with tile := 32 }

/-- Start a stream split over physical cores (R190, R191): the bad descriptor offset, or the new state. -/
def State.startSplit (s : State) (c : Running) (entry : Nat) (bs : List Byte) (phys : List Nat) (dense : Nat) : Except Nat State :=
  let d := (bs.drop 64).take 128
  let t := streamDesc d [0, 0, 0, 0]
  let dim := fld bs 40 1
  match streamErrors d t with
  | some off => .error off
  | none =>
    let n := phys.length
    let cnt := t.count dim
    let shares := phys.zipIdx.map (fun p => (p.1, p.2, s.share t (s.endsOf c p.1) dim (p.2 * cnt / n) ((p.2 + 1) * cnt / n)))
    if t.cmp % 4 ≠ 0 ∧ shares.any (fun h => s.touchesProtected c.space h.2.2) then .error 114 else
    let (s1, id) := s.addJob c.uid entry t.total phys none
    let tensor := entry % 2 ^ 12 * 2 ^ 16
    .ok (shares.foldl (fun st h => st.openShare t h.2.2 (fun e ps => t.stream (.job id) c.uid (some h.1) e h.2.1 tensor dense ps)) s1)

/-- Record a refused command descriptor in its first core; a PROTECTED source is counted (R215, R299). -/
def State.refuseSplit (s : State) (c : Running) (bs : List Byte) (core off : Nat) : State :=
  let s1 := s.refuseStream core off 0
  let d := (bs.drop 64).take 128
  if off = 114 ∧ (streamErrors d (streamDesc d [0, 0, 0, 0])).isNone then s1.count .cmpRefused c.part 0 0 16 else s1

/-! ### Fused chains (R193 to R196) -/

/-- Stage headers and descriptors of a FUSED command: the stages, or the packet offset of a bad field. -/
def parseStages (bs : List Byte) : Nat → Nat → Except Nat (List Stage)
  | 0, pos => if pos = 64 + fld bs 26 2 then .ok [] else .error 26
  | n + 1, pos =>
    let e := fld bs pos 1
    let op := fld bs (pos + 1) 1
    let len := fld bs (pos + 2) 1
    let want := if e ≤ 4 then (if op = 2 then 2 else 1) else if e = 5 then 1 else if e ≤ 7 then 2 else (if op ≤ 3 then 2 else 1)
    if e = 0 ∨ 8 < e then .error pos
    else if !opKnown e op then .error (pos + 1)
    else if len ≠ want then .error (pos + 2)
    else match (List.range 5).find? (fun i => fld bs (pos + 3 + i) 1 ≠ 0) with
      | some i => .error (pos + 3 + i)
      | none => match parseStages bs n (pos + 8 + 64 * len) with
        | .ok l => .ok ({ engine := e, op := op, desc := (bs.drop (pos + 8)).take (64 * len) } :: l)
        | .error o => .error o

/-- Whether stages have the shape of R194. -/
def chainShape (l : List Stage) : Bool :=
  let mid := match l with
    | a :: r => if a.engine = 6 ∨ a.engine = 8 then r else l
    | [] => []
  let core := match mid.getLast? with
    | some z => if z.engine = 7 then mid.dropLast else mid
    | none => []
  !core.isEmpty && core.all (fun g => decide (1 ≤ g.engine ∧ g.engine ≤ 5)) && (distinct ((core.filter (fun g => g.engine ≠ 5)).map (fun g => g.engine))).length ≤ 1

/-- The inline fields of FUSED (R193): the stages, or the packet offset of a bad field. -/
def fusedFields (bs : List Byte) : Except Nat (List Stage) :=
  if fld bs 40 1 < 2 ∨ 4 < fld bs 40 1 then .error 40
  else if fld bs 43 1 ≠ 0 then .error 43
  else if fld bs 44 4 = 0 then .error 44
  else match (List.range 12).find? (fun i => fld bs (52 + i) 1 ≠ 0) with
    | some i => .error (52 + i)
    | none => match parseStages bs (fld bs 40 1) 64 with
      | .ok l => if chainShape l then .ok l else .error 64
      | .error o => .error o

/-- Add the buffer flip to a four-byte field. -/
def addFlip (flip off : Nat) (d : List Byte) : List Byte := d.take off ++ toLe 4 ((fld d off 4 + flip) % 2 ^ 32) ++ d.drop (off + 4)

/-- A stage's descriptor with HB_FLIP added to its T0 addresses (R193). -/
def Stage.flipped (g : Stage) (flip : Nat) : List Byte :=
  let d := g.desc
  let at_ (l : List Nat) : List Byte := l.foldl (fun d o => addFlip flip o d) d
  if flip = 0 then d
  else if g.engine ≤ 4 then at_ [0, 8, 16, 32, 36, 40]
  else if g.engine = 5 then at_ ([0] ++ (if fld d 32 1 = 8 then [] else [8]) ++ [16, 60])
  else if g.engine ≤ 7 then at_ ((if bits (fld d 112 1) 1 0 = 0 then [0] else []) ++ (if bits (fld d 112 1) 3 2 = 0 then [8] else []))
  else if g.op = 0x20 then at_ [48]
  else if g.op = 0x21 then at_ [8]
  else at_ ((if bit (fld d 47 1) 0 then [] else [0] ++ (if fld d 8 8 = 0 then [] else [8]) ++ [16]) ++ (if bit (fld d 47 1) 1 then [] else [24]))

/-- The check of a stage's descriptor at the first tile (R194). -/
def Stage.bad (g : Stage) : Option Nat :=
  let loops := [0, 0, 0, 0]
  if g.engine ≤ 4 then (if g.op = 3 then drainOpErrors g.desc (drainDesc g.desc loops) else tileErrors g.desc (tileDesc (g.op == 2) g.desc loops))
  else if g.engine = 5 then vecErrors g.desc (vecDesc g.desc loops 0)
  else if g.engine ≤ 7 then streamBad g.engine g.desc (streamDesc g.desc loops)
  else none

/-- Try a gather operation of a core with its descriptor. -/
def State.tryGather (s : State) (owner : Owner) (uid c lcore cx index desc op sparse : Nat) (fault : Option Nat) (d : List Byte) : Attempt :=
  if op = 0x20 then s.tryLadle c cx fault true d
  else if op = 0x21 then s.tryMadd c cx d
  else if op = 1 then s.tryLookup owner uid c lcore cx sparse desc d
  else if op = 2 then s.tryUpdate owner uid c lcore cx index sparse desc d
  else s.tryHash c cx desc d

def State.job? (s : State) (id : Nat) : Option Job := s.moves.jobs.find? (·.id == id)

/-- Change one core's record of a fused job. -/
def State.modFused (s : State) (id : Nat) (f : Fused → Fused) : State := s.modJob id (fun j => { j with fused := j.fused.map f })
def State.modFusedCore (s : State) (id i : Nat) (f : FusedCore → FusedCore) : State :=
  s.modFused id (fun u => { u with cores := match u.cores[i]? with
    | some k => setAt u.cores i (f k)
    | none => u.cores })

/-- The stage of a chain that a core's move phase runs first, or last. -/
def Fused.first (f : Fused) : Option Stage := match f.stages with
  | g :: _ => if g.engine = 6 ∨ g.engine = 8 then some g else none
  | [] => none
def Fused.last (f : Fused) : Option Stage := match f.stages.getLast? with
  | some g => if g.engine = 7 then some g else none
  | none => none

/-- The flip of a core's k-th own tile. -/
def Fused.flipOf (f : Fused) (k : Nat) : Nat := if k % 2 = 1 then f.flip else 0

/-- The declaration of the ticket that a command runs under. -/
def State.cmdDecl (s : State) (c : Running) : Option Decl := ((s.slot? c.part (bits c.ticket 11 0)).bind (·.live)).map (fun t => t.decl)

/-- DENSE and SPARSE of the ticket that a command runs under. -/
def State.cmdDense (s : State) (c : Running) : Nat := ((s.cmdDecl c).map (·.dense)).getD 0
def State.cmdSparse (s : State) (c : Running) : Nat := ((s.cmdDecl c).map (·.sparse)).getD 0

/-- Start a stream stage of a tile, on the engines that R190 chooses. -/
def State.fusedStream (s : State) (c : Running) (j : Job) (k : FusedCore) (g : Stage) (index tile flip dense : Nat) : State :=
  let d := g.flipped flip
  let t := streamDesc d [tile, 0, 0, 0]
  match streamErrors d t with
  | some off => (s.refuseStream k.core off 0).failCmd c.uid { (errFormat off : Reply) with progress := s.progressOf c.uid }
  | none =>
    let ps := s.share t (s.endsOf c k.core) 0 0 (t.count 0)
    if t.cmp % 4 ≠ 0 ∧ s.touchesProtected c.space ps then
      ((s.refuseStream k.core 114 0).count .cmpRefused c.part 0 0 16).failCmd c.uid { (errFormat 114 : Reply) with progress := s.progressOf c.uid }
    else s.openShare t ps (fun e ps => t.stream (.job j.id) c.uid (some k.core) e k.lcore (index + j.entry % 2 ^ 12 * 2 ^ 16) dense ps)

/-- The upset that strikes an array stage of a fused job, with the logical cell it strikes (R150, R151). -/
def State.arrayUpset (s : State) (id core a : Nat) (t : TileDesc) : Option (Upset × Residue) :=
  let arr := (s.core core).array a
  (((s.job? id).bind (·.fused)).map (·.upsets)).getD [] |>.findSome? (fun u =>
    if u.cls = 7 ∧ bits u.id 23 16 = core ∧ bits u.id 9 8 = a then
      (match lineLogical arr.retRow u.row, lineLogical arr.retCol u.col with
       | some r, some n => if r < t.m ∧ n < t.n then some (u, { row := Fin.ofNat 64 r, col := Fin.ofNat 64 n }) else none
       | _, _ => none)
    else none)

/-- The upset that strikes a LADLE stage of a fused job, with the first element that its ladle serves (R251, R268). -/
def State.ladleUpset (s : State) (id cx : Nat) (t : LadleDesc) : Option (Upset × Nat) :=
  (((s.job? id).bind (·.fused)).map (·.upsets)).getD [] |>.findSome? (fun u =>
    if u.cls = 5 then ((List.range t.len).find? (fun i => s.ladleOf cx (t.x + i * t.es) == some (u.id, u.row))).map (fun i => (u, i)) else none)

/-- Take an upset from a fused job. -/
def State.takeUpset (s : State) (id : Nat) (u : Option Upset) : State := match u with
  | some u => s.modFused id (fun f => { f with upsets := f.upsets.erase u })
  | none => s

/-- Run the compute stages of a tile in stage order, each counted when it completes; none while one of them must wait. -/
def State.fusedCompute (s : State) (id : Nat) (k : FusedCore) (tile flip : Nat) : List (Stage × Nat) → Option State
  | [] => some s
  | (g, i) :: l =>
    let s1 := s.modCore k.core (fun q => { q with stage := i })
    let d := g.flipped flip
    let loops := [tile, 0, 0, 0]
    let a := g.engine - 1
    let u := if g.engine = 5 then none else s1.arrayUpset id k.core a (tileDesc (g.op == 2) d loops)
    match (if g.engine = 5 then s1.tryVec k.core loops 0 0 d else (s1.takeUpset id (u.map (·.1))).tryArray k.core a g.op (u.map (·.2)) true loops 0 d) with
    | .wait _ => none
    | .go s2 =>
      if (s2.core k.core).user.isNone then some s2 else
      (if g.engine = 5 then s2.count .vecOps k.core 0 0 32 else s2.count .arrOps k.core a 0 32).fusedCompute id k tile flip l

/-- Hold a core for a command again where it has yielded it and the core is free (R206). -/
def State.claim (s : State) (c : Running) (core : Nat) : Option State :=
  if (s.core core).user = some c.uid then some s
  else if s.coreFree c.ctx core then some (s.holdCores c.uid c.space [core]) else none

/-- One move of a fused core (R195, R196): the new state, and whether anything advanced. -/
def State.fusedStep (s : State) (id i : Nat) : State × Bool :=
  match s.job? id with
  | some j => (match j.fused, s.cmd? j.uid with
    | some f, some c => (match f.cores[i]? with
      | some k =>
        let dense := s.cmdDense c
        let busy := s.moves.streams.any (fun t => t.owner == .job id && t.core == some k.core) || s.embed.gathers.any (fun g => g.owner == .job id && g.core == k.core) ||
          s.embed.adds.any (fun r => r.owner == some (.job id) && r.core == some k.core)
        if k.ended then (s, false)
        else if k.moving then
          if k.due then
            if !s.mayMove k.core then (s, false) else
            (match f.first with
             | some g =>
               let d := g.flipped (f.flipOf (k.begun - 1))
               let u := if g.op = 0x20 then s.ladleUpset id c.space (ladleDesc d) else none
               (match ((s.takeUpset id (u.map (·.1))).modCore k.core (fun q => { q with stage := 0 })).tryGather (.job id) j.uid k.core k.lcore c.space 0 0 g.op (s.cmdSparse c) (u.map (·.2)) d with
                | .wait s1 => (s1.modFused id (fun q => { q with upsets := f.upsets }), false)
                | .go s1 => (s1.modFusedCore id i (fun k => { k with due := false }), true))
             | none => (s.modFusedCore id i (fun k => { k with due := false }), true))
          else if busy then (s, false)
          else
            let s := s.modCore k.core (fun q => { q with slot := false })
            let s1 := match k.prev, f.last with
              | some p, some _ => s.modFused id (fun u => { u with done := u.done ++ [p] })
              | _, _ => s
            (match k.tile with
             | none => (s1.modFusedCore id i (fun k => { k with ended := true, moving := false, prev := none }), true)
             | some t =>
               let mid := f.stages.zipIdx.filter (fun p => decide (1 ≤ p.1.engine ∧ p.1.engine ≤ 5))
               match s1.fusedCompute id k t (f.flipOf (k.begun - 1)) mid with
               | none => (s, false)
               | some s2 =>
                 let s3 := if f.last.isSome then s2 else s2.modFused id (fun u => { u with done := u.done ++ [t] })
                 (s3.modFusedCore id i (fun k => { k with prev := some t, tile := none, moving := false }), true))
        else match (if c.halt ∨ (mget s.moves.damages c.uid).isSome ∨ s.moves.streams.any (fun t => t.owner == .job id && t.halted) then none else s.claim c k.core) with
        | none => (s, false)
        | some s =>
          let n := f.cores.length
          let pick := if c.chill then i + k.begun * n else f.next
          let tile := if pick < f.tiles then some pick else none
          if tile.isNone ∧ (k.prev.isNone ∨ f.last.isNone) then (s.modFusedCore id i (fun k => { k with ended := true, prev := none }), true)
          else
            let s1 := (s.modFused id (fun u => { u with next := if tile.isSome ∧ !c.chill then u.next + 1 else u.next })).modFusedCore id i
              (fun k => { k with moving := true, tile := tile, begun := k.begun + 1, due := tile.isSome && (f.first.map (fun g => g.engine == 8)).getD false })
            let s2 := match f.first, tile with
              | some g, some t => if g.engine = 6 then s1.fusedStream c j k g 0 t (f.flipOf k.begun) dense else s1
              | _, _ => s1
            let s3 := match f.last, k.prev with
              | some g, some p => s2.fusedStream c j k g (f.stages.length - 1) p (f.flipOf (k.begun - 1)) dense
              | _, _ => s2
            (s3, true)
      | none => (s, false))
    | _, _ => (s, false))
  | none => (s, false)

/-- Advance every core of a fused job until all of them wait. -/
def State.pumpFused (id : Nat) : Nat → State → State
  | 0, s => s
  | f + 1, s =>
    let n := (((s.job? id).bind (·.fused)).map (fun u => u.cores.length)).getD 0
    let r := (List.range n).foldl (fun (a : State × Bool) i => let b := a.1.fusedStep id i
      (b.1, a.2 || b.2)) (s, false)
    if r.2 then State.pumpFused id f r.1 else r.1

/-- Start a fused chain on physical cores: the bad offset of a stage's descriptor, with the stage, or the new state. -/
def State.startFused (s : State) (c : Running) (entry : Nat) (bs : List Byte) (stages : List Stage) (phys : List Nat) : Except (Stage × Nat) State :=
  match stages.findSome? (fun g => g.bad.map (fun o => (g, o))) with
  | some e => .error e
  | none =>
    let f : Fused := { stages := stages, tiles := fld bs 44 4, flip := fld bs 48 4, cores := phys.zipIdx.map (fun p => ({ core := p.1, lcore := p.2 } : FusedCore)) }
    let (s1, id) := s.addJob c.uid entry f.tiles phys (some f)
    .ok (State.pumpFused id (4 * f.tiles + 8) s1)

/-- Record a refused stage descriptor in a core (R128, R160, R183). -/
def State.refuseStage (s : State) (core : Nat) (g : Stage) (off : Nat) : State :=
  if g.engine ≤ 4 then ((s.flag .arrStat core (g.engine - 1) 5).setField .arrStat core (g.engine - 1) 8 7 off).setField .arrStat core (g.engine - 1) 16 18 0
  else if g.engine = 5 then ((s.flag .vecStat core 0 1).setField .vecStat core 0 8 7 off).setField .vecStat core 0 16 18 0
  else s.refuseStream core off 0

/-! ### Plans (R197 to R199) -/

/-- A plan entry from its 32 bytes and the packet it names. -/
def planEntry (e pkt : List Byte) : PlanEntry :=
  { kind := fld e 0 1, layerEnd := bit (fld e 1 1) 0, firstCore := fld e 2 1, cores := fld e 3 1, pkt := pkt, ticket := fld e 8 8, args := fld e 16 8 }

/-- The bad offsets of entry i of a plan image (R197, R198). -/
def planErrors (cores : Nat) (i : Nat) (e : List Byte) (shared : Bool) : List Nat :=
  let at_ (k : Nat) : Nat := 32 + 32 * i + k
  let first := fld e 2 1
  let n := fld e 3 1
  let kind := fld e 0 1
  (if 1 ≤ kind ∧ kind ≤ 3 then [] else [at_ 0]) ++ (if 2 ≤ fld e 1 1 then [at_ 1] else []) ++ (if cores ≤ first ∨ shared then [at_ 2] else []) ++
  (if n = 0 ∨ 32 < n ∨ cores < first + n then [at_ 3] else []) ++ ((List.range 4).filter (fun k => fld e (4 + k) 1 ≠ 0)).map (fun k => at_ (4 + k)) ++
  (if kind ≠ 3 ∧ 2 ^ 52 ≤ fld e 8 8 then [at_ 8] else []) ++ (if (if kind = 3 then bits (fld e 16 8) 5 1 ≠ 0 else fld e 16 8 ≠ 0) then [at_ 16] else []) ++
  ((List.range 8).filter (fun k => fld e (24 + k) 1 ≠ 0)).map (fun k => at_ (24 + k))

/-- Whether each entry shares a core with an earlier one of its layer. -/
def sharedCores : List (Nat × Nat) → List (List Byte) → List Bool
  | _, [] => []
  | used, e :: l =>
    let a := fld e 2 1
    let b := a + fld e 3 1
    let hit := used.any (fun u => decide (a < u.2 ∧ u.1 < b))
    hit :: sharedCores (if bit (fld e 1 1) 0 then [] else used ++ [(a, b)]) l

/-- The packet that an entry names, read and checked. -/
def State.planPacket (s : State) (c : Running) (e : List Byte) (i : Nat) : Except Stop (List Byte) := do
  if fld e 0 1 = 3 then .ok [] else
  let addr := fld e 8 8
  let h ← s.input c false addr 64
  let n := fld h 26 2
  let at_ := 32 + 32 * i + 8
  need (decide (n % 8 = 0 ∧ n ≤ 448)) (errFormat 40 at_)
  let bs ← s.input c false addr (64 + n)
  if fld e 0 1 = 2 then
    need (n == 128 && (streamFields bs).isNone) (errFormat 40 at_)
    .ok bs
  else match fusedFields bs with
    | .ok _ => .ok bs
    | .error _ => fail (errFormat 40 at_)

/-- Read and check a plan image (R197, R198). -/
def State.planImage (s : State) (c : Running) (d : Decl) : Except Stop (List PlanEntry) := do
  let (host, addr) ← imageField c 40
  let n := c.u 48 4
  let hdr ← s.input c host addr 32
  need (n == 32 + 32 * fld hdr 8 2) (errFormat 48)
  let bs ← s.input c host addr n
  let es := chunks 32 4097 (bs.drop 32)
  let shared := sharedCores [] es
  let bad := leastOf ((if fld bs 0 2 = 0x5C0A then [] else [0]) ++ (if fld bs 2 2 = 0x0709 then [] else [2]) ++ (if fld bs 4 1 = 0xA1 then [] else [4]) ++
    ((List.range 3).filter (fun i => fld bs (5 + i) 1 ≠ 0)).map (5 + ·) ++ (if 1 ≤ fld bs 8 2 ∧ fld bs 8 2 ≤ 4096 then [] else [8]) ++
    ((List.range 22).filter (fun i => fld bs (10 + i) 1 ≠ 0)).map (10 + ·) ++
    (es.zip shared).zipIdx.flatMap (fun p => planErrors d.cores p.2 p.1.1 p.1.2) ++
    (match es.getLast? with
     | some e => if bit (fld e 1 1) 0 then [] else [32 * es.length + 1]
     | none => []))
  match bad with
  | some o => fail (errFormat 40 o)
  | none => es.zipIdx.foldlM (fun acc p => do
      let pkt ← s.planPacket c p.1 p.2
      .ok (acc ++ [planEntry p.1 pkt])) []

/-- The granules of a plan image and of the packets that its entries name count in their pages (R229). -/
def State.sawPlan (s : State) (c : Running) (es : List PlanEntry) : State :=
  es.foldl (fun st e => if e.kind = 3 then st else st.sawInput c false e.ticket e.pkt.length) (s.sawImage c (c.u 40 8) (c.u 48 4))

/-- The entries of layer k, with their indices. -/
def planLayer : Nat → List (PlanEntry × Nat) → List (PlanEntry × Nat)
  | 0, l => l.takeWhile (fun p => !p.1.layerEnd) ++ (l.dropWhile (fun p => !p.1.layerEnd)).take 1
  | k + 1, l => planLayer k ((l.dropWhile (fun p => !p.1.layerEnd)).drop 1)

/-- The layers of a plan. -/
def planLayers (es : List PlanEntry) : Nat := (es.filter (·.layerEnd)).length

/-- A program's ticket that a plan entry names, when it is live (R198, R199). -/
def State.entryTicket (s : State) (c : Running) (t : Nat) : Option Ticket :=
  if bits t 23 17 ≠ 0 ∨ bits t 16 12 ≠ c.part ∨ bits t 31 24 ≠ c.ctx then none else
  match s.slot? c.part (bits t 11 0) with
  | some sl => match sl.live with
    | some k => if sl.gen = bits t 63 32 ∧ k.ctx = c.ctx ∧ Issuer.prog.accepts k.payload then some k else none
    | none => none
  | none => none

/-- Whether an entry of a plan names a program with a BAR across devices. -/
def State.ringEntry (s : State) (c : Running) (e : PlanEntry) : Bool :=
  e.kind == 3 && (match (s.entryTicket c e.ticket).map (fun (t : Ticket) => t.payload) with
    | some (.prog ops) => ringBars ops
    | _ => false)

/-- PLAN_LOAD (R197, R198, R388). -/
def bodyPlanLoad : Body := fun c s => do
  plenIs c 64
  noTicket c
  imageFormat c 40 48
  reserved c 52 12
  declFormat c 64 64
  let es ← s.planImage c (declAt c 64)
  let g ← s.admission c 64
  need (!(s.pairedPart c.part && es.any (s.ringEntry c))) (errPartition 40)
  let (s1, t) := (s.sawPlan c es).issue c g (.plan es)
  .ok (s1, some (okProgress t))

/-- The plan that a command launches: its ticket. -/
def State.planTicket (s : State) (c : Running) : Option Ticket := (s.slot? c.part (bits c.ticket 11 0)).bind (·.live)

/-- Whether an entry of a plan has started. -/
def State.entryStarted (s : State) (uid e : Nat) : Bool :=
  s.moves.jobs.any (fun j => j.uid == uid && j.entry == e) || s.cores.launches.any (fun l => l.by_ == .entry uid e)

/-- Start one entry of a plan on its group of the plan's cores, a program among them with its own ticket's other resources (R197, R198; DEDUCED, log entry 42); an entry that cannot start yet leaves the state. -/
def State.startEntry (s : State) (c : Running) (layer : Nat) (t : Ticket) (p : PlanEntry × Nat) : State :=
  if ((s.cmd? c.uid).bind (·.reply)).isSome ∨ s.entryStarted c.uid p.2 then s else
  let stop (s : State) (r : Reply) : State := s.failCmd c.uid { r with progress := layer }
  if p.1.kind = 3 then
    match s.entryTicket c p.1.ticket with
    | none => stop s (errConflict 1 (bits p.1.ticket 11 0))
    | some k =>
      let group := (t.cores.drop p.1.firstCore).take p.1.cores
      let ready (q : Nat) : Bool := (s.core q).run.isNone && ((s.core q).user == some c.uid || s.coreFree c.ctx q)
      match k.payload, (s.physCores group).filter (fun l => l.all ready) with
      | .prog ops, some phys =>
        (match (if p.1.args = 0 then (.ok [] : Except Stop (List Byte)) else s.input c (bit p.1.args 0) (p.1.args / 64 * 64) 4096) with
         | .ok args => ((s.sawImage c p.1.args (if p.1.args = 0 then 0 else 4096)).holdCores c.uid c.space phys).startLaunch (.entry c.uid p.2) { k with cores := group } c.part ops phys args c.chill c.step
         | .error (.done r) => stop s r
         | .error (.park l q g) => s.askPage l q g
         | .error .held => s)
      | _, _ => s
  else match s.physCores ((t.cores.drop p.1.firstCore).take p.1.cores) with
    | none => s
    | some phys =>
      if p.1.kind = 2 then
        match s.startSplit c p.2 p.1.pkt phys t.decl.dense with
        | .ok s1 => s1
        | .error off => stop (s.refuseSplit c p.1.pkt (phys.headD 0) off) (errFormat off)
      else match fusedFields p.1.pkt with
        | .ok gs => (match s.startFused c p.2 p.1.pkt gs phys with
          | .ok s1 => s1
          | .error (g, off) => stop (s.refuseStage (phys.headD 0) g off) (errFormat off))
        | .error off => stop s (errFormat off)

/-- Start what can start of a plan's current layer; a program that saturated a signal ends the command (R106, R199). -/
def State.pumpPlan (s : State) (c : Running) (layer : Nat) : State :=
  match s.planTicket c with
  | some t => (match t.payload with
    | .plan es =>
      let s1 := (planLayer layer es.zipIdx).foldl (fun st p => st.startEntry c layer t p) s
      match s1.cores.launches.findSome? (fun l => if l.by_.uid = some c.uid then (l.reply.bind (fun r => if r.status = 0x33 then some r else none)) else none) with
      | some r => s1.failCmd c.uid { r with progress := layer }
      | none => s1
    | _ => s)
  | none => s

/-- Whether every entry of a plan's layer has ended. -/
def State.layerDone (s : State) (c : Running) (layer : Nat) : Bool :=
  match s.planTicket c with
  | some t => (match t.payload with
    | .plan es => (planLayer layer es.zipIdx).all (fun p =>
        s.moves.jobs.any (fun j => j.uid == c.uid && j.entry == p.2 && j.done) || s.cores.launches.any (fun l => l.by_ == .entry c.uid p.2 && l.reply.isSome))
    | _ => false)
  | none => false

/-! ### Keeping jobs going -/

/-- Whether a command that stops has row adds left on a core, which wait at a tile boundary (R206, R316). -/
def State.addsHeld (s : State) (uid core : Nat) : Bool :=
  ((s.cmd? uid).map (·.halt)).getD false && s.embed.adds.any (fun r => r.uid == uid && r.core == some core) && s.addsStopped uid

/-- A lookup that has met its park limit drops the rows still parked once the others have come, and stops at the boundary before its tile (R206, R316). -/
def State.stopGather (s : State) (id : Nat) : State :=
  match s.gather? id with
  | none => s
  | some g =>
    let mine := s.memory.far.filter (fun f => match f.use with
      | .row k _ => k == id
      | _ => false)
    if g.halted ∧ !g.stopped ∧ !g.writing ∧ mine.all (fun f => f.retryAfter.isSome) then
      let s1 := mine.foldl (fun (st : State) f => st.dropFar f.orig f.tag) s
      s1.modGather id (fun k => { k with stopped := true, mid := k.lo, needs := false, todo := [], awaiting := 0, got := [] })
    else s

/-- Release the cores on which everything of a command has stopped, and those whose share had landed when the command yields its cores (R206, R316). -/
def State.yieldStopped (s : State) : State :=
  s.cores.cores.foldl (fun st k => match k.user with
    | some u =>
      if (mget st.moves.damages u).isSome then st else
      let ts := st.moves.streams.filter (fun t => t.core == some k.id && t.uid == u)
      let gs := st.embed.gathers.filter (fun g => g.core == k.id && g.uid == u)
      let held := st.addsHeld u k.id
      let idle := ts.isEmpty && gs.isEmpty && !st.embed.adds.any (fun r => r.uid == u && r.core == some k.id)
      let left := st.moves.jobs.any (fun j => j.uid == u && j.cores.contains k.id && j.fused.isNone && !j.done &&
        st.moves.streams.any (fun t => t.owner == .job j.id) && st.moves.streams.all (fun t => t.owner != .job j.id || t.halted))
      if idle ∧ left then (st.modCore k.id (fun q => { q with user := none })).count .strPark k.id 0 32 16 else
      if (!ts.isEmpty ∨ !gs.isEmpty ∨ held) ∧ ts.all (·.stopped) ∧ gs.all (·.stopped) ∧ (held ∨ !st.embed.adds.any (fun r => r.uid == u && r.core == some k.id)) then
        let st1 := st.modCore k.id (fun q => { q with user := none })
        if ts.any (·.halted) ∨ gs.any (·.halted) then st1.count .strPark k.id 0 32 16 else st1
      else if idle ∧ ((st.cmd? u).map (·.halt)).getD false ∧ st.moves.jobs.any (fun j => j.uid == u && ((j.fused.map (fun f => f.cores.any (fun q => q.core == k.id && !q.moving))).getD false)) then
        st.modCore k.id (fun q => { q with user := none })
      else st
    | none => st) s

/-- Resume stopped streams whose faults are resolved and whose cores are free (R206, R78). -/
def State.resumeStreams (s : State) : State :=
  s.moves.streams.foldl (fun st t =>
    if !t.stopped then st else
    match st.cmd? t.uid with
    | some c =>
      let farOk := t.todo.all (fun p => [p.src, p.dst].all (fun q => match st.farPage q with
        | some (_, g) => (st.farPort g.place).isSome
        | none => true))
      let coreOk := match t.core with
        | some k => (st.core k).user == some t.uid || st.coreFree c.ctx k
        | none => true
      if c.halt ∨ (mget st.moves.damages t.uid).isSome ∨ !t.awaits.isEmpty ∨ !farOk ∨ !coreOk then st else
      let st1 := match t.core with
        | some k => st.holdCores t.uid c.space [k]
        | none => st
      let st2 := st1.modStream t.id (fun k => { k with stopping := false, halted := false, stopped := false, awaits := [], faultKind := 0, faultAddr := 0 })
      (st2.issueStream t.id).endStream t.id
    | none => st) s

/-- Whether a port is up for every T3 row of a lookup's next tile. -/
def State.tileReach (s : State) (g : Gather) : Bool :=
  match s.table? g.ctx g.tset g.table, s.ctx? g.ctx with
  | some tbl, some x => (rowsOf (s.bagsOf g.core g.ctx (embDesc g.desc) tbl g.lo (min g.hi (g.lo + 64)))).all (fun r =>
      match s.farPage (.dev g.ctx (s.authority x.part g.ctx (tbl.rowAddr r))) with
      | some (_, p) => (s.farPort p.place).isSome
      | none => true)
  | _, _ => true

/-- Resume stopped lookups, and hold again the cores of updates that may go on (R206, R78, R316). -/
def State.resumeRows (s : State) : State :=
  let ready (st : State) (uid core : Nat) : Option Running := match st.cmd? uid with
    | some c => if c.halt ∨ (mget st.moves.damages uid).isSome ∨ !((st.core core).user == some uid || st.coreFree c.ctx core) then none else some c
    | none => none
  let s1 := s.embed.gathers.foldl (fun (st : State) g =>
    if !g.stopped ∨ !st.tileReach g then st else
    match ready st g.uid g.core with
    | some c =>
      let st1 := (st.holdCores g.uid c.space [g.core]).modGather g.id (fun k => { k with stopping := false, halted := false, stopped := false })
      (match st1.openTile g with
       | .ok st2 => st2
       | .error a => st1.failGather g a)
    | none => st) s
  s1.embed.adds.foldl (fun (st : State) r => match r.owner, r.core with
    | some (.job _), some k =>
      if (st.core k).user == some r.uid then st else
      (match ready st r.uid k with
       | some c => st.holdCores r.uid c.space [k]
       | none => st)
    | _, _ => st) s1

/-- Lookups and row adds go on as far as they can. -/
def State.pumpRows (s : State) : State :=
  if s.embed.gathers.isEmpty ∧ s.embed.adds.isEmpty then s else
  let s1 := (s.embed.gathers.map (·.id)).foldl State.stopGather s
  let s2 := s1.yieldStopped.resumeRows.issueAdds
  (s2.embed.gathers.map (·.id)).foldl State.pumpGather s2

/-- Mark the jobs that have ended, and bring their commands to their barriers or outcomes (R114, R192, R199). -/
def State.settleJobs (s : State) : State :=
  let ended (j : Job) : Bool := match j.fused with
    | some f => f.cores.all (·.ended)
    | none => !s.moves.streams.any (fun t => t.owner == .job j.id)
  let s1 : State := { s with moves := { s.moves with jobs := s.moves.jobs.map (fun (j : Job) => if ended j then { j with done := true } else j) } }
  (s1.queues.flatMap (·.running)).foldl (fun (st : State) (c : Running) =>
    let js : List Job := st.moves.jobs.filter (fun j => j.uid == c.uid)
    if c.reply.isSome ∨ js.isEmpty ∨ !js.all (·.done) ∨ c.work ≠ .jobs then st
    else if c.opcode = 0x404 ∨ c.opcode = 0x405 then st.reply c.uid (okProgress ((js.head?.map (·.total)).getD 0))
    else st.modCmd c.uid (fun k => { k with work := .barrier, progress := ((js.head?.map (·.total)).getD 0) })) s1

/-- Advance fused chains, jobs, plans and stopped streams as far as they go. -/
def State.pumpJobs (s : State) : State :=
  let s0 := (s.moves.streams.filter (fun t => t.stopping && !t.stopped)).foldl (fun st t => st.stopStream t.id) s.pumpRows
  let s1 := s0.moves.jobs.foldl (fun st j => match j.fused with
    | some f => if j.done then st else State.pumpFused j.id (4 * f.tiles + 8) st
    | none => st) s0
  let s2 := (s1.yieldStopped.resumeStreams).settleJobs
  ((s2.queues.flatMap (·.running)).foldl (fun st c => match c.work with
    | .plan k => if c.reply.isSome ∨ c.halt then st else st.pumpPlan c k
    | _ => st) s2).settleJobs.settleStops

/-! ### Serving move slots (R94) -/

/-- Whether a command that holds a core without a program has transfers or a gather to move there. -/
def State.jobMoves (s : State) (c : Nat) : Bool :=
  (s.core c).user.isSome &&
  (s.moves.streams.any (fun t => t.core == some c && !t.stopped && (match t.owner with
    | .job _ => true
    | .engine _ _ => false)) ||
   s.moves.jobs.any (fun j => (j.fused.map (fun f => f.cores.any (fun k => k.core == c && k.moving && k.due))).getD false))

/-- Whether a core needs a move slot that it does not hold. -/
def State.needsSlot (s : State) (c : Nat) : Bool := !(s.core c).slot && (((s.core c).run.map (·.moveReady)).getD false || s.jobMoves c)

/-- A core takes a move slot: what its command waited to move goes out. -/
def State.takeSlot (s : State) (c : Nat) : State :=
  let ids := (s.moves.streams.filter (fun t => t.core == some c)).map (·.id)
  (ids.foldl (fun st i => (st.issueStream i).endStream i) (s.modCore c (fun k => { k with slot := true })))

/-- Serve the first of a partition's waiting cores while a slot is free; fuel bounds them by the cores that wait. -/
def State.serveSlots (p : Nat) : Nat → State → State
  | 0, s => s
  | n + 1, s => match s.part? p with
    | some k => match k.slotWait with
      | c :: rest => if s.slotHolders k < s.moveSlots p then State.serveSlots p n ((s.modPart p (fun k => { k with slotWait := rest })).takeSlot c) else s
      | [] => s
    | none => s

/-- The requests for move slots of a tick are taken together at its end: cores that no longer need one leave, the tick's new requests follow those that wait in ascending core position, free slots are served, and a new request that is left waiting is counted (R94). -/
def State.settleSlots (s : State) (p : Nat) : State :=
  match s.part? p with
  | none => s
  | some k =>
    let cs := s.partCores k
    let s1 := (cs.filter (fun c => (s.core c).slot && (s.core c).run.isNone && !s.jobMoves c)).foldl (fun (st : State) c => st.modCore c (fun k => { k with slot := false })) s
    let new := cs.filter (fun c => s1.needsSlot c && !k.slotWait.contains c)
    if s1.moveSlots p = 0 then
      k.slotWait.foldl (fun (st : State) c => (((st.moves.streams.filter (fun t => t.core == some c)).map (·.id)).foldl State.issueStream st)) (s1.modPart p (fun k => { k with slotWait := [] }))
    else
      let wait := k.slotWait.filter s1.needsSlot ++ new
      let s2 := State.serveSlots p wait.length (s1.modPart p (fun k => { k with slotWait := wait }))
      let left := ((s2.part? p).map (·.slotWait)).getD []
      s2.countK .coreStagger p 32 32 (new.filter left.contains).length

/-- The move slots of every partition at the end of a tick. -/
def State.slotsAtTick (s : State) : State :=
  if s.tenants.parts.all (fun p => s.moveSlots p.id == 0 && p.slotWait.isEmpty) then s
  else ((s.tenants.parts.map (fun (p : Part) => p.id)).foldl State.settleSlots s).pumpJobs

/-- MOVE_SLOT_GRANT: the first waiting core takes a slot that is free (R94). -/
def execMoveSlotGrant (p : Fin 32) (s : State) : Host.Outcome State Fault Refusal := s.run (fun s => (State.serveSlots p 1 s).pumpJobs)

/-! ### Stream commands -/

/-- STREAM (R190, R191). -/
def bodyStream : Body := fun c s => do
  plenIs c 128
  let (_, t) ← s.judgeTicket c .progOrPlan (do
    need (decide (c.u 40 1 ≤ 5)) (errFormat 40)
    need (decide (c.u 42 1 ≤ 32)) (errFormat 42)
    reserved c 43 21)
  need (decide (c.u 40 1 ≤ 5)) (errFormat 40)
  let cores ← coreRange t (c.u 41 1) (c.u 42 1) 41
  reserved c 43 21
  let d := (c.pkt.bytes.drop 64).take 128
  match streamErrors d (streamDesc d [0, 0, 0, 0]), s.physCores cores with
  | some off, phys => .ok (s.refuseSplit c c.pkt.bytes ((phys.getD []).headD 0) off, some (errFormat off))
  | none, none => .error .held
  | none, some phys =>
    need (decide (c.u 40 1 < fld d 115 1)) (errFormat 40)
    if !phys.all (s.coreFree c.ctx) then .error .held else
    match (s.holdCores c.uid c.ctx phys).startSplit c 0 c.pkt.bytes phys t.decl.dense with
    | .error off => .ok (s.refuseSplit c c.pkt.bytes (phys.headD 0) off, some (errFormat off))
    | .ok s1 => .ok ((s1.modCmd c.uid (fun k => if k.reply.isSome then k else { k with work := .jobs })).settleJobs, none)

/-- FUSED (R193 to R196). -/
def bodyFused : Body := fun c s => do
  let (_, t) ← s.judgeTicket c .progOrPlan (match fusedFields c.pkt.bytes with
    | .ok _ => .ok ()
    | .error o => fail (errFormat o))
  match fusedFields c.pkt.bytes with
  | .error o => fail (errFormat o)
  | .ok gs =>
    let cores ← coreRange t (c.u 41 1) (c.u 42 1) 41
    match gs.findSome? (fun g => g.bad.map (fun o => (g, o))), s.physCores cores with
    | some (g, off), phys => .ok (s.refuseStage ((phys.getD []).headD 0) g off, some (errFormat off))
    | none, none => .error .held
    | none, some phys =>
      if !phys.all (s.coreFree c.ctx) then .error .held else
      let s0 := (s.holdCores c.uid c.ctx phys).modCmd c.uid (fun k => { k with work := .jobs })
      match s0.startFused c 0 c.pkt.bytes gs phys with
      | .error (_, off) => fail (errFormat off)
      | .ok s1 => .ok (s1.settleJobs, none)

/-- PLAN_LAUNCH (R199). -/
def bodyPlanLaunch : Body := fun c s => do
  let (_, t) ← s.judgeTicket c .plan (reserved c 40 24)
  reserved c 40 24
  match t.payload with
  | .plan es =>
    match es.find? (fun e => e.kind == 3 && (s.entryTicket c e.ticket).isNone) with
    | some e => fail (errConflict 1 (bits e.ticket 11 0))
    | none =>
      match s.freeCores t.ctx t.cores with
      | none => .error .held
      | some phys =>
        let s1 := (s.holdCores c.uid c.ctx phys).modCmd c.uid (fun k => { k with work := .plan 0 })
        .ok ((s1.pumpPlan c 0).settleJobs, none)
  | _ => fail (errFormat 32)

/-- The one contiguous run of a copy. -/
def copyDesc (sp dp src dst len : Nat) : StreamDesc :=
  { src := src, dst := dst, counts := [len, 1, 1, 1, 1, 1], ss := [1, 0, 0, 0, 0, 0], ds := [1, 0, 0, 0, 0, 0], dims := 1, sp := sp, dp := dp, es := 1, conv := .none, cmp := 0,
    runahead := false, noAlloc := false }

/-- Start a copy on the copy engine of the die that holds the queue's link. -/
def State.startCopy (s : State) (c : Running) (t : StreamDesc) (pattern : Option (BitVec 64)) : State :=
  let ps := s.share t (s.endsOf c 0) 0 0 (t.count 0)
  let ps1 := match pattern with
    | some w => ps.map (fun p => { p with src := .pattern w })
    | none => ps
  let (s1, id) := s.addJob c.uid 0 t.total [] none
  (((s1.modCmd c.uid (fun k => { k with work := .jobs })).openStream (t.stream (.job id) c.uid none 9 0 0 0 ps1))).settleJobs

/-- HOST_COPY (R191, R192). -/
def bodyHostCopy : Body := fun c s => do
  plenIs c 8
  noTicket c
  need (decide (c.u 40 1 ≤ 1)) (errFormat 40)
  reserved c 41 7
  need (c.u 48 8 % 64 == 0) (errFormat 48)
  need (c.u 56 8 % 64 == 0 && decide (c.u 56 8 < 2 ^ 52)) (errFormat 56)
  let n := c.u 64 8
  need (n % 64 == 0 && decide (64 ≤ n ∧ n ≤ 2 ^ 40) && decide (c.u 56 8 + n ≤ 2 ^ 52 ∧ c.u 48 8 + n ≤ 2 ^ 64)) (errFormat 64)
  .ok (s.startCopy c (if c.u 40 1 = 0 then copyDesc 2 1 (c.u 48 8) (c.u 56 8) n else copyDesc 1 2 (c.u 56 8) (c.u 48 8) n) none, none)

/-- FILL_CONST (R191, R192). -/
def bodyFillConst : Body := fun c s => do
  noTicket c
  need (c.u 40 8 % 8 == 0 && decide (c.u 40 8 < 2 ^ 52)) (errFormat 40)
  let n := c.u 48 8
  need (n % 8 == 0 && decide (8 ≤ n ∧ n ≤ 2 ^ 48) && decide (c.u 40 8 + n ≤ 2 ^ 52)) (errFormat 48)
  .ok (s.startCopy c (copyDesc 1 1 (c.u 40 8) (c.u 40 8) n) (some (BitVec.ofNat 64 (c.u 56 8))), none)

def execPlanLoad := opcodeStep 0x0303 false false bodyPlanLoad
def execPlanLaunch := opcodeStep 0x0304 false false bodyPlanLaunch
def execStream := opcodeStep 0x0401 false false bodyStream
def execFused := opcodeStep 0x0402 false false bodyFused
def execHostCopy := opcodeStep 0x0404 false false bodyHostCopy
def execFillConst := opcodeStep 0x0405 false false bodyFillConst

/-! ### Landing (R186, R200, R205) -/

/-- A transfer whose data has come is delivered, unless a provisional buffer or a back-invalidate snoop holds it. -/
def State.land (s : State) (x : Transfer) (t : Stream) (allBad : Bool) : State :=
  match s.pieceUnmapped x.piece with
  | some a => s.failUnmapped t.id t.engine a
  | none =>
  if s.provHeld (some t.id) [x.piece.span false, x.piece.span true] then s else
  match s.pieceSnoop x.piece with
  | some s1 => s1
  | none => if x.piece.entry.isSome then s.landPart x t allBad else s.deliver x t allBad

/-- The host address of a transfer. -/
def Piece.hostAddr (p : Piece) : Nat := match p.src, p.dst with
  | .host _ _ a, _ => a
  | _, .host _ _ a => a
  | .dev _ a, _ => a
  | _, .dev _ a => a
  | _, _ => 0

/-- What a transfer's landing does to its stream: data, poisoned data, or a failed access. -/
def State.landAs (s : State) (x : Transfer) (t : Stream) (result : Landing) : State :=
  match result with
  | .error => s.failStream t.id (errPage t.engine x.piece.hostAddr)
  | .poison => s.land x t true
  | .ok => s.land x t false

/-- TRANSFER_LANDED (R186, R200). A landing of a transfer that has been dropped is no reply to a request of R81 and is not counted: the spec does not say so (DESIGN CHOICE, log entry 88). -/
def execTransferLanded (id : Nat) (result : Landing) (s : State) : Host.Outcome State Fault Refusal :=
  s.run (fun s => match s.moves.transfers.find? (·.id == id) with
    | some x => (match s.stream? x.stream with
      | some t =>
        if x.parked.isSome ∨ x.atsWait ∨ 0 < x.farPending then s else
        (s.landAs x t result).pumpJobs
      | none => s)
    | none => s)

/-- A transfer, or a row of a lookup, still parked at its park limit (R206, R209, R316): a pre-emptible command's stream or lookup stops issuing, drops what is parked once the rest has landed, and yields its cores; otherwise it stays parked. -/
def State.parkExpired (s : State) (id : Nat) : State :=
  match s.gather? id with
  | some g => (match g.owner, s.cmd? g.uid with
    | .job j, some c =>
      let parked := !g.todo.isEmpty || s.memory.far.any (fun f => f.retryAfter.isSome && (match f.use with
        | .row k _ => k == id
        | _ => false))
      if !parked ∨ !c.preemptible then s else
      ({ s with embed := { s.embed with gathers := s.embed.gathers.map (fun (k : Gather) => if k.owner = .job j then { k with stopping := true, halted := true } else k) } } : State).pumpJobs
    | _, _ => s)
  | none =>
  match s.moves.transfers.find? (·.id == id) with
    | some x => (match s.stream? x.stream with
      | some t => (match t.owner, s.cmd? t.uid with
        | .job j, some c =>
          if x.parked.isNone ∨ !c.preemptible then s else
          let ids := (s.moves.streams.filter (fun k => k.owner == .job j)).map (·.id)
          (ids.foldl (fun st i => (st.modStream i (fun k => { k with stopping := true, halted := true })).stopStream i) s).pumpJobs
        | _, _ => s)
      | none => s)
    | none => s

/-- PARK_LIMIT_EXPIRY, evaluated at the end of its tick (R80, R206). -/
def execParkLimitExpiry (id : Nat) (s : State) : Host.Outcome State Fault Refusal := s.run (fun s => s.expire (.park id))

/-- Relaunch the transfers that a test picks among those that wait: parked ones and ones whose translation was outstanding (R205). -/
def State.relaunch (s : State) (p : Transfer → Bool) : State :=
  (s.moves.transfers.filter (fun x => (x.parked.isSome || x.atsWait) && p x)).foldl (fun st x =>
    let uid := ((st.stream? x.stream).map (·.uid)).getD 0
    let st1 := (st.modTransfer x.id (fun y => { y with parked := none, atsWait := false })).modCmd uid (fun c => { c with resolvedAt := some st.now })
    let st2 := if x.writing then (match st1.stream? x.stream with
        | some t => (match st1.moves.transfers.find? (·.id == x.id) with
          | some y => st1.deliver { y with writing := false } t false
          | none => st1)
        | none => st1) else st1.launchTransfer x.stream x.id
    st2.showProgress x.stream) s

end Sys2Proof.Machine
end

