-- ==== Sys2Proof/Machine/Tiers.lean ====
section
/-! DEFINITION. Memory objects, their placement, and Runner (R217 to R237). -/

namespace Sys2Proof.Machine
open Sys2Proof

/-! ### Capacity and budgets (R218, R220, R223, R224) -/

/-- The clusters of an AFFINITY mask; 0 names all eight. -/
def affinitySet (a : Nat) : List Nat := if a = 0 then List.range 8 else setBits 8 a

/-- The expander groups that a FAR_MASK reaches, ascending; 0 names every group that is up. -/
def State.farSet (s : State) (mask : Nat) : List Nat :=
  insSort id ((s.memory.groups.filter (fun g => !g.ports.isEmpty && (mask == 0 || g.ports.any (fun p => mask.testBit p)))).map (·.group))

/-- The tiers of a policy in order of initial placement (R223). -/
def tierOrder (policy : Nat) (prot : Bool) : List Tier :=
  let l : List Tier := if policy = 0 then [.t2, .t3, .t1] else if policy = 1 then [.t1] else if policy = 2 then [.t2] else if policy = 3 then [.t1, .t2, .t3]
    else if policy = 4 then [.t2, .t1, .t3] else [.t3]
  if prot ∧ policy ≠ 5 then l.filter (fun t => t != .t3) else l

/-- The declaration field of a tier (R69). -/
def Tier.code : Tier → Nat
  | .t1 => 8 | .t2 => 9 | .t3 => 10

/-- The physical pages of a tier at a cluster, stack or group. -/
def State.physPages (s : State) (t : Tier) (place : Nat) : Nat := match t with
  | .t1 => 4096
  | .t2 => tierPages true place
  | .t3 => (((s.memory.groups.find? (·.group == place)).map (·.capGib)).getD 0) * 512

/-- The logical channels of a stack that a channel backs; a channel that leaves without a spare takes its share of the stack's pages (R42). -/
def State.channelsLeft (s : State) (k : Nat) : Nat :=
  ((List.range 32).filter (fun l => (List.range 34).any (fun ch => let u := s.unit (0x07000000 + k * 256 + ch)
    u.backs == 0x07000000 + k * 256 + l && (u.state == .active || u.state == .retiring)))).length

/-- The bond groups of a cluster that have left without a spare group (R42). -/
def State.groupsLost (s : State) (k : Nat) : Nat :=
  (s.riser.units.filter (fun u => bits u.id 31 24 == 6 && bits u.id 10 8 == k && u.state == .retired && !s.riser.bondGroups.contains u.id)).length

/-- The pages that objects may take of them: T1 without the Hualosin reserve (R218), T1 and T2 without the share of bond groups and channels that left without a spare (R42; log entry 86). -/
def State.tierCap (s : State) (t : Tier) (place : Nat) : Nat := match t with
  | .t1 => tierPages false place - cdiv (4096 * s.groupsLost place) 256
  | .t2 => s.physPages .t2 place * s.channelsLeft place / 32
  | .t3 => s.physPages .t3 place

/-- The page numbers in use: those of objects, and the destinations of moves under way (R231). -/
def State.usedPages (s : State) (t : Tier) (place : Nat) : List Nat :=
  ((s.memory.objs.flatMap (fun o => o.pages) ++ s.memory.pageMoves.map (fun m => m.dst)).filter (fun p => p.tier == t && p.place == place)).map (·.ppn)

/-- The page numbers that a failed row without a spare makes unusable (R42). -/
def State.deadPages (s : State) (t : Tier) (place : Nat) : List Nat :=
  s.riser.badRows.filterMap (fun loc =>
    let c := bits loc.toNat 3 0
    if (t = .t1 ∧ c = place) ∨ (t = .t2 ∧ c = 8 + place) then some (bits loc.toNat 33 14 / 4) else none)

/-- Free pages of a tier at a place. -/
def State.roomAt (s : State) (t : Tier) (place : Nat) : Nat :=
  s.tierCap t place - (distinct (s.usedPages t place ++ s.deadPages t place)).length

def isPin (policy : Nat) : Bool := policy == 1 || policy == 2

/-- The live declaration of a ticket slot of a context. -/
def State.declOf (s : State) (x slot : Nat) : Option Decl :=
  ((s.tenants.slots.find? (fun t => t.slot == slot && (t.live.map (fun k => k.ctx == x)).getD false)).bind (·.live)).map (·.decl)

/-- The pages a ticket's budget for a tier has left; a move under way to the tier takes its page already (R224, R231). -/
def State.budgetLeft (s : State) (x slot : Nat) (t : Tier) : Nat :=
  match s.declOf x slot with
  | none => 0
  | some d =>
    (match t with
     | .t1 => d.t1
     | .t2 => d.t2
     | .t3 => d.t3) / pageBytes -
    sumOf (fun o => (o.pages.filter (fun p => p.tier == t)).length + (s.memory.pageMoves.filter (fun m => m.ctx == x && m.handle == o.handle && m.dst.tier == t && m.src.tier != t)).length)
      (s.memory.objs.filter (fun o => o.ctx == x && o.slot == slot))

/-- The pages a ticket's pinned budget has left. -/
def State.pinLeft (s : State) (x slot : Nat) : Nat :=
  match s.declOf x slot with
  | none => 0
  | some d => d.pinned / pageBytes - sumOf (fun o => o.pages.length) (s.memory.objs.filter (fun o => o.ctx == x && o.slot == slot && isPin o.policy))

/-- The cluster or group of page i in a tier (R220). -/
def Obj.placeOf (o : Obj) (t : Tier) (i : Nat) : Option Nat := match t with
  | .t3 => o.groups[i % max 1 o.groups.length]?
  | _ => (affinitySet o.affinity)[i % max 1 (affinitySet o.affinity).length]?

/-- A free physical page number (R219); the pages of ladle-stack objects go to their class while it has one free (R254). -/
def State.freePage (s : State) (t : Tier) (place : Nat) (cls : Option Nat) : Option Nat × State :=
  let n := s.physPages t place
  let used := s.usedPages t place ++ s.deadPages t place
  let k := Config.ppnPick s.free
  let at_ (i : Nat) : Nat := (k + i) % max 1 n
  let any := (List.range n).find? (fun i => !used.contains (at_ i))
  let mine := match cls with
    | some r => (List.range n).find? (fun i => at_ i % 32 == r && !used.contains (at_ i))
    | none => none
  ((match mine with
    | some i => some (at_ i)
    | none => any.map at_), { s with free := s.free + 1 })

/-- Whether an object is placed by R254. -/
def Obj.ladle (o : Obj) : Bool := o.policy == 2 && o.affinity != 0 && (setBits 8 o.affinity).all (fun c => c % 2 == 0)

/-- The class of R254 for page i. -/
def Obj.pageClass (o : Obj) (i : Nat) : Option Nat := if o.ladle then some (i / (affinitySet o.affinity).length % 32) else none

/-- The lesser of a budget's remainder and the free capacity (R224); a page that stays in its own tier already counts in that budget. -/
def State.tierRoom (s : State) (o : Obj) (i : Nat) (own : Option Tier) (t : Tier) : Nat :=
  match o.placeOf t i with
  | some p => min (s.budgetLeft o.ctx o.slot t + (own == some t).toNat) (s.roomAt t p)
  | none => 0

/-- Place page i of an object in the first tier of a list with room; the refusal names the last tier tried, with what it has left in the state before the command (R224). -/
def State.placeIn (s base : State) (o : Obj) (i : Nat) (own : Option Tier) (cls : Option Nat) : List Tier → Except Reply (Page × State)
  | [] => .error (errNofit 8 0)
  | t :: rest =>
    match (if 0 < s.tierRoom o i own t then o.placeOf t i else none) with
    | some p => (match s.freePage t p cls with
      | (some n, s1) => .ok ({ tier := t, place := p, ppn := n }, s1)
      | (none, _) => if rest.isEmpty then .error (errNofit t.code (base.tierRoom o i none t)) else s.placeIn base o i own cls rest)
    | none => if rest.isEmpty then .error (errNofit t.code (base.tierRoom o i none t)) else s.placeIn base o i own cls rest

/-- Place n pages of a new object in order; PIN pages also take pinned budget. -/
def State.placePages (s base : State) (x h : Nat) : Nat → Nat → Except Reply State
  | 0, _ => .ok s
  | n + 1, i =>
    match s.objOf x h with
    | none => .ok s
    | some o =>
      match s.placeIn base o i none (o.pageClass i) (tierOrder o.policy o.prot) with
      | .error r => .error r
      | .ok (p, s1) =>
        if isPin o.policy ∧ s.pinLeft x o.slot = 0 then .error (errNofit 11 (base.pinLeft x o.slot))
        else (s1.modObj x h (fun o => { o with pages := o.pages ++ [p] })).placePages base x h n (i + 1)

/-! ### Object commands -/

/-- Whether two ranges of bytes share one. -/
def rangesMeet (a n b m : Nat) : Bool := decide (a < b + m ∧ b < a + n)

/-- The base that the TK9 chooses: any free range above page 0 (R217, R223; log entry 18). -/
def State.chooseBase (s : State) (x size : Nat) : Option Nat :=
  let os := s.memory.objs.filter (fun o => o.ctx == x)
  (([Config.freeNat s.free % 2 ^ 31 * pageBytes, pageBytes] ++ os.map (fun o => o.base + o.size)).find? (fun b =>
    decide (pageBytes ≤ b ∧ b + size ≤ 2 ^ 52) && os.all (fun o => !rangesMeet b size o.base o.size)))

/-- Whether a given base is one that R225 allows. -/
def State.overlayOk (s : State) (x base size prio : Nat) : Bool :=
  match s.memory.objs.filter (fun o => o.ctx == x && rangesMeet base size o.base o.size) with
  | [] => true
  | [o] => decide (o.base ≤ base ∧ base + size ≤ o.base + o.size ∧ o.prio < prio)
  | _ => false

/-- OBJ_CREATE (R223 to R225, R254). -/
def bodyObjCreate : Body := fun c s => do
  let size := c.u 40 8
  let addr := c.u 48 8
  let pol := c.u 56 1
  let fields : Except Stop Unit := do
    need (size % pageBytes == 0 && decide (pageBytes ≤ size ∧ size ≤ 2 ^ 46)) (errFormat 40)
    need (addr % pageBytes == 0 && decide (addr + size ≤ 2 ^ 52) && (addr == 0 || s.overlayOk c.ctx addr size (c.u 57 1))) (errFormat 48)
    need (bits pol 7 4 == 0 && decide (pol % 8 ≤ 5)) (errFormat 56)
    need (decide (c.u 57 1 < 8)) (errFormat 57)
    need (decide (c.u 60 1 < 2)) (errFormat 60)
    reserved c 61 3
  let (slot, _) ← s.judgeTicket c .any fields
  fields
  match (if addr = 0 then s.chooseBase c.ctx size else some addr) with
  | none => fail (errFormat 48)
  | some base =>
    match ({ s with free := s.free + 1 } : State).pick (2 ^ 32) ((s.memory.objs.filter (fun o => o.ctx == c.ctx)).map (·.handle)) with
    | (some h, s1) =>
      let o : Obj := { ctx := c.ctx, handle := h, base := base, size := size, policy := pol % 8, prio := c.u 57 1, affinity := c.u 58 1, farMask := c.u 59 1,
                       prot := bit pol 3, slot := slot, groups := s.farSet (c.u 59 1) }
      let s2 : State := ({ s1 with memory := { s1.memory with objs := s1.memory.objs ++ [o] } } : State).xlatDrop c.ctx base size
      (match s2.placePages s c.ctx h (size / pageBytes) 0 with
       | .error r => fail r
       | .ok s3 => .ok (s3, some (okProgress base h)))
    | (none, _) => fail (errFormat 48)

/-- The handle in bytes 40 to 43 (R226, R570). -/
def objArg (c : Running) (s : State) : Except Stop Obj :=
  match s.objOf c.ctx (c.u 40 4) with
  | some o => .ok o
  | none => fail (errFormat 40)

/-- Whether an object is the committed window object (R459). -/
def State.windowObj (s : State) (x h : Nat) : Bool :=
  let cfg := s.reg .hstWinCfg 0 0
  (s.host.links.1.committed || s.host.links.2.committed) && bits cfg 15 8 == x && bits cfg 47 16 == h

/-- An object and the overlays that go with it (R226). -/
def State.objTree (s : State) (o : Obj) : List Nat :=
  o.handle :: (s.memory.objs.filter (fun p => p.ctx == o.ctx && decide (o.prio < p.prio) && decide (o.base ≤ p.base ∧ p.base + p.size ≤ o.base + o.size))).map (·.handle)

/-- Free objects of a context: their moves end, and their translations leave the caches. -/
def State.freeObjs (s : State) (x : Nat) (hs : List Nat) : State :=
  let gone := s.memory.objs.filter (fun o => o.ctx == x && hs.contains o.handle)
  let s := (gone.foldl (fun (st : State) o => st.xlatDrop x o.base o.size) s).dropMoves (fun m => m.ctx == x && hs.contains m.handle)
  { s with memory := { s.memory with objs := s.memory.objs.filter (fun o => !(o.ctx == x && hs.contains o.handle)) } }

/-- A command that behaves as though FENCE_BEFORE were set waits for the commands of its queue that started before it. -/
def State.fenced (s : State) (c : Running) : Bool :=
  ((s.queue? c.queue).map (fun q => q.running.any (fun k => decide (k.order < c.order)))).getD false

/-- OBJ_FREE (R226, R459). -/
def bodyObjFree : Body := fun c s => do
  noTicket c
  if s.fenced c then .error .held else
  let o ← objArg c s
  reserved c 44 20
  let hs := s.objTree o
  need (!hs.any (fun h => s.windowObj c.ctx h)) (errConflict 3 o.handle)
  .ok (s.freeObjs c.ctx hs, some ok)

/-! ### Moving pages (R229 to R233) -/

/-- Whether page i of an object holds a poisoned granule. -/
def Obj.pageBad (o : Obj) (i : Nat) : Bool := o.mem.bad (i * pageBytes) pageBytes

/-- Put a page of an object. -/
def State.setPage (s : State) (x h i : Nat) (p : Page) : State := s.modObj x h (fun o => { o with pages := setAt o.pages i p })

/-- Whether a move between two pages can copy: a far end needs a port of its group up. -/
def State.reachable (s : State) (p : Page) : Bool := p.tier != .t3 || (s.farPort p.place).isSome

/-- Steps 6 to 8 of a move: the translation switches, the caches give up the old one, the move and its window are counted (R222, R231, R232). -/
def State.switchPage (s : State) (x h i : Nat) (dst : Page) : State :=
  let w := Config.freeNat s.free % 3001
  let s1 : State := { s with free := s.free + 1 }
  let put (o : Obj) : List Page := setAt o.pages i { dst with count := ((o.pages[i]?).map (fun p => p.count)).getD 0, movedAt := some s.memory.intervals }
  let s2 := s1.modObj x h (fun o => { o with migrations := o.migrations + 1, pages := put o })
  let at_ := ((s.objOf x h).map (·.base)).getD 0 + i * pageBytes
  ((s2.xlatDrop x at_ pageBytes).count .memRunnerStat 0 0 0 32).peak .memRunnerStat 0 0 48 16 w

/-- Whether a page is being moved. -/
def State.moving (s : State) (x h i : Nat) : Bool := s.memory.pageMoves.any (fun m => m.ctx == x && m.handle == h && m.index == i)

/-- Poison is never moved: the move is abandoned and counted once, and the page is not moved until its poison is overwritten (R233). -/
def State.refuseMove (s : State) (x h i : Nat) : State := match (s.objOf x h).bind (fun o => o.pages[i]?) with
  | some p => if p.frozen then s else (s.setPage x h i { p with frozen := true }).count .memRunnerStat 0 0 32 16
  | none => s

/-- Move page i of an object to a destination by the sequence of R231, and whether it has moved. A move between T1 and T2 is one event of the model; one from or to far memory
copies by far requests first, and does not start while no port of the group is up. -/
def State.movePage (s : State) (uid x h i : Nat) (dst : Page) : State × Bool :=
  match s.objOf x h with
  | none => (s, false)
  | some o => match o.pages[i]? with
    | none => (s, false)
    | some p =>
      if o.pageBad i then (s.refuseMove x h i, false)
      else if !s.reachable p ∨ !s.reachable dst then (s, false)
      else if p.tier = .t3 ∨ dst.tier = .t3 then
        let m : PageMove := { id := s.moves.nextId, ctx := x, handle := h, index := i, src := p, dst := dst, uid := uid }
        ({ s with moves := { s.moves with nextId := m.id + 1 }, memory := { s.memory with pageMoves := s.memory.pageMoves ++ [m] } }, false)
      else (s.switchPage x h i dst, true)

/-- The destination of page i under an object's policy: where it rests if that is allowed, its own tier at its new place, else the tiers in order (R227). -/
def State.newPlace (s : State) (o : Obj) (i : Nat) (p : Page) : Except Reply (Option (Page × State)) :=
  let ts := tierOrder o.policy o.prot
  if ts.contains p.tier ∧ o.placeOf p.tier i = some p.place then .ok none
  else match s.placeIn s o i (some p.tier) none ((if ts.contains p.tier then [p.tier] else []) ++ ts.filter (fun t => t != p.tier)) with
    | .ok q => .ok (some q)
    | .error r => .error r

/-- Check that every page of an object finds a place under its new settings, and that pinned budget holds it (R227). -/
def State.fits (s : State) (x h : Nat) (pinned : Bool) : Nat → Nat → Except Reply Unit
  | 0, _ => .ok ()
  | n + 1, i => match s.objOf x h with
    | none => .ok ()
    | some o => match o.pages[i]? with
      | none => .ok ()
      | some p => match s.newPlace o i p with
        | .error r => .error r
        | .ok none => s.fits x h pinned n (i + 1)
        | .ok (some (q, s1)) => (s1.setPage x h i q).fits x h pinned n (i + 1)

/-- Move every page of an object that its settings do not allow; the pages moved, and whether any remains. MEM_RUNNER_CFG.FREEZE stops new moves (R227, R230). -/
def State.migrate (s : State) (uid x h : Nat) : Nat → Nat → State × Nat × Bool
  | 0, _ => (s, 0, false)
  | n + 1, i => match s.objOf x h with
    | none => (s, 0, false)
    | some o => match o.pages[i]? with
      | none => (s, 0, false)
      | some p =>
        let stays (st : State) : State × Nat × Bool := let r := st.migrate uid x h n (i + 1)
          (r.1, r.2.1, true)
        if s.moving x h i then stays s else
        match s.newPlace o i p with
        | .ok none => s.migrate uid x h n (i + 1)
        | .error _ => stays s
        | .ok (some (q, s1)) =>
          if s.field .memRunnerCfg 0 0 52 1 = 1 then stays s else
          let m := s1.movePage uid x h i q
          let r := m.1.migrate uid x h n (i + 1)
          (r.1, r.2.1 + m.2.toNat, r.2.2 || !m.2)

/-- OBJ_SET_POLICY (R227). -/
def bodyObjSetPolicy : Body := fun c s => do
  noTicket c
  let o ← objArg c s
  let pol := c.u 44 1
  need (bits pol 7 4 == 0 && decide (pol % 8 ≤ 5) && bit pol 3 == o.prot) (errFormat 44)
  reserved c 47 17
  let s1 := s.modObj c.ctx o.handle (fun o => { o with policy := pol % 8, affinity := c.u 45 1, farMask := c.u 46 1, groups := s.farSet (c.u 46 1) })
  match s1.fits c.ctx o.handle (isPin (pol % 8)) o.pages.length 0 with
  | .error r => fail r
  | .ok _ =>
    let spare := match s.declOf c.ctx o.slot with
      | some d => decide (d.pinned / pageBytes < sumOf (fun q => q.pages.length) (s1.memory.objs.filter (fun q => q.ctx == c.ctx && q.slot == o.slot && isPin q.policy)))
      | none => true
    need (!(isPin (pol % 8) && !isPin o.policy && spare)) (errNofit 11 (s.pinLeft c.ctx o.slot))
    let r := s1.migrate c.uid c.ctx o.handle o.pages.length 0
    if r.2.2 then .ok (r.1.modCmd c.uid (fun k => { k with work := .migrate o.handle, progress := r.2.1 }), none)
    else .ok (r.1, some (okProgress r.2.1))

/-! A move from or to far memory (R231 to R233) -/

/-- Whether a far request, or an add whose fate is unresolved, touches a page of far memory. -/
def State.pageBusy (s : State) (p : Page) : Bool :=
  let meets (f : Far) : Bool := decide (1 ≤ f.op ∧ f.op ≤ 5) && rangesMeet f.addr (64 * f.granules) (p.ppn * pageBytes) pageBytes
  p.tier == .t3 && (s.memory.far.any (fun f => meets f && (s.groupOf f.port).getD p.place == p.place) || s.memory.unresolved.any (fun u => u.group == p.place && meets u.far))

/-- The requests of a 64 KiB chunk of a page: first granule and granules. -/
def chunkPieces (k : Nat) : List (Nat × Nat) := (List.range 16).map (fun j => (1024 * k + 64 * j, 64))

/-- Send the reads (op 1) or writes (op 2) of a move for pieces of its page; where no port of the group is up the move is abandoned. -/
def State.moveSend (s : State) (m : PageMove) (o : Obj) (op : Nat) (gs : List (Nat × Nat)) (f : PageMove → PageMove) : State :=
  let p := if op = 1 then m.src else m.dst
  let image (g n : Nat) : List Byte := o.mem.read (m.index * pageBytes + 64 * g) (64 * n)
  let s1 : State := { s with memory := { s.memory with pageMoves := upd s.memory.pageMoves (fun k => k.id == m.id) (fun k => { f k with pending := k.pending + gs.length }) } }
  match gs.foldl (fun (acc : Option State) g => acc.bind (fun st =>
      st.sendFar op (.move m.id (64 * g.1)) 0 p.place (p.farAddr (64 * g.1)) g.2 (if op = 1 then [] else image g.1 g.2) false)) (some s1) with
  | some s2 => s2
  | none => s.abandonMove m.id

/-- The granules of a page, among those given, whose bytes are not all 0. -/
def Obj.granulesAt (o : Obj) (i : Nat) (gs : List Nat) : Map Nat (List Byte) :=
  gs.filterMap (fun g => let bs := o.mem.read (i * pageBytes + 64 * g) 64
    if bs.all (· == 0) then none else some (g, bs))

/-- The granules of a page that no longer hold what a move has sent to its destination. -/
def PageMove.changed (m : PageMove) (o : Obj) : List Nat :=
  let listed := (o.mem.cells.filter (fun c => c.1 / pageBytes == m.index)).map (fun c => c.1 % pageBytes / 64)
  (distinct (listed ++ m.sent.map (·.1))).filter (fun g => o.mem.read (m.index * pageBytes + 64 * g) 64 != mgetD m.sent g (List.replicate 64 0))

/-- The next action of a move whose requests are answered: a chunk is read from far memory, then one is written to it; once nothing else is outstanding on the source,
granules written since are copied again, and the translation switches. A move to a place that its object's settings no longer allow ends (R227). -/
def State.stepMove (s : State) (id : Nat) : State :=
  match s.memory.pageMoves.find? (fun m => m.id == id) with
  | none => s
  | some m => match s.objOf m.ctx m.handle with
    | none => s.dropMoves (fun m => m.id == id)
    | some o =>
      let sends (gs : List Nat) : Map Nat (List Byte) := m.sent.filter (fun e => !gs.contains e.1) ++ o.granulesAt m.index gs
      if m.pending ≠ 0 then s
      else if o.pageBad m.index then (s.abandonMove id).setPage m.ctx m.handle m.index { (o.pages[m.index]?).getD m.src with frozen := true }
      else if m.src.tier = .t3 ∧ m.read < 32 then s.moveSend m o 1 (chunkPieces m.read) (fun k => { k with read := m.read + 1 })
      else if m.dst.tier = .t3 ∧ m.put < 32 then
        let gs := (List.range 1024).map (1024 * m.put + ·)
        s.moveSend m o 2 (chunkPieces m.put) (fun k => { k with put := m.put + 1, sent := sends gs })
      else if s.pageBusy m.src then s
      else if !m.dirty.isEmpty then s.moveSend m o 1 (m.dirty.map (fun g => (g, 1))) (fun k => { k with dirty := [] })
      else
        let gs := m.changed o
        if m.dst.tier = .t3 ∧ !gs.isEmpty then s.moveSend m o 2 (gs.map (fun g => (g, 1))) (fun k => { k with sent := sends gs })
        else
          let s1 := s.dropMoves (fun m => m.id == id)
          if (tierOrder o.policy o.prot).contains m.dst.tier ∧ o.placeOf m.dst.tier m.index = some m.dst.place then
            (s1.switchPage m.ctx m.handle m.index m.dst).modCmd m.uid (fun k => { k with progress := k.progress + 1 })
          else s1

/-- The moves under way take their next actions, in the order in which they began. -/
def State.stepMoves (s : State) : State := (s.memory.pageMoves.map (fun m => m.id)).foldl State.stepMove s

/-- Take up the moves that an OBJ_SET_POLICY still owes: its poisoned pages move once their poison has been overwritten (R227, R233). -/
def State.settleMigrations (s : State) : State :=
  (s.queues.flatMap (·.running)).foldl (fun (st : State) (c : Running) => match c.work with
    | .migrate h => match st.objOf c.ctx h with
      | none => st.reply c.uid (okProgress c.progress)
      | some o =>
        let r := st.migrate c.uid c.ctx h o.pages.length 0
        if r.2.2 then r.1.modCmd c.uid (fun k => { k with progress := k.progress + r.2.1 }) else r.1.reply c.uid (okProgress (c.progress + r.2.1))
    | _ => st) s

/-- The end of a tick: moves and the commands that wait for them go on, and what the translation caches found is reported (R221, R231). -/
def State.movesAtTick (s : State) : State :=
  let s1 := if s.memory.pageMoves.isEmpty then s else s.stepMoves.settleMigrations
  let s2 : State := { s1 with memory := { s1.memory with xlat := { s1.memory.xlat with found := [] } } }
  s1.memory.xlat.found.foldl (fun st k => st.event .xlatMulti 0xFF 0 (toLe 1 k)) s2

/-- The 64-byte record of OBJ_QUERY. -/
def Obj.record (o : Obj) : List Byte :=
  let n (t : Tier) : Nat := (o.pages.filter (fun p => p.tier == t)).length
  toLe 8 o.base ++ toLe 8 o.size ++ toLe 1 (o.policy + if o.prot then 8 else 0) ++ toLe 1 o.prio ++ toLe 1 o.affinity ++ toLe 1 o.farMask ++
  toLe 4 (n .t1) ++ toLe 4 (n .t2) ++ toLe 4 (n .t3) ++ toLe 8 o.migrations ++ toLe 4 ((List.range o.pages.length).filter o.pageBad).length ++ toLe 20 0

/-- OBJ_QUERY (R227). -/
def bodyObjQuery : Body := fun c s => do
  noTicket c
  let o ← objArg c s
  reserved c 44 4
  let (host, addr) ← recordField c 48
  need (addr % 64 == 0) (errFormat 48)
  reserved c 56 8
  if c.u 48 8 = 0 then .ok (s, some ok) else
  let s1 ← s.output c host addr o.record
  .ok (s1, some ok)

def execObjCreate := opcodeStep 0x0201 false false bodyObjCreate
def execObjFree := opcodeStep 0x0202 false false bodyObjFree
def execObjSetPolicy := opcodeStep 0x0203 false false bodyObjSetPolicy
def execObjQuery := opcodeStep 0x0204 false false bodyObjQuery

/-! ### Runner -/

/-- A page that Runner may consider: context, handle, index, page, policy, address. -/
structure Candidate where
  ctx : Nat
  handle : Nat
  index : Nat
  page : Page
  policy : Nat
  addr : Nat
  deriving DecidableEq, Repr

/-- The pages of movable objects of contexts outside Chill mode, in ascending context and address (R229, R230). -/
def State.movable (s : State) : List Candidate :=
  let minRes := s.field .memRunnerCfg 0 0 32 8
  let os := s.memory.objs.filter (fun o => (o.policy == 0 || o.policy == 3 || o.policy == 4) && !((s.ctx? o.ctx).map (·.chill)).getD false)
  (insSort (fun c => c.ctx * 2 ^ 52 + c.addr) (os.flatMap (fun o => o.pages.zipIdx.map (fun p =>
    ({ ctx := o.ctx, handle := o.handle, index := p.2, page := p.1, policy := o.policy, addr := o.base + p.2 * pageBytes } : Candidate))))).filter (fun c =>
      !s.moving c.ctx c.handle c.index && (c.page.movedAt.map (fun m => decide (minRes ≤ s.memory.intervals - m))).getD true)

/-- Moves that an interval may start (R229). -/
def State.moveLimit (s : State) : Nat := s.field .memRunnerCfg 0 0 40 12 * s.field .memRunnerCfg 0 0 0 16 * 1000000 / pageBytes

/-- One attempted move to a tier: the state and the moves left. -/
def State.tryMove (s : State) (left : Nat) (c : Candidate) (t : Tier) : State × Nat :=
  if left = 0 then (s, 0) else
  match s.objOf c.ctx c.handle with
  | none => (s, left)
  | some o =>
    if !(tierOrder o.policy o.prot).contains t then (s, left) else
    match s.placeIn s o c.index (some c.page.tier) none [t] with
    | .error _ => (s, left)
    | .ok (q, s1) =>
      let m := s1.movePage 0 c.ctx c.handle c.index q
      (m.1, left - 1)

/-- Whether the row of a page has failed without a spare (R42). -/
def State.pageDead (s : State) (p : Page) : Bool := p.tier != .t3 && (s.deadPages p.tier p.place).contains p.ppn

/-- The tier above, and the tier below. -/
def Tier.up : Tier → Tier
  | .t3 => .t2 | _ => .t1
def Tier.down : Tier → Tier
  | .t1 => .t2 | _ => .t3

/-- The rank of a tier, and the rank that a policy prefers. -/
def Tier.rank : Tier → Nat
  | .t1 => 1 | .t2 => 2 | .t3 => 3
def preferred (policy : Nat) : Nat := if policy = 4 then 2 else 1

/-- Pages leave rows that have failed without a spare (R42). -/
def State.fleeRows (s : State) (left : Nat) : State × Nat :=
  (s.movable.filter (fun c => s.pageDead c.page)).foldl (fun acc c => acc.1.tryMove acc.2 c c.page.tier) (s, left)

/-- Promotions: hot pages below their preferred tier, hottest first (R229). -/
def State.promote (s : State) (left : Nat) : State × Nat :=
  let hot := s.movable.filter (fun c => decide (s.field .memRunnerCfg 0 0 16 16 ≤ c.page.count ∧ preferred c.policy < c.page.tier.rank))
  (insSort (fun c => 65536 - c.page.count) hot).foldl (fun acc c => acc.1.tryMove acc.2 c c.page.tier.up) (s, left)

/-- PREFER_T2 pages that rest in T1 return to T2 while it has room, coldest first (R223; DESIGN CHOICE, log entry 90). -/
def State.comeBack (s : State) (left : Nat) : State × Nat :=
  (insSort (fun c => c.page.count) (s.movable.filter (fun c => c.policy == 4 && c.page.tier == .t1))).foldl (fun acc c => acc.1.tryMove acc.2 c .t2) (s, left)

/-- The pages of a tier of a cluster that are moving away. -/
def State.leaving (s : State) (t : Tier) (place : Nat) : Nat := (s.memory.pageMoves.filter (fun m => m.src.tier == t && m.src.place == place)).length

/-- Demotions of one tier of one cluster until its free pages reach LOW_WATER: FLOAT before PREFER, coldest first (R229). -/
def State.demote (s : State) (left : Nat) (t : Tier) (place : Nat) : State × Nat :=
  let cold := s.movable.filter (fun c => c.page.tier == t && c.page.place == place)
  let order := insSort (fun c => (if c.policy = 0 then 0 else 65536) + c.page.count) cold
  order.foldl (fun acc c => if acc.1.roomAt t place + acc.1.leaving t place < s.field .memRunnerCfg 0 0 53 11 then acc.1.tryMove acc.2 c t.down else acc) (s, left)

/-- RUNNER_INTERVAL: Runner decides and makes its moves, then halves every count (R229 to R233). -/
def execRunnerInterval (s : State) : Host.Outcome State Fault Refusal :=
  s.run (fun s =>
    let s0 : State := { s with memory := { s.memory with intervals := s.memory.intervals + 1 } }
    let s1 := s0.settleMigrations
    let s2 := if s1.field .memRunnerCfg 0 0 52 1 = 1 then s1 else
      let a := s1.fleeRows s1.moveLimit
      let p := a.1.promote a.2
      let b := p.1.comeBack p.2
      ((List.range 8).foldl (fun acc k => let r := acc.1.demote acc.2 .t1 k
        r.1.demote r.2 .t2 k) b).1
    { s2 with memory := { s2.memory with objs := s2.memory.objs.map (fun o => { o with pages := o.pages.map (fun p => { p with count := p.count / 2 }) }) } })

end Sys2Proof.Machine
end

