-- ==== Sys2Proof/Machine/Crucible.lean ====
section
/-! DEFINITION. The Crucible: parameter groups, the update, deferred slots, the write-ahead log, shard digests and export, the Campion stream (R331 to R370). -/

namespace Sys2Proof.Machine
open Sys2Proof

/-! ### Ranges of granules -/

/-- Add a granule to ascending disjoint ranges. -/
def addGran (g : Nat) : List (Nat × Nat) → List (Nat × Nat)
  | [] => [(g, g + 1)]
  | (a, b) :: l =>
    if g + 1 < a then (g, g + 1) :: (a, b) :: l
    else if g + 1 = a then (g, b) :: l
    else if g < b then (a, b) :: l
    else if g = b then (match l with
      | (c, d) :: m => if c = b + 1 then (a, d) :: m else (a, b + 1) :: l
      | [] => [(a, b + 1)])
    else (a, b) :: addGran g l

/-- Take a granule out of ranges. -/
def delGran (g : Nat) (l : List (Nat × Nat)) : List (Nat × Nat) :=
  l.flatMap (fun r => if r.1 ≤ g ∧ g < r.2 then (if r.1 < g then [(r.1, g)] else []) ++ (if g + 1 < r.2 then [(g + 1, r.2)] else []) else [r])

def hasGran (g : Nat) (l : List (Nat × Nat)) : Bool := l.any (fun r => decide (r.1 ≤ g ∧ g < r.2))
def meetsRange (lo hi : Nat) (l : List (Nat × Nat)) : Bool := l.any (fun r => decide (r.1 < hi ∧ lo < r.2))
def rangeSize (l : List (Nat × Nat)) : Nat := l.foldl (fun n r => n + (r.2 - r.1)) 0

/-! ### Groups (R331 to R335) -/

/-- The moment's element size; FAC keeps none. -/
def Group.esm (g : Group) : Nat := if g.kind = 2 then 0 else cruEs g.mfmt
def Group.granules (g : Group) : Nat := cdiv g.elems g.gpe
def Group.factored (g : Group) : Bool := g.kind == 1 || g.kind == 2
/-- Bytes of one accumulator copy, and of a block's two copies (R335). -/
def Group.copyBytes (g : Group) : Nat := 4 * (g.rows + g.cols + 1)
def Group.blockBytes (g : Group) : Nat := 64 * cdiv (2 * g.copyBytes) 64
def Group.blockElems (g : Group) : Nat := g.rows * g.cols
def Group.blocks (g : Group) : Nat := if g.factored then g.elems / g.blockElems else 0
/-- Where copy c of block b lies. -/
def Group.copyAt (g : Group) (b c : Nat) : Nat := g.fAddr + b * g.blockBytes + c * g.copyBytes
/-- Where slot t of element e lies (R346). -/
def Group.slotAt (g : Group) (t e : Nat) : Nat := g.dAddr + (t * g.elems + e) * 4

def State.cruGroup? (s : State) (x id : Nat) : Option Group := s.cru.groups.find? (fun g => g.ctx == x && g.id == id)
def State.modGroup (s : State) (x id : Nat) (f : Group → Group) : State :=
  { s with cru := { s.cru with groups := upd s.cru.groups (fun g => g.ctx == x && g.id == id) f } }

/-- Whether a range lies in one live object of a context. -/
def State.inObject (s : State) (x addr n : Nat) : Option Obj :=
  match s.objAt x addr with
  | some o => if addr + n ≤ o.base + o.size then some o else none
  | none => none

/-- The offsets, within the extended parameters, of a group descriptor's bad fields (R333). -/
def State.groupErrors (s : State) (x : Nat) (u : Nat → Nat → Nat) : List Nat :=
  let kind := u 24 1
  let pf := u 25 1 % 16
  let mf := u 25 1 / 16
  let when_ := u 26 1 % 8
  let elems := u 16 8
  let fac := kind == 1 || kind == 2
  let known (f : Nat) : Bool := f == 3 || f == 5
  let rows := u 56 4
  let cols := u 60 4
  let cb := cols * cruEs pf
  let colsOk := 64 ≤ cb && cb ≤ 2097152 && popcount 64 cb == 1
  let rowsOk := 1 ≤ rows && rows ≤ 16384
  let bad (b : Bool) (o : Nat) : List Nat := if b then [64 + o] else []
  let size := elems % 2 ^ 40
  let range (o addr n align : Nat) (pols : List Nat) : List Nat :=
    bad (!(addr % align == 0 && ((s.inObject x addr n).map (fun b => pols.contains b.policy)).getD false)) o
  let policy := if when_ = 0 then [2] else [5]
  bad (elems == 0 || decide (2 ^ 40 ≤ elems)) 16 ++ bad (decide (3 < kind)) 24 ++ bad (!(known pf && (kind == 2 || known mf))) 25 ++
  bad (decide (4 < when_) || u 26 1 / 32 != 0) 26 ++ bad (u 27 1 / 8 != 0) 27 ++
  (if known pf then range 32 (u 32 8) (size * cruEs pf) 2097152 policy else []) ++
  (if kind ≠ 2 ∧ known mf then range 40 (u 40 8) (size * cruEs mf) 2097152 policy ++
     bad (match s.objAt x (u 32 8), s.objAt x (u 40 8) with
       | some p, some m => p.affinity != m.affinity || p.farMask != m.farMask
       | _, _ => false) 40 else []) ++
  (if fac then bad (!rowsOk) 56 ++ bad (!colsOk) 60 ++ bad (rowsOk && colsOk && size % (rows * cols) != 0) 16 ++
     (if rowsOk ∧ colsOk ∧ size % (rows * cols) = 0 then range 48 (u 48 8) (size / (rows * cols) * (64 * cdiv (8 * (rows + cols + 1)) 64)) 64 [1, 2] else []) else []) ++
  range 64 (u 64 8) 64 64 [1, 2] ++
  (if 1 ≤ when_ ∧ when_ ≤ 4 then range 72 (u 72 8) ((when_ + 1) * size * 4) 2097152 [2] else []) ++
  (match (List.range 44).find? (fun i => u (84 + i) 1 != 0) with
   | some i => [64 + 84 + i]
   | none => [])

/-- CRU_GROUP_CREATE (R331 to R333). -/
def bodyCruGroupCreate : Body := fun c s => do
  plenIs c 192
  noTicket c
  reserved c 40 24
  declFormat c 64 0
  let u (o n : Nat) : Nat := c.u (128 + o) n
  match leastOf (s.groupErrors c.ctx u) with
  | some o => fail (errFormat o)
  | none => .ok ()
  need (decide (s.cru.groups.length < 1024)) (errNofit 14 0)
  let g ← s.admission c 64
  match ({ s with free := s.free + g.decl.cores + g.decl.barriers + 1 } : State).pick 1024 (s.cru.groups.map (·.id)) |>.1 with
  | none => fail (errNofit 14 0)
  | some id =>
    let (s1, t) := s.issue c g (.group id)
    let grp : Group :=
      { ctx := c.ctx, id := id, part := c.part, slot := g.slot, tensor := u 0 4, shard := u 4 4, elemBase := u 8 8, elems := u 16 8, kind := u 24 1,
        pfmt := u 25 1 % 16, mfmt := u 25 1 / 16, deferN := u 26 1 % 8, vote := bit (u 26 1) 3, digestState := bit (u 26 1) 4, repAxes := u 27 1,
        digestEvery := u 28 4, pAddr := u 32 8, mAddr := u 40 8, fAddr := u 48 8, rows := u 56 4, cols := u 60 4, hAddr := u 64 8, dAddr := u 72 8, tag := u 80 4 }
    .ok ({ s1 with free := s1.free + 1, cru := { s1.cru with groups := s1.cru.groups ++ [grp] } }, some (okProgress t id))

/-- CRU_SET_SCALE (R354). -/
def bodyCruSetScale : Body := fun c s => do
  noTicket c
  let k := sgn 8 (c.u 40 1)
  let lo := sgn 8 (c.u 42 1)
  let hi := sgn 8 (c.u 43 1)
  need (decide (-24 ≤ k ∧ k ≤ 40)) (errFormat 40)
  need (decide (c.u 41 1 ≤ 15)) (errFormat 41)
  need (decide (-24 ≤ lo ∧ lo ≤ k)) (errFormat 42)
  need (decide (k ≤ hi ∧ hi ≤ 40)) (errFormat 43)
  reserved c 48 16
  .ok (s.modCtx c.ctx (fun x => { x with k := k, dec := (c.u 41 1 : Nat), kMin := lo, kMax := hi, incEvery := c.u 44 4, clean := 0 }), some ok)

/-- A command of the update family of a skipped STEP completes with OK_SKIPPED; it waits for a vote of its STEP that is under way (R63, R352, R353). -/
def unlessSkipped (body : Body) : Body := fun c s =>
  if s.stepSkipped c.ctx c.step then .ok (s, some okSkipped) else if s.stepWaits c.ctx c.step then .error .held else body c s

/-! ### The update (R337 to R340) -/

/-- The values of a command's hyperparameters (R334, R337). -/
structure Hyper where
  lr : BitVec 32
  b1 : BitVec 32
  b2 : BitVec 32
  eps1 : BitVec 32
  eps2 : BitVec 32
  dcy : BitVec 32
  c1 : BitVec 32
  c2 : BitVec 32
  deriving DecidableEq, Repr

def fone : BitVec 32 := 0x3F800000

/-- From the block's words LR, WD, B1, B2, EPS1, EPS2. -/
def hyperOf (l : List (BitVec 32)) : Hyper :=
  let at_ (i : Nat) : BitVec 32 := (l[i]?).getD 0
  { lr := at_ 0, b1 := at_ 2, b2 := at_ 3, eps1 := at_ 4, eps2 := at_ 5, dcy := fsub fone (fmul (at_ 0) (at_ 1)), c1 := fsub fone (at_ 2), c2 := fsub fone (at_ 3) }

/-- The Crucible's reciprocal square root: within 1 ulp of the formula of R167, a subnormal input taken at its value (R337; its free choice has a key of its own, log entry 10). -/
def cruRsqrt (x : BitVec 32) : BitVec 32 :=
  match num x with
  | .fin false m e =>
    if m ≠ 0 ∧ m < 2 ^ 23 then
      let l := sfAllowed 1 (sfExact 0x13 (Num.fin false m e).toFx)
      (l[(Config.sfPick 0x213 x % (l.length : Int)).toNat]?).getD 0
    else (specialB 0x13 0x213 1 false x).val
  | _ => (specialB 0x13 0x213 1 false x).val

/-- sign(t): ±0 gives +0; a NaN stays one. -/
def fsign (t : BitVec 32) : BitVec 32 := if fIsNan t then fnan else if (num t).isZero then 0 else if (num t).isNeg then 0xBF800000 else fone

/-- The second-moment factor w of an element from r, c and S of the current copy. -/
def cruW (h : Hyper) (r c sum : BitVec 32) : BitVec 32 :=
  let vh := if (Num.fin false 0 0).lt (num sum) then fdiv (fmul r c) sum else 0
  cruRsqrt (fadd vh h.eps2)

/-- The new parameter and moment of one element (R337). -/
def cruElem (kind : Nat) (h : Hyper) (w g p m : BitVec 32) : BitVec 32 × BitVec 32 :=
  let um : BitVec 32 × BitVec 32 :=
    if kind = 0 then (let m1 := ffma h.b1 m g; (m1, m1))
    else if kind = 1 then (let m1 := ffma h.b1 m (fmul h.c1 g); (fmul m1 w, m1))
    else if kind = 2 then (fmul g w, m)
    else (fsign (ffma h.b1 m (fmul h.c1 g)), ffma h.b2 m (fmul h.c2 g))
  (ffma (fneg h.lr) um.1 (fmul p h.dcy), um.2)

/-- Store a value: FP32 as it is, BF16 rounded stochastically by a generator word; whether a carry stored an infinity (R339). -/
def cruStore (fmt : Nat) (x : BitVec 32) (rho : Nat) : Nat × Bool :=
  if fmt = 5 then (if fIsNan x then (fnan.toNat, false) else (x.toNat, false))
  else if fIsNan x then (0x7FC0, false)
  else if !fIsFin x ∨ (num x).isZero then (x.toNat / 65536, false)
  else
    let y := (x.toNat + rho / 65536) % 2 ^ 32
    if bits y 30 23 = 255 then (if bit y 31 then 0xFF80 else 0x7F80, true) else (y / 65536, false)

/-- A stored element as FP32. -/
def cruLoad (fmt x : Nat) : BitVec 32 := BitVec.ofNat 32 (if fmt = 5 then x else x * 65536)

/-- The result of applying one gradient granule: parameter and moment bytes, statistics q of its elements, elements left, whether rounding stored an infinity. -/
structure CruOut where
  p : List Byte
  m : List Byte
  qs : List (BitVec 32)
  nonfinite : Nat
  inf : Bool
  deriving DecidableEq, Repr

/-- Apply unscaled gradients to the elements from e0 on (R337, R339, R340). -/
def cruGranule (g : Group) (h : Hyper) (key : Nat × Nat) (step e0 : Nat) (p m : List Byte) (grads acc : List (BitVec 32)) (row sum : BitVec 32) : CruOut :=
  grads.zipIdx.foldl (fun (o : CruOut) x =>
    let i := x.2
    let pOld := fld p (i * g.esp) g.esp
    let mOld := fld m (i * g.esm) g.esm
    if !fIsFin x.1 then { o with p := o.p ++ toLe g.esp pOld, m := o.m ++ toLe g.esm mOld, qs := o.qs ++ [0], nonfinite := o.nonfinite + 1 }
    else
      let w := if g.factored then cruW h row ((acc[i]?).getD 0) sum else 0
      let r := cruElem g.kind h w x.1 (cruLoad g.pfmt pOld) (cruLoad g.mfmt mOld)
      let sp := cruStore g.pfmt r.1 (randWord key step (2 * (e0 + i)))
      let sm := if g.esm = 0 then (0, false) else cruStore g.mfmt r.2 (randWord key step (2 * (e0 + i) + 1))
      { o with p := o.p ++ toLe g.esp sp.1, m := o.m ++ toLe g.esm sm.1, qs := o.qs ++ [fadd (fmul x.1 x.1) h.eps1], inf := o.inf || sp.2 || sm.2 })
    { p := [], m := [], qs := [], nonfinite := 0, inf := false }

/-! ### Block statistics (R338) -/

/-- The words of device memory. -/
def State.words (s : State) (x addr n : Nat) : List (BitVec 32) :=
  match s.vaRead x addr (4 * n) with
  | some (bs, _) => (List.range n).map (fun i => BitVec.ofNat 32 (fld bs (4 * i) 4))
  | none => List.replicate n 0

/-- The pages that a block's parameters lie in. -/
def Group.blockPages (g : Group) (b : Nat) : List Nat :=
  let lo := b * g.blockElems * g.esp / pageBytes
  let hi := ((b + 1) * g.blockElems * g.esp - 1) / pageBytes
  (List.range (hi - lo + 1)).map (lo + ·)

/-- Write a block's next copy from the statistics of a step. -/
def State.closeBlock (s : State) (x id b step : Nat) (h : Hyper) : State :=
  match s.cruGroup? x id with
  | none => s
  | some g =>
    let cur := s.words x (g.copyAt b (g.applied % 2)) (g.rows + g.cols + 1)
    let at_ (i : Nat) : BitVec 32 := (cur[i]?).getD 0
    let nat32 (n : Nat) : BitVec 32 := fOfInt (n : Int)
    let rs := (List.range g.rows).map (fun i => ffma h.b2 (at_ i) (fmul h.c2 (fdiv (mgetD g.rowSums (step, b * g.rows + i) 0) (nat32 g.cols))))
    let cs := (List.range g.cols).map (fun j => ffma h.b2 (at_ (g.rows + j))
      (fmul h.c2 (fdiv (treeSum ((g.blockPages b).map (fun pg => mgetD g.colSums (step, b, pg, j) 0))) (nat32 g.rows))))
    let sum := match rs with
      | [] => 0
      | r :: l => l.foldl fadd r
    let bs := (rs ++ cs ++ [sum]).flatMap (fun v => toLe 4 v.toNat)
    (((s.vaTouch x (g.copyAt b (g.applied % 2)) bs.length).vaWrite x (g.copyAt b (1 - g.applied % 2)) bs).vaTouch x (g.copyAt b (1 - g.applied % 2)) bs.length).modGroup x id (fun g => { g with
      rowSums := g.rowSums.filter (fun e => !(e.1.1 == step && e.1.2 / max 1 g.rows == b)),
      colSums := g.colSums.filter (fun e => !(e.1.1 == step && e.1.2.1 == b)),
      blockDone := mdel g.blockDone (step, b) })

/-- Add an applied granule's statistics to its block; the block's last granule of the step closes it. -/
def State.blockStats (s : State) (x id gi step : Nat) (h : Hyper) (qs : List (BitVec 32)) : State :=
  match s.cruGroup? x id with
  | none => s
  | some g =>
    if !g.factored then s else
    let e0 := gi * g.gpe
    let b := e0 / g.blockElems
    let row := e0 / g.cols
    let pg := e0 * g.esp / pageBytes
    let rsum := qs.foldl fadd (mgetD g.rowSums (step, row) 0)
    let cols := qs.zipIdx.foldl (fun (m : Map (Nat × Nat × Nat × Nat) (BitVec 32)) q =>
      let k := (step, b, pg, (e0 + q.2) % g.cols)
      mset m k (fadd (mgetD m k 0) q.1)) g.colSums
    let n := mgetD g.blockDone (step, b) 0 + 1
    let s1 := s.modGroup x id (fun g => { g with rowSums := mset g.rowSums (step, row) rsum, colSums := cols, blockDone := mset g.blockDone (step, b) n })
    if g.blockElems ≤ n * g.gpe then s1.closeBlock x id b step h else s1

/-! ### Campion frames (R364 to R367) -/

/-- The bytewise XOR of two byte strings. -/
def xorBytes (a b : List Byte) : List Byte := List.zipWith (· ^^^ ·) a b

/-- Maximal runs of zero and of other bytes: whether zero, and the bytes. -/
def zeroRuns : List Byte → List (Bool × List Byte)
  | [] => []
  | b :: l => match zeroRuns l with
    | (z, bs) :: r => if z = (b == 0) then (z, b :: bs) :: r else (b == 0, [b]) :: (z, bs) :: r
    | [] => [(b == 0, [b])]

/-- Zero runs shorter than four are literals, joined to their neighbours. -/
def tokenRuns (l : List (Bool × List Byte)) : List (Bool × List Byte) :=
  l.foldr (fun x acc =>
    let z := x.1 && decide (4 ≤ x.2.length)
    match z, acc with
    | false, (false, bs) :: r => (false, x.2 ++ bs) :: r
    | _, _ => (z, x.2) :: acc) []

/-- The encoded payload of R365. -/
def campionEncode (bs : List Byte) : List Byte :=
  (tokenRuns (zeroRuns bs)).flatMap (fun r => (chunks 32768 (r.2.length / 32768 + 1) r.2).flatMap (fun p =>
    if r.1 then toLe 2 (0x8000 + (p.length - 1)) else toLe 2 (p.length - 1) ++ p))

/-- A frame (R364). -/
def campionFrame (g : Group) (sp : Span) : List Byte :=
  let es := if sp.array = 0 then g.esp else g.esm
  let lo := (sp.parts.map (·.1)).foldl min (((sp.parts.head?).map (·.1)).getD 0)
  let hi := (sp.parts.map (fun p => p.1 + p.2.length)).foldl max 0
  let raw := sp.parts.foldl (fun (acc : List Byte) p => acc.take (p.1 - lo) ++ p.2 ++ acc.drop (p.1 - lo + p.2.length)) (List.replicate (hi - lo) 0)
  if raw.all (· == 0) then [] else
  let enc := campionEncode raw
  let f := toLe 2 0xC4A9 ++ toLe 1 sp.array ++ toLe 1 es ++ toLe 4 g.tensor ++ toLe 4 g.shard ++ toLe 4 raw.length ++ toLe 4 enc.length ++ toLe 4 0 ++ toLe 8 sp.step ++ toLe 8 lo ++ toLe 8 0 ++ enc
  f ++ List.replicate ((8 - f.length % 8) % 8) 0

def State.campion? (s : State) (j : Nat) : Option Campion := s.cru.streams.find? (·.j == j)
def State.modCampion (s : State) (j : Nat) (f : Campion → Campion) : State :=
  { s with cru := { s.cru with streams := upd s.cru.streams (·.j == j) f } }

/-- The open stream that carries a group. -/
def State.streamOf (s : State) (x gid : Nat) : Option Campion := s.cru.streams.find? (fun k => k.ctx == x && k.groups.contains gid)

def State.cruJob? (s : State) (uid : Nat) : Option CruJob := s.cru.jobs.find? (·.uid == uid)
def State.modCruJob (s : State) (uid : Nat) (f : CruJob → CruJob) : State :=
  { s with cru := { s.cru with jobs := upd s.cru.jobs (·.uid == uid) f } }

/-- Add a granule's XOR to its frame under assembly. -/
def addSpan (l : List Span) (array page step off : Nat) (x : List Byte) : List Span :=
  if l.any (fun sp => sp.array == array && sp.page == page) then
    upd l (fun sp => sp.array == array && sp.page == page) (fun sp => { sp with step := max sp.step step, parts := sp.parts ++ [(off, x)] })
  else l ++ [{ array := array, page := page, step := step, parts := [(off, x)] }]

/-- The assembled frames of a command that its next granule no longer adds to. -/
def State.closeSpans (s : State) (uid : Nat) (open_ : Span → Bool) : State :=
  match s.cruJob? uid with
  | none => s
  | some q => match s.cruGroup? q.ctx q.gid, s.streamOf q.ctx q.gid with
    | some g, some k =>
      let out := (q.spans.filter (fun sp => !open_ sp)).map (campionFrame g)
      s.modCruJob uid (fun q => { q with spans := q.spans.filter open_, frames := q.frames ++ (out.filter (fun f => !f.isEmpty)).map (fun f => (k.j, f)) })
    | _, _ => s.modCruJob uid (fun q => { q with spans := q.spans.filter open_ })

/-- Write bytes into an expander's address range from an address on (R244). -/
def State.rawFar (s : State) (use : FarUse) (uid group addr : Nat) (bs : List Byte) : Option (State × Nat) :=
  s.farWrite use uid { tier := .t3, place := group, ppn := addr / pageBytes } (addr % pageBytes) bs false

/-- The pieces of a frame in its ring: it may wrap from the end to the start. -/
def ringPieces (base size tail : Nat) (bs : List Byte) : List (Nat × List Byte) :=
  let at_ := tail % size
  if at_ + bs.length ≤ size then [(base + at_, bs)] else [(base + at_, bs.take (size - at_)), (base, bs.drop (size - at_))]

/-- What comes of trying to emit a frame. -/
inductive Emit where
  | full | waits (s : State) | done (s : State)
  deriving DecidableEq, Repr

/-- Emit a frame when its ring has room: its bytes, then the new tail count (R366). -/
def State.emit (s : State) (uid : Nat) (k : Campion) (f : List Byte) : Emit :=
  let size := 2 ^ k.ringLog2
  let tail := k.tail + f.length
  if s.field .cruCampionHead k.j 0 0 64 + size < tail then .full else
  let ps := ringPieces k.ring size k.tail f
  let moved (s : State) : State := (s.modCampion k.j (fun k => { k with tail := tail })).count .cruCampionStat k.j 0 16 32
  if k.far then
    match ps.foldl (fun (acc : Option (State × Nat)) p => match acc with
      | some (st, n) => (st.rawFar (.ring k.j tail) uid k.egroup p.1 p.2).map (fun r => (r.1, n + r.2))
      | none => none) (some (s, 0)) with
    | some (st, n) => .done ((moved st).modCampion k.j (fun k => { k with sent := k.sent ++ [(tail, n)] }))
    | none => .waits s
  else
    let pas := (s.ctx? k.ctx).map (·.pasid)
    match (ps ++ [(k.tailAddr, toLe 8 tail)]).findSome? (fun p => if (s.link k.link).state = .down then none else s.hostMiss k.link pas p.1 p.2.length) with
    | some g => .waits (s.askPage k.link pas g)
    | none =>
      if s.silent (((s.ctx? k.ctx).map (·.part)).getD 32) then .done (moved s) else
      .done ((moved (ps.foldl (fun st p => st.hostPost k.link pas p.1 p.2) s)).hostPost k.link pas k.tailAddr (toLe 8 tail))

/-! ### Digests (R359, R360) -/

/-- The ranges of the canonical bytes of elements of a group: parameters, and with `state` the moments of the same range and the current accumulators of every block wholly in it (R359, R361). -/
def Group.canonicalRanges (g : Group) (state : Bool) (first count : Nat) : List (Nat × Nat) :=
  let blocks := (List.range g.blocks).filter (fun b => decide (first ≤ b * g.blockElems ∧ (b + 1) * g.blockElems ≤ first + count))
  [(g.pAddr + first * g.esp, count * g.esp)] ++
  (if state then [(g.mAddr + first * g.esm, count * g.esm)] ++ blocks.map (fun b => (g.copyAt b (g.applied % 2), g.copyBytes)) else [])

/-- The canonical bytes themselves. -/
def State.canonical (s : State) (g : Group) (state : Bool) (first count : Nat) : List Byte :=
  (g.canonicalRanges state first count).flatMap (fun r => ((s.vaRead g.ctx r.1 r.2).map (·.1)).getD (List.replicate r.2 0))

/-- The poisoned granules among ranges that are read one after another: offset within what is read, bytes, address (R473). -/
def State.badRuns (s : State) (x : Nat) : Nat → List (Nat × Nat) → List (Nat × Nat × Nat)
  | _, [] => []
  | off, (a, n) :: l =>
    let grans := if n = 0 ∨ !((s.vaRead x a n).map (·.2)).getD false then [] else (List.range ((a + n - 1) / 64 - a / 64 + 1)).map (fun i => (a / 64 + i) * 64)
    (grans.filterMap (fun p =>
      let lo := max a p
      let hi := min (a + n) (p + 64)
      if ((s.vaRead x lo (hi - lo)).map (·.2)).getD false then some (off + (lo - a), hi - lo, lo) else none)) ++ s.badRuns x (off + n) l

/-- A command has read canonical bytes, which count in their pages (R229); it ends with ERR_POISON where they are poisoned (R473). -/
def State.sawCanonical (s : State) (g : Group) (uid block : Nat) (state : Bool) (first count : Nat) : State :=
  let rs := g.canonicalRanges state first count
  let s1 := rs.foldl (fun (st : State) r => st.vaTouch g.ctx r.1 r.2) s
  match s.badRuns g.ctx 0 rs with
  | (_, _, a) :: _ => s1.taint uid block (s.vaUnit g.ctx a)
  | [] => s1

/-- A digest packet's payload (R413). -/
def digestPayload (tensor shard step : Nat) (d : BitVec 64) : List Byte := toLe 4 tensor ++ toLe 4 shard ++ toLe 8 step ++ toLe 8 d.toNat

/-- Send a packet to the next device along an axis: on the lowest-numbered port of the direction that is up. -/
def State.sendNext (s : State) (dir ptype part uid : Nat) (payload : List Byte) (chill : Bool) : Option State :=
  (s.outPorts dir).head?.map (fun k => s.sendPacket k ptype part uid payload false chill)

/-- Whether every digest of a check has come, and the check's outcome where it has. -/
def DigestCheck.complete (d : DigestCheck) : Bool := d.mine.isSome && d.axes.all (fun a => decide (a.2 ≤ (d.received.filter (fun r => r.1 == a.1)).length + 1))
def DigestCheck.differs (d : DigestCheck) : Bool := d.received.any (fun r => some r.2 != d.mine)

/-- The reply of a command on a group once its work is done. -/
def CruJob.reply (q : CruJob) (g : Group) : Reply :=
  if q.flush then okProgress q.last else okProgress ((q.left.map (· * g.gpe)).getD (min (q.last * g.gpe) g.elems))

/-- A command's work on a group is done: CRU_APPLY and CRU_DEFERRED_FLUSH have their outcome, a collective goes on to its own end. -/
def State.endCru (s : State) (uid : Nat) (r : Reply) : State :=
  match s.cruJob? uid with
  | none => s
  | some q => match s.cmd? uid with
    | some c =>
      if c.opcode = 0x501 then
        (if r.status = 0 then s.modCruJob uid (fun q => { q with finished := true }) else { s.failCmd uid r with cru := { (s.failCmd uid r).cru with jobs := s.cru.jobs.filter (·.uid != uid) } })
      else ({ s with cru := { s.cru with jobs := s.cru.jobs.filter (·.uid != q.uid) } } : State).reply uid r
    | none => { s with cru := { s.cru with jobs := s.cru.jobs.filter (·.uid != q.uid) } }

/-- Compare a check whose digests have all come: counted, a difference reported and ending its command (R360). -/
def State.judgeCheck (s : State) (d : DigestCheck) : State :=
  if !d.complete then s else
  let s1 : State := { s with cru := { s.cru with digests := s.cru.digests.filter (fun e => !(e.part == d.part && e.tensor == d.tensor && e.shard == d.shard && e.step == d.step)) } }
  let s2 := s1.count .cruDigestStat d.part 0 0 32
  if d.differs then
    ((s2.count .cruDigestStat d.part 0 32 16).event .digestMismatch d.part 0 ((d.received.flatMap (fun r => toLe 8 r.2.toNat)).take 16)).endCru d.uid (errDigest d.tensor d.shard)
  else match s2.cruJob? d.uid with
    | some q => match s2.cruGroup? q.ctx q.gid with
      | some g => s2.endCru d.uid (q.reply g)
      | none => s2
    | none => s2

/-- Begin a check of the step a command completed (R360). -/
def State.beginCheck (s : State) (q : CruJob) (g : Group) (step : Nat) : State :=
  let d := crc64 (s.canonical g g.digestState 0 g.elems)
  let axes := (q.rings.filter (fun r => decide (1 < r.2.1))).map (fun r => (r.1, r.2.1))
  let same (e : DigestCheck) : Bool := e.part == g.part && e.tensor == g.tensor && e.shard == g.shard && e.step == step
  let old : DigestCheck := (s.cru.digests.find? same).getD { part := g.part, tensor := g.tensor, shard := g.shard, step := step }
  let e : DigestCheck := { old with uid := q.uid, ctx := q.ctx, mine := some d, axes := axes }
  let s0 := s.sawCanonical g q.uid 0x0C g.digestState 0 g.elems
  let s1 : State := { s0 with cru := { s0.cru with digests := put s0.cru.digests same e } }
  let s2 := (s1.setReg .cruDigestLast q.ctx 0 d.toNat).modCruJob q.uid (fun q => { q with checking := true })
  let chill := ((s.cmd? q.uid).map (·.chill)).getD false
  let s3 := axes.foldl (fun st a => match st.sendNext (2 * (a.1 - 1)) 6 g.part q.uid (digestPayload g.tensor g.shard step d) chill with
    | some st1 => st1
    | none => st.endCru q.uid (errLinkLost (st.rolePort (2 * (a.1 - 1))) 0)) s2
  s3.judgeCheck e

/-! ### Applying (R343 to R347, R355 to R358) -/

/-- The stack whose Crucible serves a granule: that of its parameter page, or under DEFERRED of its slot-0 page (R336). -/
def State.cruStack (s : State) (g : Group) (gi : Nat) : Nat :=
  ((s.pageAt g.ctx (if g.deferN = 0 then g.pAddr + gi * 64 else g.slotAt 0 (gi * g.gpe))).map (fun p => p.2.place)).getD 0 % 8

/-- The filled slots that a command applies to a granule, in ascending step. -/
def Group.due (g : Group) (flush : Bool) (step gi : Nat) : List Nat :=
  insSort (fun x => x) ((g.slots.filter (fun r => hasGran gi r.2 && (flush || decide (r.1 + g.deferN ≤ step)))).map (·.1))

/-- The gradient values of a granule in memory or fed, unscaled by k: rne(g × 2^-k). -/
def unscale (fmt : Nat) (k : Int) (x : Nat) : BitVec 32 := rne ((elemNum fmt x).scale (-k))

/-- Fed bytes of a range, if they have all come. -/
def fedBytes (l : List (Nat × List Byte)) (off n : Nat) : Option (List Byte) :=
  (List.range n).foldr (fun i acc => match acc, l.find? (fun p => decide (p.1 ≤ off + i ∧ off + i < p.1 + p.2.length)) with
    | some bs, some p => some ((p.2.drop (off + i - p.1)).headD 0 :: bs)
    | _, _ => none) (some [])

/-- Far bytes that came for a range, with whether they are poisoned. -/
def farBytes (l : List FarPart) (addr n : Nat) : List Byte × Bool :=
  ((List.range n).map (fun i => match l.find? (fun p => decide (p.addr ≤ addr + i ∧ addr + i < p.addr + p.bytes.length)) with
    | some p => (p.bytes.drop (addr + i - p.addr)).headD 0
    | none => 0),
   l.any (fun p => decide (p.addr < addr + n ∧ addr < p.addr + p.bytes.length) && (List.range 64).any (fun g => p.mask.testBit g && decide (p.addr + 64 * g < addr + n ∧ addr < p.addr + 64 * (g + 1)))))

/-- Read device memory where it lies near, or the far bytes that came. -/
def State.cruRead (s : State) (q : CruJob) (addr n : Nat) : List Byte × Bool :=
  if n = 0 then ([], false) else
  match s.pageAt q.ctx addr with
  | some (_, p) => if p.tier = .t3 then farBytes q.got addr n else (s.vaRead q.ctx addr n).getD ([], true)
  | none => (List.replicate n 0, true)

/-- Ask for the far granules of a range; none where no port of its group is up. -/
def State.cruAsk (s : State) (uid x addr n : Nat) (chill : Bool) : Option (State × Nat) :=
  match s.pageAt x addr with
  | some (o, p) =>
    if p.tier ≠ .t3 ∨ n = 0 then some (s, 0) else
    let lo := addr / 64 * 64
    let k := cdiv (addr + n - lo) 64
    (s.sendFar 1 (.cru uid lo) uid p.place (p.farAddr ((lo - o.base) % pageBytes)) k [] chill).map (fun st => (st, 1))
  | none => some (s, 0)

/-- Write logged values: near memory at once, far granules by WR (R355); the far writes sent, none where no port is up. -/
def State.cruWrites (s : State) (uid x gid gi : Nat) (ws : List (Nat × List Byte)) (chill : Bool) : State × Nat × Bool :=
  ws.foldl (fun (acc : State × Nat × Bool) w => match acc.1.pageAt x w.1 with
    | some (o, p) =>
      if p.tier = .t3 then
        (match acc.1.farWrite (.log x gid gi) uid p ((w.1 - o.base) % pageBytes) w.2 chill with
         | some (st, n) => (st.vaTouch x w.1 w.2.length, acc.2.1 + n, acc.2.2)
         | none => (acc.1, acc.2.1, true))
      else ((acc.1.vaWrite x w.1 w.2).vaTouch x w.1 w.2.length, acc.2.1, acc.2.2)
    | none => acc) (s, 0, false)

/-- A granule is left unchanged (R356). -/
def State.cruLeave (s : State) (q : CruJob) (k gi unit : Nat) : State :=
  ((s.taint q.uid 0x0C unit).flag .cruStat k 0 1).modCruJob q.uid (fun q => { q with left := some ((q.left.map (min gi)).getD gi), next := gi + 1, asked := false, got := [] })

/-- Pages of other stacks that a granule's moments and accumulators are fetched from, counted once a command (R342). -/
def State.cruRemote (s : State) (q : CruJob) (k : Nat) (addrs : List Nat) : State :=
  addrs.foldl (fun st a => match st.pageAt q.ctx a with
    | some (o, p) =>
      let key := (k, (o.handle * 2 ^ 32 + (a - o.base) / pageBytes))
      let seen := ((st.cruJob? q.uid).map (fun j => j.remote.contains key)).getD true
      if p.tier = .t2 ∧ p.place % 8 ≠ k ∧ !seen then (st.count .cruStat k 0 8 16).modCruJob q.uid (fun j => { j with remote := j.remote ++ [key] }) else st
    | none => st) s

/-- A gradient granule has arrived for the open step; with the last one A rises and the step is complete (R343). -/
def State.arrive (s : State) (q : CruJob) (gi : Nat) : State :=
  match s.cruGroup? q.ctx q.gid with
  | none => s
  | some g =>
    let done := addGran gi g.done
    if rangeSize done = g.granules then
      (s.modGroup q.ctx q.gid (fun g => { g with applied := g.applied + 1, lastStep := some q.step, openStep := none, done := [] })).modCruJob q.uid (fun q => { q with completed := true })
    else s.modGroup q.ctx q.gid (fun g => { g with done := done })

/-- Apply one granule of a command whose data are all at hand (R337 to R340, R346, R355, R356). -/
def State.cruApplyOne (s : State) (q : CruJob) (g : Group) (grad : List Byte × Bool) (due : List Nat) : State :=
  let gi := q.next
  let k := s.cruStack g gi
  let e0 := gi * g.gpe
  let n := min g.gpe (g.elems - e0)
  let x := q.ctx
  let h := hyperOf q.hyper
  let near := g.deferN == 0
  let slotOf (st : Nat) : Nat := st % (g.deferN + 1)
  let pa := g.pAddr + e0 * g.esp
  let ma := g.mAddr + e0 * g.esm
  let touches := near || !due.isEmpty
  let p := if touches then s.cruRead q pa (n * g.esp) else ([], false)
  let m := if touches then s.cruRead q ma (n * g.esm) else ([], false)
  let mine := slotOf q.step
  let slots := due.map (fun st => (st, s.cruRead q (g.slotAt (slotOf st) e0) (n * 4)))
  let badSlot := (slots.find? (fun t => t.2.2)).map (fun t => g.slotAt (slotOf t.1) e0)
  let own := if near ∨ q.flush then ([], false) else s.cruRead q (g.slotAt mine e0) (n * 4)
  let b := if g.factored then e0 / g.blockElems else 0
  let cur := g.copyAt b (g.applied % 2)
  let row := (e0 % max 1 g.blockElems) / max 1 g.cols
  let accBad := g.factored && touches && ((s.vaRead x cur g.copyBytes).map (·.2)).getD true
  let at_ (i : Nat) : BitVec 32 := (s.words x (cur + 4 * i) 1).headD 0
  let acc := if g.factored then s.words x (cur + 4 * (g.rows + e0 % max 1 g.cols)) n else []
  let badAddr := if p.2 then some pa else if m.2 then some ma else if badSlot.isSome then badSlot else if own.2 then some (g.slotAt mine e0)
    else if grad.2 then some ((q.src.map (fun a => a.1 + (e0 - q.first) * (if a.2 = 4 then 2 else 4))).getD 0) else if accBad then some cur else none
  match badAddr with
  | some a => s.cruLeave q k gi (s.vaUnit x a)
  | none =>
  if q.faults.contains gi then
    ((s.cruLeave q k gi (s.vaUnit x pa)).event .crucibleResidue g.part k (toLe 4 g.id ++ toLe 8 gi))
  else
  let key := randKey (((s.ctx? x).map (·.seed)).getD 0) g.tag 3
  let vals (bs : List Byte) : List (BitVec 32) := (List.range n).map (fun i => BitVec.ofNat 32 (fld bs (4 * i) 4))
  let fmt := (q.src.map (·.2)).getD 4
  let gs := (List.range n).map (fun i => unscale fmt q.k (fld grad.1 (i * (if fmt = 4 then 2 else 4)) (if fmt = 4 then 2 else 4)))
  let runs : List (Nat × List (BitVec 32)) := if near then [(q.step, gs)] else slots.map (fun t => (t.1, vals t.2.1))
  let outs := runs.foldl (fun (st : (List Byte × List Byte) × List (Nat × CruOut)) r =>
    let o := cruGranule g h key r.1 e0 st.1.1 st.1.2 r.2 acc (at_ row) (at_ (g.rows + g.cols))
    ((o.p, o.m), st.2 ++ [(r.1, o)])) ((p.1, m.1), [])
  let nonfin := (outs.2.map (fun o => o.2.nonfinite)).foldl (· + ·) 0
  -- the slots: applied ones go back as +0 where their element was applied, then the new gradient is added
  let zero (vs : List (BitVec 32)) : List (BitVec 32) := vs.map (fun v => if fIsFin v then 0 else v)
  let cleared := slots.map (fun t => (slotOf t.1, zero (vals t.2.1)))
  let before := ((cleared.find? (fun c => c.1 == mine)).map (·.2)).getD (vals own.1)
  let arrives := !near && !q.flush
  let added := List.zipWith (fun o v => if fIsFin v then BitVec.ofNat 32 (addElem 5 false o.toNat v.toNat) else o) before gs
  let late := if arrives then (gs.filter (fun v => !fIsFin v)).length else 0
  let slotWrites := (cleared.filter (fun c => !(arrives && c.1 == mine))).map (fun c => (g.slotAt c.1 e0, c.2.flatMap (fun v => toLe 4 v.toNat))) ++
    (if arrives then [(g.slotAt mine e0, added.flatMap (fun v => toLe 4 v.toNat))] else [])
  let pm := if touches then [(pa, outs.1.1)] ++ (if g.esm = 0 then [] else [(ma, outs.1.2)]) else []
  let chill := ((s.cmd? q.uid).map (·.chill)).getD false
  let reads := (if touches then [(pa, n * g.esp), (ma, n * g.esm)] ++ (if g.factored then [(cur + 4 * row, 4), (cur + 4 * (g.rows + e0 % max 1 g.cols), 4 * n), (cur + 4 * (g.rows + g.cols), 4)] else []) else []) ++
    (due.map slotOf ++ (if near ∨ q.flush then [] else [mine])).map (fun i => (g.slotAt i e0, 4 * n)) ++ (q.src.map (fun a => (a.1 + (e0 - q.first) * (if a.2 = 4 then 2 else 4), grad.1.length))).toList
  let s := reads.foldl (fun (st : State) r => st.vaTouch x r.1 r.2) s
  let s0 := if touches then s.cruRemote q k ((if g.esm = 0 then [] else [ma]) ++ (if g.factored then [cur] else [])) else s
  let w := s0.cruWrites q.uid x q.gid gi (slotWrites ++ pm) chill
  let entry : LogEntry := { stack := k, ctx := x, group := q.gid, granule := gi, uid := q.uid, writes := pm, awaiting := w.2.1, lost := w.2.2 }
  let s1 : State := if w.2.1 = 0 ∧ !w.2.2 then w.1 else { w.1 with cru := { w.1.cru with log := w.1.cru.log ++ [entry] } }
  let s2 := ((s1.count .cruStat k 0 24 32 (nonfin + late)).flag .cruStat k 0 2 (outs.2.any (fun o => o.2.inf))).countK .cruApplied k 0 32 1
  let s3 := if due.isEmpty then s2 else s2.countK .cruApplied k 32 32 1
  let s4 := (pm ++ slotWrites).foldl (fun st v => st.digestWrite q.uid (g.tensor % 2 ^ 16) 0 10 v.2 v.1) s3
  let kept (l : List (Nat × List (Nat × Nat))) : List (Nat × List (Nat × Nat)) := (l.map (fun r => if due.contains r.1 then (r.1, delGran gi r.2) else r)).filter (fun r => !r.2.isEmpty)
  let held (l : List (Nat × List (Nat × Nat))) : List (Nat × List (Nat × Nat)) :=
    if l.any (fun r => r.1 == q.step) then l.map (fun r => if r.1 = q.step then (r.1, addGran gi r.2) else r) else l ++ [(q.step, [(gi, gi + 1)])]
  let s5 := s4.modGroup x q.gid (fun g => { g with slots := if arrives then held (kept g.slots) else kept g.slots })
  let s6 := outs.2.foldl (fun st o => st.blockStats x q.gid gi o.1 h o.2.qs) s5
  let top := (runs.map (·.1)).foldl max 0
  let carry := (s.streamOf x q.gid)
  let s7 := match carry with
    | some c =>
      let both (l : List Span) : List Span :=
        if c.state ∧ g.esm ≠ 0 then addSpan l 1 (ma / pageBytes) top (e0 * g.esm) (xorBytes m.1 outs.1.2) else l
      if !touches then s6 else s6.modCruJob q.uid (fun j => { j with spans := both (addSpan j.spans 0 (pa / pageBytes) top (e0 * g.esp) (xorBytes p.1 outs.1.1)) })
    | none => s6
  let s8 := if q.flush then s7 else s7.arrive q gi
  s8.modCruJob q.uid (fun j => { j with next := gi + 1, asked := false, got := [] })

/-- The first apply or flush after start-up rewrites the log entries that outlived a warm reset (R370). -/
def State.rewriteStale (s : State) : State :=
  let s1 := s.cru.stale.foldl (fun st k => st.count .cruLog k 0 32 16) s
  { s1 with cru := { s1.cru with stale := [] } }

/-- Answer the XO packets whose every granule is logged (R414, R439). -/
def State.cruAcks (s : State) (uid : Nat) (ack : State → Nat → FabPacket → State) : State :=
  match s.cruJob? uid with
  | none => s
  | some q =>
    let (ready, rest) := q.acks.partition (fun a => decide (a.1 ≤ q.next))
    ready.foldl (fun st a => ack st a.2.1 a.2.2) (s.modCruJob uid (fun q => { q with acks := rest }))

/-- What a command on a group does next: nothing until something comes, or one more move of its own. -/
inductive CruMove where
  | stop (s : State) | go (s : State)
  deriving DecidableEq, Repr

/-- Rewrite the logged values of an unretired entry whose writes were lost (R355, R357). -/
def State.cruRewrite (s : State) (q : CruJob) (e : LogEntry) : CruMove :=
  if 0 < e.awaiting then .stop s else
  let w := s.cruWrites q.uid e.ctx e.group e.granule e.writes (((s.cmd? q.uid).map (·.chill)).getD false)
  if w.2.2 then .stop s else
  let s1 := w.1.count .cruLog e.stack 0 32 16
  let mine (l : LogEntry) : Bool := l.ctx == e.ctx && l.group == e.group && l.granule == e.granule
  if w.2.1 = 0 then .go { s1 with cru := { s1.cru with log := s1.cru.log.filter (fun l => !mine l) } }
  else .stop { s1 with cru := { s1.cru with log := upd s1.cru.log mine (fun l => { l with uid := q.uid, awaiting := w.2.1, lost := false }) } }

/-- Whether a job stands at a stream tile boundary, every 2 MiB of parameter bytes, with nothing under way for its next granule (R345, R358). -/
def CruJob.atTile (q : CruJob) (g : Group) : Bool := (q.next - q.first / g.gpe) % (pageBytes / 64) == 0 && !q.asked && q.awaiting == 0

/-- Whether a stopped job may go on: its command is not held for QUEUE_START, and no CTX_PREEMPT of its context still waits (R77, R78). -/
def State.cruMayResume (s : State) (q : CruJob) : Bool :=
  ((s.cmd? q.uid).map (fun c => !c.halt)).getD true &&
  !(s.queues.flatMap (·.running)).any (fun c => c.reply.isNone && (match c.work with
    | .preempt x _ => x == q.ctx
    | .carve p => p == q.part
    | _ => false))

/-- One move of a command on a group: stop at a tile boundary where it is to stop, emit a waiting frame, rewrite an unretired entry, ask for far data, apply a granule, or end. -/
def State.cruMove (s : State) (q : CruJob) : CruMove :=
  match s.cruGroup? q.ctx q.gid, q.frames with
  | none, _ => .stop (s.failCmd q.uid (errConflict 1 0))
  | some _, (j, f) :: rest =>
    (match s.campion? j with
     | none => .go (s.modCruJob q.uid (fun q => { q with frames := rest }))
     | some k =>
       if k.broken then .go (s.modCruJob q.uid (fun q => { q with frames := rest, stalled := false })) else
       match s.emit q.uid k f with
       | .done s1 => .go (s1.modCruJob q.uid (fun q => { q with frames := rest, stalled := false }))
       | .waits s1 => .stop s1
       | .full => .stop (if q.stalled then s else (s.count .cruCampionStat j 0 48 16).modCruJob q.uid (fun q => { q with stalled := true })))
  | some g, [] =>
    if q.finished ∨ q.checking ∨ q.stopped then .stop s else
    if q.stopping ∧ q.next < q.last ∧ q.atTile g then .stop (s.modCruJob q.uid (fun q => { q with stopped := true })) else
    if q.last ≤ q.next then
      (if !q.spans.isEmpty then .go (s.closeSpans q.uid (fun _ => false))
       else match s.cru.log.find? (fun e => e.uid == q.uid && e.ctx == q.ctx && e.group == q.gid) with
       | some e => s.cruRewrite q e
       | none =>
       if q.completed ∧ g.digestEvery ≠ 0 ∧ g.repAxes ≠ 0 ∧ q.step % g.digestEvery = 0 then .stop (s.beginCheck q g q.step)
       else .stop (s.endCru q.uid (q.reply g)))
    else
    let gi := q.next
    let page := (g.pAddr + gi * 64) / pageBytes
    if q.spans.any (fun sp => sp.array == 0 && sp.page != page) then .go (s.closeSpans q.uid (fun sp => sp.array == 1 || sp.page == page)) else
    match s.cru.log.find? (fun e => e.ctx == q.ctx && e.group == q.gid && e.granule == gi) with
    | some e => s.cruRewrite q e
    | none =>
      let e0 := gi * g.gpe
      let n := min g.gpe (g.elems - e0)
      let due := g.due q.flush q.step gi
      let touches := g.deferN == 0 || !due.isEmpty
      if q.flush ∧ due.isEmpty then .go (s.modCruJob q.uid (fun q => { q with next := gi + 1 })) else
      let es := match q.src with
        | some (_, 5) => 4
        | _ => 2
      let grad : Option (List Byte × Bool) := if q.flush then some ([], false) else match q.src with
        | some (a, _) => s.vaRead q.ctx (a + (e0 - q.first) * es) (n * es)
        | none => (fedBytes q.data (e0 * 2) (n * 2)).map (fun b => (b, false))
      match grad with
      | none => if q.src.isSome then .stop (s.failCmd q.uid { errPage 0xA ((q.src.map (·.1)).getD 0) with progress := e0 }) else .stop s
      | some gr =>
        let pa := g.pAddr + e0 * g.esp
        let ma := g.mAddr + e0 * g.esm
        if touches ∧ (!s.mapped q.ctx pa (n * g.esp) ∨ !s.mapped q.ctx ma (n * g.esm)) then .stop (s.failCmd q.uid { errPage 0xA pa with progress := e0 })
        else if !q.asked ∧ touches ∧ g.deferN ≠ 0 then
          let chill := ((s.cmd? q.uid).map (·.chill)).getD false
          (match s.cruAsk q.uid q.ctx pa (n * g.esp) chill with
           | none => .stop s
           | some (s1, a) => match s1.cruAsk q.uid q.ctx ma (n * g.esm) chill with
             | none => .stop s
             | some (s2, b) =>
               let s3 := s2.modCruJob q.uid (fun q => { q with asked := true, awaiting := a + b })
               if a + b = 0 then .go s3 else .stop s3)
        else if 0 < q.awaiting then .stop s
        else if 65536 ≤ (s.cru.log.filter (fun e => e.stack == s.cruStack g gi)).length then
          .stop (if q.logStalled then s else (s.count .cruLog (s.cruStack g gi) 0 48 16).modCruJob q.uid (fun q => { q with logStalled := true }))
        else .go ((s.modCruJob q.uid (fun q => { q with logStalled := false })).cruApplyOne q g gr due)

/-- Moves of a command on a group until it waits or ends; fuel bounds them. -/
def State.cruRun (uid : Nat) : Nat → State → State
  | 0, s => s
  | n + 1, s => match s.cruJob? uid with
    | none => s
    | some q => match s.cruMove q with
      | .stop s1 => s1
      | .go s1 => State.cruRun uid n s1

/-- Let a command on a group go on as far as it can. -/
def State.cruPump (s : State) (uid : Nat) : State :=
  match s.cruJob? uid with
  | some q => State.cruRun uid (4 * (q.last - q.next) + 3 * q.frames.length + 16) s
  | none => s

/-- Let every command on a group go on; stopped ones that may resume do, and those that stop write their interim records (R78, R358). -/
def State.cruPumpAll (s : State) : State :=
  let s1 : State := { s with cru := { s.cru with jobs := s.cru.jobs.map (fun (q : CruJob) => if q.stopped && s.cruMayResume q then { q with stopped := false, stopping := false } else q) } }
  ((s1.cru.jobs.map (·.uid)).foldl State.cruPump s1).settleStops

/-! ### Starting on a group (R343, R352, R353, R361) -/

/-- The lengths and positions of a partition's rings on the axes of a mask: axis (1 X, 2 Y, 3 Z), LEN, POS (R429). -/
def State.ringsOf (s : State) (part mask : Nat) : List (Nat × Nat × Nat) :=
  (setBits 3 mask).map (fun a => (a + 1, s.field .colRing part a 0 16, s.field .colRing part a 16 16))

/-- Whether a command holds applies to a group that start after it: an export or digest of the group that waits or runs (R361, R385). -/
def State.quiesced (s : State) (c : Running) : Bool :=
  (s.queues.flatMap (·.running)).any (fun k => decide (k.order < c.order) && k.ticket == c.ticket && k.work == .held && (k.opcode == 0xB01 || (k.opcode == 0x802 && k.u 40 1 == 1)))

/-- The scale exponent of an apply, or none while its vote is outstanding (R352). -/
def State.applyScale (s : State) (c : Running) (g : Group) : Option Int :=
  match s.ctx? c.ctx with
  | none => none
  | some x =>
    if x.pendingVotes.contains c.step then none
    else if g.vote then (x.votes.find? (fun v => v.step == c.step)).map (·.k) else some x.k

/-- The entry checks of an apply to elements of a group (R343). -/
def State.stepOk (s : State) (c : Running) (g : Group) (lo hi : Nat) : Bool :=
  ((g.lastStep.map (fun l => decide (l < c.step))).getD true) && ((g.openStep.map (fun o => o == c.step)).getD true) && !meetsRange lo hi g.done &&
  !s.cru.jobs.any (fun q => q.ctx == g.ctx && q.gid == g.id && !q.flush && decide (q.next < hi ∧ lo < q.last))

/-- The hyperparameter words of a group; poison of the block ends the command before any effect (R334). -/
def State.hyperWords (s : State) (g : Group) : Except Stop (List (BitVec 32)) :=
  match s.vaRead g.ctx g.hAddr 64 with
  | none => fail (errPage 0xA g.hAddr)
  | some (_, true) => fail (errPoison 0x0C (s.vaUnit g.ctx g.hAddr))
  | some (bs, false) => .ok ((List.range 6).map (fun i => BitVec.ofNat 32 (fld bs (4 * i) 4)))

/-- The group that a command names under its ticket. -/
def State.groupArg (s : State) (c : Running) (off : Nat) (all : Bool) (fields : Except Stop Unit := .ok ()) : Except Stop Group := do
  let (_, t) ← s.judgeTicket c .group fields
  match t.payload with
  | .group id =>
    need (c.u off 2 == id || (all && c.u off 2 == 0xFFFF)) (errFormat off)
    match s.cruGroup? c.ctx id with
    | some g => .ok g
    | none => fail (errConflict 1 (bits c.ticket 11 0))
  | _ => fail (errFormat 32)

/-- The ranges of parameters and moments that work on a group's elements writes (R461). -/
def Group.stateRanges (g : Group) (first count : Nat) : List (Nat × Nat × Bool) := (g.canonicalRanges true first count).map (fun r => (r.1, r.2, true))

/-- CRU_APPLY (R344, R345). -/
def bodyCruApply (faults : List Nat) : Body := fun c s => do
  plenIs c 16
  let fmt := c.u 42 1
  let g ← s.groupArg c 40 false (do
    need (fmt == 4 || fmt == 5) (errFormat 42)
    reserved c 43 5
    need (c.u 48 8 % 64 == 0) (errFormat 48)
    reserved c 56 8)
  need (fmt == 4 || fmt == 5) (errFormat 42)
  reserved c 43 5
  need (c.u 48 8 % 64 == 0) (errFormat 48)
  reserved c 56 8
  let first := c.u 64 8
  let count := c.u 72 8
  need (first % g.gpe == 0 && decide (first < g.elems)) (errFormat 64)
  need (decide (first + count ≤ g.elems) && (count % g.gpe == 0 || first + count == g.elems)) (errFormat 72)
  if s.quiesced c then .error .held else .ok ()
  if s.stepSkipped c.ctx c.step then .ok (s, some okSkipped) else
  match s.applyScale c g with
  | none => .error .held
  | some k =>
    let lo := first / g.gpe
    let hi := cdiv (first + count) g.gpe
    need (count == 0 || s.stepOk c g lo hi) (errFormat 8)
    match s.waitLines c ((c.u 48 8, count * (es2 fmt / 2), false) :: g.stateRanges first count) with
    | some s1 => .ok (s1, none)
    | none =>
    let h ← s.hyperWords g
    let q : CruJob := { uid := c.uid, ctx := c.ctx, part := c.part, gid := g.id, src := some (c.u 48 8, fmt), step := c.step, k := k, first := first, next := lo, last := hi,
                        hyper := h, rings := s.ringsOf c.part g.repAxes, faults := faults }
    let s1 := ((s.vaTouch c.ctx g.hAddr 64).modGroup c.ctx g.id (fun g => if count = 0 then g else { g with openStep := some c.step })).modCmd c.uid (fun r => { r with work := .apply })
    .ok (({ s1 with cru := { s1.cru with jobs := s1.cru.jobs ++ [q] } } : State).rewriteStale.cruPump c.uid, none)

/-- CRU_DEFERRED_FLUSH (R347). -/
def bodyCruDeferredFlush : Body := fun c s => do
  let g ← s.groupArg c 40 true (reserved c 42 22)
  reserved c 42 22
  if g.deferN = 0 then .ok (s, some ok) else
  if s.quiesced c then .error .held else .ok ()
  if s.stepSkipped c.ctx c.step then .ok (s, some okSkipped) else
  if s.stepWaits c.ctx c.step then .error .held else .ok ()
  match s.waitLines c (g.stateRanges 0 g.elems) with
  | some s1 => .ok (s1, none)
  | none =>
  let h ← s.hyperWords g
  let q : CruJob := { uid := c.uid, ctx := c.ctx, part := c.part, gid := g.id, flush := true, step := c.step, first := 0, next := 0, last := g.granules, hyper := h }
  let s1 := (s.vaTouch c.ctx g.hAddr 64).modCmd c.uid (fun r => { r with work := .apply })
  .ok (({ s1 with cru := { s1.cru with jobs := s1.cru.jobs ++ [q] } } : State).rewriteStale.cruPump c.uid, none)

/-- Whether a command applying to a group that started before this one still runs (R361). -/
def State.groupBusy (s : State) (c : Running) (g : Group) : Bool :=
  s.cru.jobs.any (fun q => q.ctx == g.ctx && q.gid == g.id) ||
  (s.queues.flatMap (·.running)).any (fun k => decide (k.order < c.order) && k.ticket == c.ticket && k.reply.isNone && k.work == .held && (k.opcode == 0x702 || k.opcode == 0x704 || k.opcode == 0x501))

/-! ### Export (R361, R362) -/

/-- The header of an exported shard. -/
def exportHeader (g : Group) (xflags first count payload : Nat) (digest : BitVec 64) : List Byte :=
  toLe 2 0xE5A1 ++ toLe 2 0x0709 ++ toLe 1 0xA1 ++ toLe 1 g.kind ++ toLe 1 (g.pfmt + 16 * g.mfmt) ++ toLe 1 xflags ++ toLe 4 g.tensor ++ toLe 4 g.shard ++
  toLe 8 (g.elemBase + first) ++ toLe 8 count ++ toLe 8 (g.lastStep.getD 0) ++ toLe 8 payload ++ toLe 8 digest.toNat ++ toLe 8 0

/-- EXPORT_SHARD (R361, R362). -/
def bodyExportShard : Body := fun c s => do
  plenIs c 16
  let fl := c.u 42 1
  let g ← s.groupArg c 40 false (do
    need (fl / 4 == 0) (errFormat 42)
    reserved c 43 5
    need (c.u 48 8 % 64 == 0) (errFormat 48)
    reserved c 56 8)
  need (fl / 4 == 0) (errFormat 42)
  reserved c 43 5
  let dst := c.u 48 8
  need (dst % 64 == 0) (errFormat 48)
  reserved c 56 8
  let first := c.u 64 8
  need (decide (first < g.elems)) (errFormat 64)
  let count := if c.u 72 8 = 0 then g.elems - first else c.u 72 8
  need (decide (first + count ≤ g.elems)) (errFormat 72)
  let prot := ((s.objAt g.ctx g.pAddr).map (·.prot)).getD false
  let intoProt := !bit fl 1 && ((s.objAt c.ctx dst).map (·.prot)).getD false
  need (!prot || intoProt) (errFormat 48)
  if s.groupBusy c g then .error .held else .ok ()
  let body := s.canonical g (bit fl 0) first count
  match s.waitLines c ((g.canonicalRanges (bit fl 0) first count).map (fun r => (r.1, r.2, false)) ++ (if bit fl 1 then [] else [(dst, 64 + body.length, true)])) with
  | some s1 => .ok (s1, none)
  | none =>
  let out := exportHeader g fl first count body.length (crc64 body) ++ body
  let bad := (s.badRuns g.ctx 64 (g.canonicalRanges (bit fl 0) first count)).map (fun r => (r.1, r.2.1))
  let s1 ← s.output c (bit fl 1) dst out (g.tensor % 2 ^ 16) (if bad.isEmpty then [] else (56, 8) :: bad)
  .ok (s1.sawCanonical g c.uid 0x0C (bit fl 0) first count, some (okProgress body.length))

/-! ### Campion commands (R363, R368) -/

/-- Whether a group may join a new checkpoint stream: it exists, is not PROTECTED and belongs to none. -/
def State.mayStream (s : State) (x id : Nat) : Bool := match s.cruGroup? x id with
  | some g => !((s.objAt x g.pAddr).map (·.prot)).getD false && (s.streamOf x id).isNone
  | none => false

/-- CAMPION_OPEN (R363). -/
def bodyCampionOpen : Body := fun c s => do
  plenIs c 16
  noTicket c
  let j := c.u 40 1
  need (decide (j < 16) && !((s.campion? j).map (fun k => k.ctx == c.ctx)).getD false) (errFormat 40)
  let fl := c.u 41 1
  need (fl / 4 == 0) (errFormat 41)
  need (decide (c.u 42 1 < 8)) (errFormat 42)
  need (decide (16 ≤ c.u 43 1 ∧ c.u 43 1 ≤ 40)) (errFormat 43)
  reserved c 44 4
  need (c.u 48 8 % 4096 == 0) (errFormat 48)
  need (c.u 56 8 % 8 == 0) (errFormat 56)
  let n := c.u 72 2
  need (decide (1 ≤ n ∧ n ≤ 1024)) (errFormat 72)
  let bs ← match s.input c false (c.u 64 8) (2 * n) with
    | .ok bs => .ok bs
    | .error e => do
      reserved c 74 6
      .error e
  let gs := (List.range n).map (fun i => fld bs (2 * i) 2)
  need (gs.all (s.mayStream c.ctx)) (errFormat 64)
  reserved c 74 6
  need (s.campion? j).isNone (errPartition 40)
  let far := bit fl 0
  let k : Campion := { j := j, ctx := c.ctx, far := far, state := bit fl 1, egroup := c.u 42 1, ringLog2 := c.u 43 1, ring := c.u 48 8, tailAddr := c.u 56 8, groups := gs, link := s.linkOf c.queue }
  let opened (s : State) : State := (({ s with cru := { s.cru with streams := s.cru.streams ++ [k] } } : State).setReg .cruCampionHead j 0 0).setField .cruCampionStat j 0 1 1 0
  if far then
    match s.rawFar (.tail j) c.uid k.egroup k.tailAddr (toLe 8 0) with
    | some (s1, _) => .ok (opened (s1.sawInput c false (c.u 64 8) (2 * n)), some ok)
    | none => .error .held
  else
    match s.hostMiss k.link (s.pasidOf c) k.tailAddr 8 with
    | some p => .error (.park k.link (s.pasidOf c) p)
    | none =>
      let s1 := s.sawInput c false (c.u 64 8) (2 * n)
      .ok (opened (s1.hostStore k.link (s.pasidOf c) c.uid k.tailAddr (toLe 8 0)), some ok)

/-- CAMPION_CLOSE: once every frame of earlier commands is written and its tail published (R368). -/
def bodyCampionClose : Body := fun c s => do
  noTicket c
  reserved c 41 23
  match s.campion? (c.u 40 1) with
  | none => fail (errFormat 40)
  | some k =>
    need (k.ctx == c.ctx) (errPartition 40)
    let busy := !k.sent.isEmpty || s.memory.far.any (fun f => f.use == .tail k.j) ||
      s.cru.jobs.any (fun q => q.frames.any (fun f => f.1 == k.j) && ((s.cmd? q.uid).map (fun r => r.reply.isSome)).getD false)
    if busy then .error .held else
    .ok ({ s with cru := { s.cru with streams := s.cru.streams.filter (fun e => e.j != k.j) } }, some (okProgress k.tail))

/-- The consumer writes its count; waiting frames go on (R366, R369). -/
def State.writeHead (s : State) (fn j value : Nat) : State :=
  let seen := fn = 0 ∨ ((s.campion? j).bind (fun k => s.ctx? k.ctx)).map (fun x => x.part + 1) = some fn
  if seen then (s.setReg .cruCampionHead j 0 value).cruPumpAll else s

/-- CAMPION_HEAD_WRITE (R366): the consumer's count; applies that waited for room go on. -/
def execCampionHeadWrite (fn : Fin 33) (j : Fin 16) (value : BitVec 64) (s : State) : Host.Outcome State Fault Refusal :=
  s.run (fun s => s.writeHead fn j value.toNat)

/-- The ring of a Campion stream still has no room: the stream breaks and the waiting apply goes on (R367). -/
def State.campionExpired (s : State) (j : Nat) : State :=
    let waits := s.cru.jobs.any (fun q => q.stalled && (q.frames.head?.map (fun f => f.1 == j)).getD false)
    if waits then (((s.modCampion j (fun k => { k with broken := true })).flag .cruCampionStat j 0 1).event .campionLost ((((s.campion? j).bind (fun k => s.ctx? k.ctx)).map (·.part)).getD 0xFF) 0 (toLe 8 j)).cruPumpAll
    else s

/-- CAMPION_STALL_EXPIRY, evaluated at the end of its tick (R80, R367). -/
def execCampionStallExpiry (j : Fin 16) (s : State) : Host.Outcome State Fault Refusal := s.run (fun s => s.expire (.campion j))

/-! ### Acknowledgements of a Crucible's far requests -/

/-- Far data of a command on a group has come. -/
def State.cruData (s : State) (uid addr : Nat) (bs : List Byte) (mask : Nat) : State :=
  (s.modCruJob uid (fun q => { q with awaiting := q.awaiting - 1, got := q.got ++ [({ addr := addr, bytes := bs, mask := mask } : FarPart)] })).cruPump uid

/-- A far write of a logged granule is acknowledged, or lost; the entry retires with its last (R355, R357). -/
def State.cruLogged (s : State) (x gid gi : Nat) (ok : Bool) : State :=
  let mine (e : LogEntry) : Bool := e.ctx == x && e.group == gid && e.granule == gi
  match s.cru.log.find? mine with
  | none => s
  | some e =>
    let e1 : LogEntry := { e with awaiting := e.awaiting - 1, lost := e.lost || !ok }
    if e1.awaiting = 0 ∧ !e1.lost then
      (e.writes.foldl (fun (st : State) w => (st.vaWrite x w.1 w.2).vaTouch x w.1 w.2.length) ({ s with cru := { s.cru with log := s.cru.log.filter (fun e => !mine e) } } : State)).cruPumpAll
    else { s with cru := { s.cru with log := upd s.cru.log mine (fun _ => e1) } }

/-- A far frame's write is acknowledged; with its last, and those before it, its tail is published (R366). -/
def State.ringAcked (s : State) (j tail : Nat) : State :=
  let s1 := s.modCampion j (fun k => { k with sent := k.sent.map (fun e => if e.1 = tail then (e.1, e.2 - 1) else e) })
  match s1.campion? j with
  | some k => match k.sent with
    | (t, 0) :: rest =>
      let more := (rest.takeWhile (fun e => e.2 == 0)).getLast?.map (·.1)
      let s2 := s1.modCampion j (fun k => { k with sent := rest.dropWhile (fun e => e.2 == 0) })
      ((s2.rawFar (.tail j) 0 k.egroup k.tailAddr (toLe 8 (more.getD t))).map (·.1)).getD s2
    | _ => s1
  | none => s1

def execCruGroupCreate := opcodeStep 0x0701 false false (unlessSkipped bodyCruGroupCreate)
def execCruApply (q : QueueId) (pkt : Packet) (faults : List Nat) := opcodeStep 0x0702 false false (bodyCruApply faults) q pkt
def execCruSetScale := opcodeStep 0x0703 false false (unlessSkipped bodyCruSetScale)
def execCruDeferredFlush := opcodeStep 0x0704 false false bodyCruDeferredFlush
def execExportShard := opcodeStep 0x0B01 false false (unlessSkipped bodyExportShard)
def execCampionOpen := opcodeStep 0x0B02 false false (unlessSkipped bodyCampionOpen)
def execCampionClose := opcodeStep 0x0B03 false false (unlessSkipped bodyCampionClose)

end Sys2Proof.Machine
end

