-- ==== Sys2Proof/Machine/Links.lean ====
section
/-! DEFINITION. The Gedralink link layer: flits, replay, credits, training, retrains, width changes, races, link drops, acknowledgements (R397 to R426). -/

namespace Sys2Proof.Machine
open Sys2Proof

/-! ### Flits (R401, R405 to R409) -/

def flitKind (f : List Byte) : Nat := fld f 0 1

/-- Whether a flit passes: its codewords decode, its CRC holds, its KIND is none of the reserved, a DATA flit's FLEN is in range (R401, R406). -/
def flitOk (fecFail : Bool) (f : List Byte) : Bool :=
  !fecFail && f.length == 256 && crc32 (f.take 252) == fld f 252 4 && decide (flitKind f ≤ 5) && (flitKind f != 1 || decide (1 ≤ fld f 2 1 ∧ fld f 2 1 ≤ 240))

/-- Whether SEQ a does not lie after SEQ b, modulo 2^24. -/
def seqLe (a b : Nat) : Bool := decide ((b + 2 ^ 24 - a) % 2 ^ 24 < 2 ^ 23)

/-- The bits of a flit arrive on a wavelength; the symbols corrected in its codewords are counted, in units of 1,024 (R401). -/
def State.rxFlit (s : State) (k w : Nat) (fec : Option (Fin 31)) : State :=
  let n := mgetD (s.port k).symbols w 0 + ((fec.map (·.val)).getD 0)
  let s1 := s.modPort k (fun p => { p with rxBits := mset p.rxBits w (mgetD p.rxBits w 0 + 2048), symbols := mset p.symbols w (n % 1024) })
  if 1024 ≤ n then s1.count .glWl k w 0 32 else s1

/-- A failure is counted against its wavelength, in CRC_FAIL and in the wavelength bucket (R409, R32). The bits received count from 0 again after a warm reset while the stamps stay (R28): an older stamp then lies within W (DESIGN CHOICE, log entry 84). -/
def State.wlFail (s : State) (k w : Nat) : State :=
  let s1 := s.count .glWl k w 32 16
  s1.bucket 10 (.unit (BitVec.ofNat 32 (wlUnit k w)) 0 0) (s1.bucketTime 10 (mgetD (s1.port k).rxBits w 0))

/-- A NAK goes out unless one is out. -/
def Port.sendNak (p : Port) : Port := if p.nakOut then p else { p with nakOut := true, naks := p.naks + 1 }

/-- A flit failed: counted, one NAK; the eighth failure within 1 µs starts a retrain (R401, R406, R409, R418). -/
def State.flitFail (s : State) (k w : Nat) : State :=
  let s1 := s.wlFail k w
  let recent := ((s1.port k).fails.filter (fun t => decide (s1.now ≤ t + 25))) ++ [s1.now]
  let s2 := s1.modPort k (fun p => { p with fails := recent })
  let s3 := if (s2.port k).state = .up then s2.modPort k Port.sendNak else s2
  if 8 ≤ recent.length then s3.startRetrain k else s3

/-- What every good flit delivers: the ACK frees replay entries, the credit return is taken (R407, R408, R411). -/
def Port.common (p : Port) (f : List Byte) : Port :=
  let ack := fld f 7 3
  let c := fld f 10 2
  let p1 := { p with replay := p.replay.filter (fun e => !seqLe e.1 ack) }
  let p2 := if bit c 3 then { p1 with shared := p1.shared + c / 16 } else { p1 with credit := mset p1.credit (c % 8) (mgetD p1.credit (c % 8) 0 + c / 16) }
  p2.pump.settle

/-- Whether a partition holds what a port serves: a fabric direction, or a memory port (R494). -/
def State.partHolds (s : State) (part k : Nat) : Bool :=
  let p := s.port k
  match s.part? part with
  | some t => if p.memory then t.carve.mports.testBit (p.role - 24) else match p.direction with
    | some d => t.carve.fdirs.testBit d
    | none => false
  | none => false

/-- Whether a received packet is one the port drops: a reserved PTYPE, a PLEN too long or not the bytes that came, Matchplate traffic apart from PAIR off a pair link or other traffic on it, a PART outside the allocation (R386, R412, R494). -/
def State.packetBad (s : State) (k : Nat) (bs : List Byte) : Bool :=
  let ptype := fld bs 0 1
  bs.length < 8 || ptype == 0 || decide (7 < ptype) || decide (4160 < fld bs 2 2) || bs.length != 8 + fld bs 2 2 ||
  (ptype == 5) != (s.port k).pairLink && (ptype != 5 || fld bs 8 1 != 0) || (ptype != 1 && ptype != 5 && !s.partHolds (bits (fld bs 7 1) 4 0) k)

/-- A packet that is dropped with an event that reports the port (R412). -/
def State.dropReport (s : State) (k : Nat) : State := s.event .packetDropped 0xFF (portUnit k)

/-- A DATA flit in order joins its packet; a whole packet waits for its own row, or is dropped (R409, R411, R412). -/
def State.acceptData (s : State) (k : Nat) (f : List Byte) : State :=
  let vc := bits (fld f 1 1) 2 0
  let sop := bit (fld f 1 1) 3
  let eop := bit (fld f 1 1) 4
  let s1 := s.modPort k (fun p => { (p.useCredit vc) with rxSeq := (p.rxSeq + 1) % 2 ^ 24, nakOut := false })
  let old := (mgetD (s1.port k).partial_ vc [])
  let bs := (if sop then [] else old) ++ (f.drop 12).take (fld f 2 1)
  let lost := if sop then cdiv old.length 240 else 0
  let s2 := s1.modPort k (fun p => { (p.freeCredits vc lost) with partial_ := mset p.partial_ vc bs })
  if !eop then s2 else
  let s3 := s2.modPort k (fun p => { p with partial_ := mdel p.partial_ vc })
  if s3.packetBad k bs then (s3.modPort k (fun p => p.freeCredits vc (cdiv bs.length 240))).dropReport k
  else s3.modPort k (fun p => { p with received := p.received ++ [(vc, bs)] })

/-- DATA_FLIT (R401, R405, R408, R409, R411, R412). -/
def execDataFlit (k : Fin 36) (wl : Fin 9) (fec : Option (Fin 31)) (flit : List Byte) (s : State) : Host.Outcome State Fault Refusal :=
  s.run (fun s =>
    let s1 := s.rxFlit k wl fec
    if !flitOk fec.isNone flit then s1.flitFail k wl
    else if flitKind flit ≠ 1 then s1 else
    let s2 := s1.modPort k (fun p => p.common flit)
    let p := s2.port k
    let seq := fld flit 4 3
    if p.state ≠ .up then s2
    else if seq = p.rxSeq then s2.acceptData k flit
    else if seqLe seq p.rxSeq ∨ p.nakOut then s2
    else (s2.wlFail k wl).modPort k Port.sendNak)

/-- IDLE_FLIT (R407, R408, R411). -/
def execIdleFlit (k : Fin 36) (wl : Fin 9) (fec : Option (Fin 31)) (flit : List Byte) (s : State) : Host.Outcome State Fault Refusal :=
  s.run (fun s =>
    let s1 := s.rxFlit k wl fec
    if !flitOk fec.isNone flit then s1.flitFail k wl
    else if flitKind flit ≠ 0 then s1
    else s1.modPort k (fun p => p.common flit))

/-- NAK: every flit from the named SEQ on is resent in order; the flits stay in the replay buffer until an ACK covers them (R409, R377). -/
def execNak (k : Fin 36) (wl : Fin 9) (fec : Option (Fin 31)) (flit : List Byte) (s : State) : Host.Outcome State Fault Refusal :=
  s.run (fun s =>
    let s1 := s.rxFlit k wl fec
    if !flitOk fec.isNone flit then s1.flitFail k wl
    else if flitKind flit ≠ 2 then s1 else
    let s2 := s1.modPort k (fun p => p.common flit)
    if (s2.port k).state = .up then (s2.count .glPortCnt k 0 0 32).replayed k (fld flit 12 3) else s2)

/-- NAK_RESEND_TIMER: the expected SEQ has not arrived within 2 µs (R409). -/
def execNakResendTimer (k : Fin 36) (s : State) : Host.Outcome State Fault Refusal :=
  s.run (fun s => if (s.port k).nakOut ∧ (s.port k).state = .up then s.modPort k (fun p => { p with naks := p.naks + 1 }) else s)

/-! ### Training, retrains, width changes, races (R415 to R420) -/

/-- This device's coordinates, 0xFFFF each while VALID is 0 (R415). -/
def State.coord (s : State) : List Nat :=
  if s.field .glCoord 0 0 48 1 = 1 then [s.field .glCoord 0 0 0 16, s.field .glCoord 0 0 16 16, s.field .glCoord 0 0 32 16] else [0xFFFF, 0xFFFF, 0xFFFF]

/-- Lexicographic order of coordinates. -/
def coordLt : List Nat → List Nat → Bool
  | a :: l, b :: m => if a = b then coordLt l m else decide (a < b)
  | _, _ => false

/-- Whether this end leads a training or a race: the lower COORD, then the lower UNIQUE; on a memory port the TK9 (R420). -/
def Port.leads (p : Port) (mine : List Nat) : Bool :=
  p.memory || coordLt mine p.partnerCoord || (mine == p.partnerCoord && decide (Config.unique.toNat < p.partnerUnique.toNat))

/-- Keep the partner's proposal (R415). -/
def Port.heardFrom (p : Port) (f : List Byte) : Port :=
  { p with partner := fld f 15 1 % 64, partnerCoord := [fld f 16 2, fld f 18 2, fld f 20 2], peerWidth := fld f 23 1, peerMask := fld f 24 2 % 512,
           partnerUnique := BitVec.ofNat 64 (fld f 26 8), partnerSession := BitVec.ofNat 64 (fld f 35 8) }

/-- The agreed width and its wavelengths: the lowest-numbered of those usable at both ends (R417). -/
def agreed (own : Nat) (p : Port) (mask : Nat) : Nat × Nat :=
  let both := (setBits 9 mask).filter (fun w => p.peerMask.testBit w)
  let w := min (min own p.peerWidth) both.length
  (w, (both.take w).foldl (fun m i => m + 2 ^ i) 0)

/-- The width that this end proposes when no attempt of its own is under way. -/
def State.ownWidth (s : State) (k : Nat) : Nat := min 8 (popcount 9 (s.wlUsable k))

/-- Switch a port to a width (R419); a proposal that leaves no wavelength changes nothing. -/
def State.setWidth (s : State) (k own : Nat) : State :=
  let p := s.port k
  let a := agreed own p (s.wlUsable k)
  if a.1 = 0 then s else
  s.putPort { p with width := a.1, wlMask := a.2, proposal := none, narrow := decide (a.1 < p.trained) }.pump

/-- A race, counted, with its leader (R420). -/
def State.race (s : State) (k : Nat) : State :=
  (s.modPort k (fun p => { p with lead := p.leads p.coord })).count .glPortCnt k 0 56 8

/-- Take the partner's RETRAIN: a port that is up follows it, in a race where its own WIDTH still awaits the answer; the width is then the smaller of the two proposals (R418, R420). One that retrains takes it as the answer (DESIGN CHOICE, log entry 58). -/
def State.takeRetrain (s : State) (k : Nat) (f : List Byte) : State :=
  let s1 := s.modPort k (fun p => p.heardFrom f)
  let p := s1.port k
  match p.state, p.proposal with
  | .up, some q =>
    let s2 := s1.race k
    (s2.startRetrain k).modPort k (fun p => { p with proposal := some { retrain := true, width := min q.width (s2.ownWidth k) } })
  | .up, none => s1.startRetrain k
  | _, _ => s1

/-- Take the partner's WIDTH proposal: followed, or a race with this end's own attempt (R419, R420). -/
def State.takeWidth (s : State) (k : Nat) (f : List Byte) : State :=
  let s1 := s.modPort k (fun p => p.heardFrom f)
  let p := s1.port k
  match p.state, p.proposal with
  | .up, none => s1.setWidth k (s1.ownWidth k)
  | .up, some q => (s1.race k).setWidth k q.width
  | .retraining, some _ => s1.race k
  | _, _ => s1

/-- A proposal of the partner that meets this end's own; it makes no race where the answer came in the same tick, and is taken after it (R80, R420). -/
def State.rivalTaken (s : State) (k : Nat) (retrain : Bool) (f : List Byte) : State := if retrain then s.takeRetrain k f else s.takeWidth k f

/-- Whether a port that is up waits for its partner's answer to a WIDTH. -/
def Port.asks (p : Port) : Bool := p.state == .up && p.proposal.isSome

/-- RETRAIN: a local trigger, or the partner's flit (R418); one that meets a WIDTH of this end is taken at the end of its tick (R420). -/
def execRetrain (k : Fin 36) (flit : Option (List Byte)) (s : State) : Host.Outcome State Fault Refusal :=
  s.run (fun s => match flit with
    | none => s.startRetrain k
    | some f =>
      if !flitOk false f ∨ flitKind f ≠ 3 then s else
      let s1 := s.modPort k (fun p => p.common f)
      if (s1.port k).asks then s1.expire (.rival k true f) else s1.takeRetrain k f)

/-- WIDTH: the power loop's proposal, the partner's answer, or the partner's proposal; a proposal that meets one of this end is taken at the end of its tick (R419, R420). -/
def execWidth (k : Fin 36) (flit : Option (List Byte)) (answer : Bool) (width : Fin 9) (s : State) : Host.Outcome State Fault Refusal :=
  s.run (fun s => match flit with
    | none => if (s.port k).state = .up ∧ (s.port k).proposal.isNone ∧ 0 < width.val then s.modPort k (fun p => p.propose width.val) else s
    | some f =>
      if !flitOk false f ∨ flitKind f ≠ 4 then s else
      let s1 := s.modPort k (fun p => p.common f)
      if answer then (match (s1.port k).state, (s1.port k).proposal with
        | .up, some q => (s1.modPort k (fun p => p.heardFrom f)).setWidth k q.width
        | _, _ => s1)
      else if (s1.port k).asks then s1.expire (.rival k false f) else s1.takeWidth k f)

/-- A port begins a training from DOWN: a new attempt, a new SESSION, fresh port keys (R415, R501). -/
def State.beginTraining (s : State) (k : Nat) : State :=
  (({ s with free := s.free + 1 } : State)).modPort k (fun p => { p with
    state := .training, attempt := (p.attempt + 1) % 256, session := BitVec.ofNat 64 (Config.drbg s.free), nonce := [], heard := false })

/-- The laser position that feeds a port (R402). -/
def portLaser (k : Nat) : Nat := if k < 24 then 3 * (k / 6) + k % 6 / 3 else if k < 32 then 3 * ((k - 24) / 2) + 2 else 3 * (k - 32) + 2

/-- Whether the input that feeds a port is in service. -/
def State.lit (s : State) (k : Nat) : Bool := (s.unit (s.backer (0x0A000000 + portLaser k))).state == .active

/-- Whether a port may train: GL_REFCLK toggles, the port is in service, serves a role and has light (R402, R519). -/
def State.mayTrain (s : State) (k : Nat) : Bool := s.pins.glPresent && (s.unit (portUnit k)).state == .active && decide ((s.port k).role < 32) && s.lit k

/-- TRAIN: the received power is shown; the partner's proposal in PARAM; a fabric or pair-link partner of another PART_ID or STEPPING is refused with an event (R415, R416, R417). -/
def execTrain (k : Fin 36) (wl : Fin 9) (fec : TrainRead) (flit : List Byte) (s : State) : Host.Outcome State Fault Refusal :=
  s.run (fun s =>
    let s1 := s.rxFlit k wl fec.fec
    if !flitOk fec.fec.isNone flit then s1.flitFail k wl
    else if flitKind flit ≠ 5 then s1 else
    let s0 := s1.setField .glWl k wl 56 8 fec.rx.toNat
    let s2 := if (s0.port k).state = .down ∧ s0.mayTrain k then s0.beginTraining k else s0
    let p := s2.port k
    if p.state ≠ .training ∧ p.state ≠ .retraining then s2
    else if !p.memory ∧ (fld flit 12 2 ≠ 0x0709 ∨ fld flit 14 1 ≠ 0xA1) then s2.event .portRefused 0xFF (portUnit k)
    else
      let s3 := s2.modPort k (fun p => { (p.common flit).heardFrom flit with heard := true })
      if p.state = .training then s3.modPort k (fun p => { p with rxSeq := fld flit 4 3 }) else s3)

/-- CODEWORD_LOCK_LOSS: a wavelength has been without codeword lock for 1 µs (R418). -/
def execCodewordLockLoss (k : Fin 36) (_wl : Fin 9) (s : State) : Host.Outcome State Fault Refusal := s.run (fun s => s.startRetrain k)

/-- The reservations that GL_VC_CFG names, in credits. -/
def State.vcConfig (s : State) (k : Nat) : Map Nat Nat := (List.range 8).map (fun v => (v, s.field .glVcCfg k 0 (8 * v) 8 * 16))

def mapSum (m : Map Nat Nat) : Nat := m.foldl (fun n p => n + p.2) 0

/-- Reservations take effect (R411): from DOWN the sender holds the whole pool; at a retrain the credits in use stay in use. -/
def Port.reserve (p : Port) (rsv : Map Nat Nat) (fresh : Bool) : Port :=
  let used (v : Nat) : Nat := if fresh then 0 else mgetD p.rsv v 0 - mgetD p.credit v 0
  let usedShared := if fresh then 0 else 8192 - mapSum p.rsv - p.shared
  let excess := (List.range 8).foldl (fun n v => n + (used v - mgetD rsv v 0)) 0
  { p with rsv := rsv, credit := rsv.map (fun e => (e.1, e.2 - used e.1)), shared := 8192 - mapSum rsv - usedShared - excess,
           rxUse := if fresh then [] else p.rxUse, rxShared := if fresh then 0 else p.rxShared }

/-- A port as its training or retrain ends, UP with the agreed width and wavelengths (R411, R417, R420). -/
def State.upPort (s : State) (k : Nat) (p : Port) (a : Nat × Nat) : Port :=
  let both := min 8 (popcount 9 (s.wlUsable k &&& p.peerMask))
  { (p.reserve (s.vcConfig k) (p.state == .training)) with
    state := .up, lead := p.leads s.coord, coord := s.coord, width := a.1, wlMask := a.2, trained := both, narrow := decide (a.1 < both), proposal := none,
    windowAt := none, dropped := false, heard := false, fails := [], nakOut := false }

/-- The ports that a port replaces are released: it is up in their role (R398). -/
def State.relieved (s : State) (k : Nat) : State :=
  (s.riser.units.filter (fun u => u.replacement == some (portUnit k) && !u.drained)).foldl (fun (st : State) u => st.drain u.id) s

/-- PORT_TRAINED: training or retrain ends; the width is agreed, replay resumes from the partner's last ACK (R416 to R418). A memory port that trained from DOWN sends CAPS (R242); a spare that came up in a role releases the port it replaces (R398). -/
def execPortTrained (k : Fin 36) (s : State) : Host.Outcome State Fault Refusal :=
  s.run (fun s =>
    let p := s.port k
    if !s.pins.glPresent ∨ !p.heard ∨ (p.state ≠ .training ∧ p.state ≠ .retraining) then s else
    let own := (p.proposal.map (·.width)).getD (s.ownWidth k)
    let a := agreed own p (s.wlUsable k)
    if a.1 = 0 then s.putPort { p with state := .down, proposal := none, heard := false } else
    let fresh := p.state == .training
    let q := s.upPort k p a
    let s1 := s.putPort q
    let s2 := match q.replay with
      | e :: _ => s1.replayed k e.1
      | [] => s1
    let s3 := s2.modPort k Port.pump
    let s4 := (s3.relieved k).bootProgress
    if fresh ∧ p.memory then
      let m := p.role - 24
      let (tag, s5) := s4.farTag m
      let f : Far := { op := 6, orig := m, tag := tag, port := m, use := .caps, uid := 0, issuedAt := s5.now, num := s5.fabric.nextNum }
      (({ s5 with fabric := { s5.fabric with nextNum := s5.fabric.nextNum + 1 }, memory := { s5.memory with far := s5.memory.far ++ [f] } } : State).modPort k (fun p => { p with capsWait := true })).farOut f
    else s4)

/-! ### Drops and acknowledgements (R393, R421 to R424) -/

/-- A pair link that stays down breaks the pair (R393): comparisons that are outstanding end with ERR_LINK_LOST, the partition's queues enter ERROR, the partition runs unpaired. -/
def State.pairBreak (s0 : State) : State :=
  let s := s0.holdSync
  let uids := s.pair.compares.map (·.uid)
  let port := s.pair.port
  let lost (r : Reply) : Reply := { errLinkLost port 0 with progress := r.progress }
  let s1 := uids.foldl (fun st u => match st.cmd? u with
    | some c => (st.killWork u).modCmd u (fun k => { k with reply := some (lost (c.reply.getD {})), work := .none, matchIndex := 0 })
    | none => st) s
  let s2 : State := { s1 with queues := s1.queues.map (fun (e : Queue) => if 64 ≤ e.id.key ∧ s1.queuePart e.id = s1.pair.part ∧ e.state = .running then { e with state := .error } else e) }
  { ((s2.flag .detMatchStat 0 0 48).modPort port (fun p => { p with pairLink := false })) with pair := {} }

/-- A port drops (R421). -/
def State.portDown (s : State) (k : Nat) : State :=
  let s := if (s.port k).capsWait then s.trainedOff ((s.port k).role - 24) else s
  (s.modPort k (fun p => { p with state := .down, dropped := true, windowAt := none, proposal := none, heard := false, capsWait := false })).count .glPortCnt k 0 32 12

/-- A port whose replay window has expired drops if it is not up (R421). -/
def State.linkDropped (s : State) (k : Nat) : State :=
    let p := s.port k
    if p.windowAt.isNone ∨ p.state = .up ∨ p.state = .offline then s else
    let s2 := (s.portDown k).reissuePort k
    let s3 := if p.pairLink ∧ s2.pair.active ∧ s2.pair.port = k then s2.pairBreak else s2
    s3.bucket 11 (.unit (BitVec.ofNat 32 (portUnit k)) 0 0) s3.now

/-- LINK_DROP, evaluated at the end of its tick (R80, R421). -/
def execLinkDrop (k : Fin 36) (s : State) : Host.Outcome State Fault Refusal := s.run (fun s => s.expire (.linkDrop k))

/-- An XO packet of a port that is not up has outlived REQ_LIFE (R422, R485). -/
def State.reqLifeExpired (s : State) (k tag : Nat) : State :=
    match (s.fabric.ports.filter (fun p => p.state != .up)).findSome? (fun p => (p.outstanding.find? (fun o => o.xo && o.orig == k && o.tag == tag)).map (fun o => (p.id, o))) with
    | some (j, o) => ((s.modPort j (fun p => p.dropPacket o.num)).losePacket o).sendWaiting k
    | none => s

/-- REQ_LIFE_EXPIRY, evaluated at the end of its tick, after an acknowledgement that arrives in it (R80, R422). -/
def execReqLifeExpiry (k : Fin 36) (tag : Fin 4096) (s : State) : Host.Outcome State Fault Refusal := s.run (fun s => s.expire (.reqLife k tag))

/-- This device's port whose partner is a given port of the device behind port k. -/
def State.partnerPort (s : State) (k orig : Nat) : Nat :=
  ((s.fabric.ports.find? (fun p => p.partner == orig && p.partnerUnique == (s.port k).partnerUnique && p.state != .offline)).map (·.id)).getD k

/-- Send the ACK of an XO packet and keep it in the completion cache of the port that was the partner of its ORIG (R414, R424). -/
def State.sendAck (s : State) (k : Nat) (pkt : FabPacket) (status : Nat) (cache : Bool) : State :=
  let q := s.partnerPort k pkt.orig
  let o : OutPkt := { num := s.fabric.nextNum, ptype := 7, tag := pkt.tag, orig := q, part := pkt.part, xo := false, uid := 0, payload := toLe 2 status ++ toLe 6 0, firstAt := s.now }
  let s1 : State := { s with fabric := { s.fabric with nextNum := s.fabric.nextNum + 1 } }
  let s2 := if cache then s1.modPort q (fun p => { p with cache := (p.cache.filter (fun e => e.tag != pkt.tag.val) ++ [({ tag := pkt.tag, status := status } : CacheEntry)]) }) else s1
  s2.transmit k o

/-- What becomes of a packet's row before its payload is looked at: taken from the pool, dropped with an event, answered from the completion cache, or to be applied (R412, R424, R502). -/
def State.admitPacket (s : State) (k ptype : Nat) (pkt : FabPacket) : State × Bool :=
  let s1 := s.takePacket k (headerIs ptype pkt)
  if 4160 < pkt.payload.length ∨ (ptype ≠ 5 ∧ !s1.partHolds pkt.part k) then (s1.dropReport k, false)
  else if pkt.enc ≠ (s1.linkKey pkt.part != 0) ∨ (pkt.enc ∧ !pkt.tagOk) then ((s1.count .prtSecStat 0 0 0 16).event .authFail 0xFF (portUnit k), false)
  else if pkt.reissue ∧ pkt.xo then
    let q := s1.partnerPort k pkt.orig
    match (s1.port q).cache.find? (fun e => e.tag == pkt.tag.val) with
    | some e => ((s1.count .glPortXo q 0 16 16).sendAck k pkt e.status false, false)
    | none => (s1, true)
  else (s1, true)

/-- ACK_PACKET: the XO packet of its TAG has been applied or logged; a late ACK is discarded (R414, R423, R81). -/
def execAckPacket (k : Fin 36) (pkt : FabPacket) (s : State) : Host.Outcome State Fault Refusal :=
  s.run (fun s =>
    let (s1, go) := s.admitPacket k 7 pkt
    if !go then s1 else
    let q := s1.partnerPort k pkt.orig
    match s1.fabric.ports.findSome? (fun p => (p.outstanding.find? (fun o => o.xo && o.orig == q && o.tag == pkt.tag.val)).map (fun o => (p.id, o))) with
    | some (j, o) => (s1.modPort j (fun p => p.dropPacket o.num)).sendWaiting q
    | none => ((s1.count .cmdLateDiscardCnt 0 0 0 32).modPort q (fun p => { p with lostTags := p.lostTags.filter (· != pkt.tag.val) })).sendWaiting q)

/-- An entry of the completion cache leaves 1 ms after its ACK was first sent (R424). -/
def State.cacheExpired (s : State) (k tag : Nat) : State := s.modPort k (fun p => { p with cache := p.cache.filter (fun e => e.tag != tag) })

/-- COMPLETION_CACHE_EXPIRY, evaluated at the end of its tick (R80, R424). -/
def execCompletionCacheExpiry (k : Fin 36) (tag : Fin 4096) (s : State) : Host.Outcome State Fault Refusal := s.run (fun s => s.expire (.cached k tag))

end Sys2Proof.Machine
end

