-- ==== Sys2Proof/Machine/Collect.lean ====
section
/-! DEFINITION. Ring collectives, their packets, and the digest exchange of replicas (R427 to R446, R360). -/

namespace Sys2Proof.Machine
open Sys2Proof

/-! ### The shape of a collective (R431, R433 to R437) -/

def Coll.prescale (k : Coll) : Bool := bit k.cflags 0
def Coll.toCru (k : Coll) : Bool := bit k.cflags 1
def Coll.compress (k : Coll) : Bool := bit k.cflags 2
def Coll.ahead (k : Coll) : Bool := bit k.cflags 3
/-- Bytes of one of the E elements: a whole block under COMPRESS (R442). -/
def Coll.es (k : Coll) : Nat := if k.compress then k.block else es2 k.fmt / 2
/-- Bytes of a chunk; a broadcast has one. -/
def Coll.chunkBytes (k : Coll) : Nat := if k.cop = 4 then k.elems * k.es else k.elems / k.n * k.es
/-- The direction that data moves along: 2 × axis for a+, one more for a-. -/
def Coll.dir (k : Coll) : Nat := 2 * (k.axis - 1) + (if k.cop = 4 ∧ bit k.cflags 4 then 1 else 0)
/-- Devices reached after the root, and this device's distance from it (R431). -/
def Coll.reach (k : Coll) : Nat := if k.hops = 0 then k.n - 1 else k.hops
def Coll.dist (k : Coll) : Nat := if bit k.cflags 4 then (k.root + k.n - k.pos) % k.n else (k.pos + k.n - k.root) % k.n
def Coll.sends (k : Coll) : Bool := decide (1 < k.n) && (k.cop != 4 || decide (k.dist < k.reach))
def Coll.receives (k : Coll) : Bool := decide (1 < k.n) && (k.cop != 4 || decide (1 ≤ k.dist ∧ k.dist ≤ k.reach))
/-- The bytes that come to this device. -/
def Coll.comes (k : Coll) : Nat := if !k.receives then 0 else if k.cop = 4 then k.chunkBytes else (if k.cop = 3 then 2 else 1) * (k.n - 1) * k.chunkBytes
/-- The links of an axis, in the order of R438. -/
def Coll.links (k : Coll) : Nat × Nat := if k.cop = 4 ∧ bit k.cflags 4 then (2, 3) else (0, 1)
/-- Where byte off of a chunk lies at SRC and at DST. -/
def Coll.srcAt (k : Coll) (chunk off : Nat) : Nat := k.src + (if k.cop = 2 ∨ k.cop = 4 then 0 else chunk * k.chunkBytes) + off
def Coll.dstAt (k : Coll) (chunk off : Nat) : Nat := k.dst + (if k.cop = 1 ∨ k.cop = 4 then 0 else chunk * k.chunkBytes) + off

/-- The ranges in which a chunk's data is worked on: 4 KiB, or a block. -/
def Coll.units (k : Coll) : List (Nat × Nat) :=
  let u := if k.compress then k.block else 4096
  (List.range (cdiv k.chunkBytes u)).map (fun i => (i * u, min u (k.chunkBytes - i * u)))

/-! ### Arithmetic (R348, R433, R442) -/

/-- Apply a function to the elements of byte strings. -/
def mapElems (es : Nat) (f : Nat → Nat → Nat) (a b : List Byte) : List Byte :=
  (List.zipWith (fun x y => toLe es (f (leNat x) (leNat y))) (chunks es (a.length + 1) a) (chunks es (b.length + 1) b)).flatten

/-- Pre-scaling by 1 ÷ n: the exact product with rne_f32(1 ÷ n), rounded once to the format. -/
def preElem (fmt n x : Nat) : Nat :=
  match fmtOf fmt with
  | some f => (f.enc false ((f.dec x).mul (num (fdiv fone (fOfInt (n : Int)))))).bits
  | none => x

/-- A block with its CRC over its new payload (R284, R442). -/
def blockSeal (b : List Byte) : List Byte := b.take 62 ++ toLe 2 (crc16 (b.take 62 ++ b.drop 64)) ++ b.drop 64

/-- Apply a function to the elements of two runs: to the U payloads of blocks, under the first one's header. -/
def Coll.apply (k : Coll) (f : Nat → Nat → Nat → Nat) (a b : List Byte) : List Byte :=
  if k.compress then blockSeal (a.take 64 ++ mapElems 2 (f 4) (a.drop 64) (b.drop 64)) else mapElems k.es (f k.fmt) a b

/-- This device's own input of a range, pre-scaled where the command asks it, with its poison. -/
def State.collOwn (s : State) (k : Coll) (chunk off n : Nat) : List (Byte × Bool) :=
  let raw := s.readPlace (.dev k.ctx (k.srcAt chunk off)) n
  if k.prescale then (k.apply (fun f x _ => preElem f k.n x) (raw.map (·.1)) (raw.map (·.1))).zip (raw.map (·.2)) else raw

/-! ### Sending and writing -/

def State.coll? (s : State) (uid : Nat) : Option Coll := s.fabric.colls.find? (·.uid == uid)
def State.modColl (s : State) (uid : Nat) (f : Coll → Coll) : State := { s with fabric := { s.fabric with colls := upd s.fabric.colls (·.uid == uid) f } }

/-- The header of a COLL packet (R436). -/
def Coll.header (k : Coll) (chunk off n : Nat) : List Byte :=
  toLe 1 k.cop ++ toLe 1 k.axis ++ toLe 1 k.fmt ++ toLe 1 k.cflags ++ toLe 4 ((k.send.map (·.2)).getD 0) ++ toLe 2 k.n ++ toLe 2 chunk ++ toLe 4 n ++ toLe 8 off ++ toLe 8 k.elems

/-- Send a range of a chunk, in packets of up to 4,096 bytes dealt to the ports of the direction in turn (R437); a final hop into a Crucible group is XO (R435). No port left ends the collective (R441). -/
def State.collSend (s : State) (uid chunk off : Nat) (bs : List Byte) : State :=
  (chunks 4096 (bs.length / 4096 + 1) bs).zipIdx.foldl (fun st p => match st.coll? uid with
    | none => st
    | some k =>
      let ports := st.outPorts k.dir
      let turn := mgetD k.turns chunk 0
      match ports[turn % max 1 ports.length]? with
      | none => let d := st.rolePort k.dir
        (st.count .glPortXo d 0 32 16).failCmd uid (errLinkLost d 0)
      | some j => (st.modColl uid (fun k => { k with turns := mset k.turns chunk (turn + 1) })).sendPacket j 2 k.part uid
          (k.header chunk (off + 4096 * p.2) p.1.length ++ p.1) (k.toCru && decide ((k.pos + 1) % k.n = chunk)) k.chill) s

/-- Write a range of the result, or deliver it to its Crucibles; under RUNAHEAD the DST granules are provisional from the first write (R210, R435, R444). -/
def State.collPut (s : State) (uid chunk off : Nat) (bs : List (Byte × Bool)) : State :=
  match s.coll? uid with
  | none => s
  | some k =>
    if k.toCru then s.modCruJob uid (fun q => { q with data := q.data ++ [(off, bs.map (·.1))] }) else
    let a := k.dstAt chunk off
    if !s.mapped k.ctx a bs.length then s.failCmd uid (errPage 0 ((s.unmapped k.ctx a bs.length).getD a)) else
    let s1 := (s.writePlace uid (.dev k.ctx a) bs).vaTouch k.ctx a bs.length
    if k.ahead then { s1 with memory := { s1.memory with provisional := upd s1.memory.provisional (fun v => v.uid == uid) (fun v => { v with places := [(.dev k.ctx k.dst, (if k.cop = 4 then 1 else k.n) * k.chunkBytes)] }) } } else s1

/-- A range that met poison ends the command once its other effects are applied (R473, R474). -/
def State.collTaint (s : State) (uid : Nat) (bs : List (Byte × Bool)) : State := if bs.any (·.2) then s.taint uid 3 0 else s

/-- A range goes on to the next device; a poisoned one is not sent (R474). -/
def State.collForward (s : State) (uid chunk off : Nat) (bs : List (Byte × Bool)) : State :=
  if bs.any (·.2) then s else s.collSend uid chunk off (bs.map (·.1))

/-- Read own input, where it is mapped. -/
def State.collWith (s : State) (k : Coll) (chunk off n : Nat) (f : List (Byte × Bool) → State → State) : State :=
  let a := k.srcAt chunk off
  if !s.mapped k.ctx a n then s.failCmd k.uid (errPage 0 ((s.unmapped k.ctx a n).getD a))
  else
    let own := s.collOwn k chunk off n
    f own ((s.vaTouch k.ctx a n).collTaint k.uid own)

/-- The sums of a chunk that rest on this device (R433), and on to the gather of ALL_REDUCE (R434). -/
def State.collRest (s : State) (k : Coll) (chunk off : Nat) (bs : List (Byte × Bool)) : State :=
  let s1 := s.collPut k.uid chunk off bs
  if k.cop = 3 ∧ 1 < k.n then s1.collForward k.uid chunk off bs else s1

/-- A range received: added to this device's own input, or written unchanged; then on to the next device (R433, R434). -/
def State.collTake (s : State) (k : Coll) (gather : Bool) (chunk off : Nat) (bs : List Byte) : State :=
  if gather then
    let s1 := s.collPut k.uid chunk off (bs.map (fun b => (b, false)))
    let last := if k.cop = 4 then decide (k.reach ≤ k.dist) else decide (chunk = (k.pos + 1) % k.n)
    if last then s1 else s1.collSend k.uid chunk off bs
  else s.collWith k chunk off bs.length (fun own st =>
    let sum := (k.apply (fun f x y => addElem f false y x) (own.map (·.1)) bs).zip (own.map (·.2))
    if chunk = k.pos then st.collRest k chunk off sum else st.collForward k.uid chunk off sum)

/-- What a device does at the start of a collective: the chunk it sends first, what it writes itself, and all of it on a ring of one (R431, R433). -/
def State.collBegin (s : State) (k : Coll) : State :=
  let each (chunk : Nat) (f : Nat → List (Byte × Bool) → State → State) : State :=
    k.units.foldl (fun st u => if (st.coll? k.uid).isNone then st else st.collWith k chunk u.1 u.2 (f u.1)) s
  if k.cop = 4 then (if k.dist = 0 ∧ k.sends then each 0 (fun off own st => st.collForward k.uid 0 off own) else s)
  else if k.cop = 2 then each k.pos (fun off own st =>
    let st1 := st.collPut k.uid k.pos off own
    if k.sends then st1.collForward k.uid k.pos off own else st1)
  else if k.n = 1 then each 0 (fun off own st => st.collRest k 0 off own)
  else let c := (k.pos + k.n - 1) % k.n
    each c (fun off own st => st.collForward k.uid c off own)

/-! ### Receiving (R438) -/

/-- Bytes received of a collective, as ring steps (R439). -/
def State.collProgress (s : State) (uid : Nat) : State :=
  match s.coll? uid with
  | none => s
  | some k =>
    let step := max 1 (k.chunkBytes * (if k.cop = 3 then 2 else 1))
    if k.cop = 4 then s else s.modCmd uid (fun c => { c with progress := min (k.n - 1) ((k.comes - k.awaited) / step) })

/-- Whether a range of a phase has been received. -/
def Coll.has (k : Coll) (gather : Bool) (chunk off n : Nat) : Bool := k.got.any (fun g => g.1 == gather && g.2.1 == chunk && decide (g.2.2.1 ≤ off ∧ off + n ≤ g.2.2.1 + g.2.2.2))

/-- What a packet's range is to a collective: gathered (true), to be added (false), or nothing new. Under ALL_REDUCE a chunk comes first to be added and then gathered; the chunk a device sent first only comes gathered, the chunk it owns only to be added; a reissued packet with the bytes that were added is the first again (DEDUCED from R434 and R437, log entry 55). -/
def Coll.phase (k : Coll) (reissue : Bool) (chunk off : Nat) (bs : List Byte) : Option Bool :=
  let has (g : Bool) : Bool := k.has g chunk off bs.length
  if k.cop = 2 ∨ k.cop = 4 then (if has true then none else some true)
  else if k.cop = 1 then (if has false ∨ chunk = (k.pos + k.n - 1) % k.n then none else some false)
  else if chunk = k.pos then (if has false then none else some false)
  else if chunk = (k.pos + k.n - 1) % k.n then (if has true then none else some true)
  else if !has false then some false
  else if has true ∨ (reissue ∧ k.sums.any (fun m => m.1 == chunk && m.2.1 == off && m.2.2 == bs)) then none
  else some true

/-- A range of a collective's packet: blocks under COMPRESS are taken whole. -/
def State.collData (s : State) (uid : Nat) (gather : Bool) (chunk off : Nat) (bs : List Byte) : State :=
  match s.coll? uid with
  | none => s
  | some k =>
    let k1 : Coll := { k with awaited := k.awaited - bs.length, got := k.got ++ [(gather, chunk, off, bs.length)],
                              sums := if k.cop = 3 ∧ !gather then k.sums ++ [(chunk, off, bs)] else k.sums }
    let s1 := (s.modColl uid (fun _ => k1)).collProgress uid
    if !k.compress then s1.collTake k1 gather chunk off bs else
    let key := chunk + (if gather then 65536 else 0)
    let b := off / k.block * k.block
    let parts := k1.held ++ [(key, off, bs)]
    match fedBytes ((parts.filter (fun p => p.1 == key)).map (·.2)) b k.block with
    | some whole =>
      let k2 : Coll := { k1 with held := parts.filter (fun p => !(p.1 == key && p.2.1 / k.block == off / k.block)) }
      (s1.modColl uid (fun _ => k2)).collTake k2 gather chunk b whole
    | none => s1.modColl uid (fun _ => { k1 with held := parts })

/-- Whether a port serves a ring's incoming end, and which of R438's links it is: axis and link. -/
def State.ringLink (s : State) (k : Nat) : Nat × Nat := match (s.port k).direction with
  | some d => (d / 2 + 1, if d % 2 = 1 then 1 else 3)
  | none => (0, 0)

/-- An XO packet into a Crucible group is answered once its granules are logged (R414). -/
def State.collLogged (s : State) (uid : Nat) : State := (s.cruPump uid).cruAcks uid (fun st k p => st.sendAck k p 0 true)

/-- Whether a packet of the final hop must wait for room: the 4 MiB reorder buffer of its granules' Crucible is full of gradients that came ahead of their order, and the packet is not the one that the order calls for (R336). -/
def State.reorderFull (s : State) (uid off n : Nat) : Bool :=
  match s.cruJob? uid with
  | none => false
  | some q => match s.cruGroup? q.ctx q.gid with
    | none => false
    | some g =>
      let stack (o : Nat) : Nat := s.cruStack g (o / 2 / g.gpe)
      let waiting := sumOf (fun p => p.2.length) (q.data.filter (fun p => decide (q.next * g.gpe * 2 < p.1) && stack p.1 == stack off))
      decide (q.next * g.gpe * 2 < off ∧ 4194304 < waiting + n)

/-- The collective that a packet on a link of its partition and axis is for (R438). -/
def State.collFor (s : State) (part axis link lseq : Nat) : Option Coll := s.fabric.colls.find? (fun c => c.part == part && c.axis == axis && c.recv == some (link, lseq))

/-- A COLL packet meets this device's collectives; one for a collective not yet started, or for a full reorder buffer, waits in the port's receive pool and holds its credits (R336, R438). -/
def State.collArrive (s : State) (k : Nat) (pkt : FabPacket) : State :=
  let h := pkt.payload
  let (axis, link) := s.ringLink k
  let lseq := fld h 4 4
  let part := pkt.part.val
  let bs := h.drop 32
  let chunk := fld h 10 2
  let off := fld h 16 8
  let full := ((s.collFor part axis link lseq).map (fun c => c.toCru && chunk == c.pos && s.reorderFull c.uid off bs.length)).getD false
  if (mgetD s.fabric.linkSeqs (part, axis, link) 0 < lseq ∨ full) ∧ fld h 1 1 = axis then { s with fabric := { s.fabric with stalled := s.fabric.stalled ++ [(k, pkt)] } } else
  let (s1, go) := s.admitPacket k 2 pkt
  if !go then s1
  else if bs.isEmpty ∨ 4096 < bs.length ∨ fld h 12 4 ≠ bs.length ∨ fld h 1 1 ≠ axis then s1.dropReport k else
  match s1.collFor part axis link lseq with
  | none => s1.count .colCollStat part 0 48 16
  | some c =>
    let differs : Option Nat := if fld h 0 1 ≠ c.cop then some 0 else if fld h 2 1 ≠ c.fmt then some 41 else if fld h 8 2 ≠ c.n then some 40 else if fld h 24 8 ≠ c.elems then some 64 else none
    match differs with
    | some d => (s1.count .colCollStat part 0 32 16).failCmd c.uid { errFormat d with progress := ((s1.cmd? c.uid).map (·.progress)).getD 0 }
    | none =>
      if (if c.cop = 4 then 1 else c.n) ≤ chunk ∨ c.chunkBytes < off + bs.length ∨ off % max 1 (es2 c.fmt / 2) ≠ 0 ∨ (!c.compress ∧ bs.length % max 1 (es2 c.fmt / 2) ≠ 0) ∨
          (c.compress ∧ off / c.block ≠ (off + bs.length - 1) / c.block) then s1.dropReport k
      else
        let s2 := match c.phase pkt.reissue chunk off bs with
          | some g => s1.collData c.uid g chunk off bs
          | none => s1
        if c.toCru ∧ pkt.xo ∧ chunk = c.pos then
          let gpe := ((s2.cruJob? c.uid).bind (fun q => s2.cruGroup? q.ctx q.gid)).map (fun g => g.gpe)
          let end_ := cdiv ((off + bs.length) / 2) (gpe.getD 1)
          (s2.modCruJob c.uid (fun q => if q.acks.any (fun a => a.2.2.tag == pkt.tag && a.2.2.orig == pkt.orig) then q else { q with acks := q.acks ++ [(end_, k, pkt)] })).collLogged c.uid
        else s2

/-- Packets that waited for a collective of this device to start, or for room in a reorder buffer, are looked at again (R336, R438). -/
def State.collUnstall (s : State) : State :=
  if s.fabric.stalled.isEmpty then s else
  s.fabric.stalled.foldl (fun st p => st.collArrive p.1 p.2) { s with fabric := { s.fabric with stalled := [] } }

/-- Collectives whose bytes are all written, or logged, and whose packets are all accepted complete (R439). -/
def State.settleColls (s : State) : State :=
  let s0 := s.collUnstall
  s0.fabric.colls.foldl (fun st k0 =>
    let st1 := if k0.toCru then st.collLogged k0.uid else st
    match st1.coll? k0.uid with
    | none => st1
    | some k =>
      let applied := !k.toCru || ((st1.cruJob? k.uid).map (fun q => q.finished)).getD true
      if k.awaited = 0 ∧ applied ∧ !st1.unsent k.uid ∧ ((st1.cmd? k.uid).map (fun c => c.reply.isNone)).getD false then
        let st2 := (st1.count .colCollStat k.part 0 0 32).reply k.uid (okProgress (k.n - 1))
        { st2 with
          fabric := { st2.fabric with colls := st2.fabric.colls.filter (fun c => c.uid != k.uid) },
          cru := { st2.cru with jobs := st2.cru.jobs.filter (fun q => q.uid != k.uid) },
          memory := { st2.memory with provisional := upd st2.memory.provisional (fun v => v.uid == k.uid) (fun v => { v with done := true }) } }
      else st1) s0

/-- The first barrier of a partition that releases commits the buffers of its completed run-ahead collectives (R444). -/
def State.commitColls (s : State) (part : Nat) : State :=
  { s with memory := { s.memory with provisional := s.memory.provisional.filter (fun v => !(v.done && ((v.coll.map (fun c => c.1 == part)).getD false))) } }

/-! ### The commands (R431, R432, R435, R442, R443) -/

/-- The first block of a compressed collective's own input that fails checks 1 to 5 of R287, or differs from the first in rank or TAG; blocks of another rank or TAG fail check 2 (DEDUCED, log entry 55). -/
def State.collBlocks (s : State) (x src len elems : Nat) (head : List Byte) : Option (Nat × Nat) :=
  (List.range elems).findSome? (fun j =>
    let b := ((s.vaRead x (src + j * len) len).map (·.1)).getD []
    match blockCheck b { dist := fun n => n == len, tile := none, entry := none } with
    | some c => some (c, j)
    | none => if blockShared b ∧ blockRank b = blockRank head ∧ fld b 12 4 = fld head 12 4 then none else some (2, j))

/-- The fields of a collective, judged as R432 states. -/
def State.collFields (s : State) (c : Running) (cop : Nat) : Except Stop Coll := do
  plenIs c 8
  let fl := c.u 42 1
  let cru := cop == 1 && bit fl 1
  if cru then s.ticketFormat c .group else noTicket c
  let axis := c.u 40 1
  need (decide (1 ≤ axis ∧ axis ≤ 3)) (errFormat 40)
  let n := s.field .colRing c.part (axis - 1) 0 16
  let pos := s.field .colRing c.part (axis - 1) 16 16
  need (n != 0) (errFormat 40)
  let fmt := c.u 41 1
  need ((fmt == 3 || fmt == 4 || fmt == 5 || (fmt == 2 && (cop == 2 || cop == 4))) && !(cru && fmt != 4)) (errFormat 41)
  let reduces := cop == 1 || cop == 3
  need (fl / 32 == 0 && !(bit fl 0 && !reduces) && !(bit fl 1 && cop != 1) && !(bit fl 3 && reduces) && !(bit fl 2 && !reduces) && !(bit fl 2 && bit fl 1) && !(bit fl 4 && cop != 4)) (errFormat 42)
  let hops := c.u 43 1
  need (if cop = 4 then decide (hops < n) else hops == 0) (errFormat 43)
  let root := c.u 44 2
  need (if cop = 4 then decide (root < n) else cru || root == 0) (errFormat 44)
  let e := c.u 64 8
  let after : Except Stop Unit := do
    reserved c 46 2
    need (c.u 48 8 % 64 == 0) (errFormat 48)
    need (cru || c.u 56 8 % 64 == 0) (errFormat 56)
    need (decide (1 ≤ e ∧ e < 2 ^ 40)) (errFormat 64)
    need (cop == 4 || (e % n == 0 && (bit fl 2 || e / n * (es2 fmt / 2) % 64 == 0))) (errFormat 64)
  if cru then
    let _ ← s.groupArg c 44 false after
  after
  .ok { uid := c.uid, ctx := c.ctx, part := c.part, cop := cop, axis := axis, fmt := fmt, cflags := fl, hops := hops, root := root, src := c.u 48 8, dst := c.u 56 8, elems := e, n := n, pos := pos, chill := c.chill }

/-- A collective starts: its links' sequences advance (R438), what it does first, and the packets that waited for it. -/
def State.collStart (s : State) (k0 : Coll) : State :=
  let l := k0.links
  let next (i : Nat) : Nat := mgetD s.fabric.linkSeqs (k0.part, k0.axis, i) 0 + 1
  let k1 : Coll := { k0 with send := if k0.sends then some (l.1, next l.1) else none, recv := if k0.receives then some (l.2, next l.2) else none }
  let k : Coll := { k1 with awaited := k1.comes }
  let bump (o : Option (Nat × Nat)) (m : Map (Nat × Nat × Nat) Nat) : Map (Nat × Nat × Nat) Nat := match o with
    | some (i, q) => mset m (k.part, k.axis, i) q
    | none => m
  let s1 : State := { s with
    fabric := { s.fabric with colls := s.fabric.colls ++ [k], linkSeqs := bump k.recv (bump k.send s.fabric.linkSeqs) },
    memory := { s.memory with provisional := if k.ahead then s.memory.provisional ++ [({ sid := s.moves.nextId, uid := k.uid, core := 0, coll := some (k.part, k.ctx) } : Provisional)] else s.memory.provisional },
    moves := { s.moves with nextId := if k.ahead then s.moves.nextId + 1 else s.moves.nextId } }
  ((s1.modCmd k.uid (fun c => { c with work := .coll k.uid })).collBegin k).collUnstall

/-- The work of a REDUCE_SCATTER into a parameter group, which its reduced gradient feeds (R344, R352, R353, R435). -/
def State.collGroup (s : State) (c : Running) (k : Coll) : Except Stop (Option State) := do
  let g ← s.groupArg c 44 false
  need (k.elems / k.n == g.elems) (errFormat 64)
  if s.quiesced c then .error .held else .ok ()
  if s.stepSkipped c.ctx c.step then .ok none else
  match s.applyScale c g with
  | none => .error .held
  | some e =>
    need (s.stepOk c g 0 g.granules) (errFormat 8)
    let h ← s.hyperWords g
    let q : CruJob := { uid := c.uid, ctx := c.ctx, part := c.part, gid := g.id, step := c.step, k := e, first := 0, next := 0, last := g.granules, hyper := h, rings := s.ringsOf c.part g.repAxes }
    let s1 := (s.vaTouch c.ctx g.hAddr 64).modGroup c.ctx g.id (fun g => { g with openStep := some c.step })
    .ok (some { s1 with cru := { s1.cru with jobs := s1.cru.jobs ++ [q] } })

/-- The ranges that a collective reads and writes on this device (R431, R461). -/
def Coll.lines (k : Coll) : List (Nat × Nat × Bool) :=
  let whole := (if k.cop = 4 then 1 else k.n) * k.chunkBytes
  (if k.cop = 4 ∧ k.dist ≠ 0 then [] else [(k.src, if k.cop = 2 then k.chunkBytes else whole, false)]) ++
  (if k.toCru ∨ (k.cop = 4 ∧ k.dist = 0) then [] else [(k.dst, if k.cop = 1 then k.chunkBytes else whole, true)])

/-- REDUCE_SCATTER, ALL_GATHER, ALL_REDUCE, BROADCAST (R431 to R435, R442 to R444). -/
def bodyColl (cop : Nat) : Body := fun c s => do
  let k ← s.collFields c cop
  s.refuseAxis c
  if k.compress then
    if s.protectedIn c.ctx k.src 64 ∨ s.protectedIn c.ctx k.dst 64 then s.refuseProtected c 42 else
    match s.blockBytes c.ctx k.src with
    | .error a => fail (errPage 0 a)
    | .ok (_, some _) => fail (errPoison 3 0)
    | .ok (h, none) =>
      let len := h.length
      if s.protectedIn c.ctx k.src (len * k.elems) ∨ s.protectedIn c.ctx k.dst (len * (if k.cop = 1 then k.elems / k.n else k.elems)) then s.refuseProtected c 42 else
      match s.vaRead c.ctx k.src (len * k.elems) with
      | none => fail (errPage 0 ((s.unmapped c.ctx k.src (len * k.elems)).getD k.src))
      | some (_, true) => fail (errPoison 3 0)
      | some (_, false) => match s.collBlocks c.ctx k.src len k.elems h with
        | some (chk, j) => fail (errDamaged chk j)
        | none => match s.waitLines c ({ k with block := len } : Coll).lines with
          | some s1 => .ok (s1, none)
          | none => .ok (s.collStart { k with block := len }, none)
  else match s.waitLines c k.lines with
  | some s1 => .ok (s1, none)
  | none =>
  if k.toCru then
    match ← s.collGroup c k with
    | none => .ok (s.count .colCollStat c.part 0 0 32, some (okProgress 0 1))
    | some s1 => .ok ((s1.collStart k).collLogged c.uid, none)
  else .ok (s.collStart k, none)

def execReduceScatter := opcodeStep 0x0501 false false (bodyColl 1)
def execAllGather := opcodeStep 0x0502 false false (bodyColl 2)
def execAllReduce := opcodeStep 0x0503 false false (bodyColl 3)
def execBroadcast := opcodeStep 0x0504 false false (bodyColl 4)

/-- COLL_PACKET (R436 to R438). -/
def execCollPacket (k : Fin 36) (pkt : FabPacket) (s : State) : Host.Outcome State Fault Refusal := s.run (fun s => s.collArrive k pkt)

/-- Write a ring's length and position: read-only in a VF; a position outside a ring changes nothing; the link sequences restart (R438, R445). -/
def State.writeRing (s : State) (fn p axis value : Nat) : State :=
  let len := bits value 15 0
  let pos := bits value 31 16
  if fn ≠ 0 ∨ (len ≠ 0 ∧ len ≤ pos) then s else
  let s1 := s.setReg .colRing p axis (bits value 31 0)
  { s1 with fabric := { s1.fabric with linkSeqs := s1.fabric.linkSeqs.filter (fun e => !(e.1.1 == p && e.1.2.1 == axis + 1)) } }

/-- COL_RING_WRITE (R438). -/
def execColRingWrite (fn : Fin 33) (p : Fin 32) (axis : Fin 3) (value : BitVec 64) (s : State) : Host.Outcome State Fault Refusal :=
  s.run (fun s => s.writeRing fn p axis value.toNat)

/-! ### Digests of replicas (R360) -/

/-- A replica's digest: kept for the check of its step, passed on until it has been round the ring, and compared once all have come. -/
def State.digestArrive (s : State) (k : Nat) (pkt : FabPacket) : State :=
  let (s1, go) := s.admitPacket k 6 pkt
  if !go then s1
  else if pkt.payload.length ≠ 24 then s1.dropReport k else
  let h := pkt.payload
  let axis := (s1.ringLink k).1
  let same (e : DigestCheck) : Bool := e.part == pkt.part.val && e.tensor == fld h 0 4 && e.shard == fld h 4 4 && e.step == fld h 8 8
  let old : DigestCheck := (s1.cru.digests.find? same).getD { part := pkt.part, tensor := fld h 0 4, shard := fld h 4 4, step := fld h 8 8 }
  let key := (axis, pkt.orig.val, pkt.tag.val)
  if pkt.reissue ∧ old.heard.contains key then s1 else
  let d : DigestCheck := { old with received := old.received ++ [(axis, BitVec.ofNat 64 (fld h 16 8))], heard := old.heard ++ [key] }
  let s2 : State := { s1 with cru := { s1.cru with digests := put s1.cru.digests same d } }
  let n := ((d.axes.find? (fun a => a.1 == axis)).map (·.2)).getD (s2.field .colRing pkt.part (axis - 1) 0 16)
  let s3 := if (d.received.filter (fun r => r.1 == axis)).length + 1 < n then (s2.sendNext (2 * (axis - 1)) 6 pkt.part d.uid h false).getD s2 else s2
  s3.judgeCheck d

/-- DIGEST_PACKET (R360, R413). -/
def execDigestPacket (k : Fin 36) (pkt : FabPacket) (s : State) : Host.Outcome State Fault Refusal := s.run (fun s => s.digestArrive k pkt)

end Sys2Proof.Machine
end

