-- ==== Sys2Proof/Machine/Barriers.lean ====
section
/-! DEFINITION. Barriers of launches, commands and rings, and the scale vote (R111 to R118, R349 to R354). -/

namespace Sys2Proof.Machine
open Sys2Proof

/-! ### Releases on this device (R112 to R116, R212, R276, R324, R444) -/

/-- A barrier of a partition has released: counted; the time from the last arrival, at most 90 cc, is free (R115). -/
def State.barCount (s : State) (part : Nat) (within : Bool) : State :=
  let s1 := (s.count .colBarStat part 0 0 32).commitColls part
  if !within then s1 else
  let (n, s2) := s1.draw
  (s2.setField .colBarPath 0 0 8 8 (n % 91)).peak .colBarPath 0 0 16 8 (n % 91)

/-- The next use of a barrier id in its partition. -/
def State.nextEpoch (s : State) (part id : Nat) : Nat := ((s.part? part).map (fun p => mgetD p.barEpochs id 0)).getD 0 + 1
def State.useEpoch (s : State) (part id : Nat) : State := s.modPart part (fun p => { p with barEpochs := mset p.barEpochs id (mgetD p.barEpochs id 0 + 1) })

/-- Commit provisional buffers that a predicate picks; a stream that has completed leaves them (R212). -/
def State.commit (s : State) (p : Provisional → Bool) : State :=
  ({ s with memory := { s.memory with provisional := upd s.memory.provisional (fun v => v.coll.isNone && p v) (fun v => { v with committed := true }) } } : State).settleProv

/-- A launch's barrier releases: staged adds and scratch entries are applied, provisional buffers committed, its members woken with their posts (R112, R113, R212, R276, R324). -/
def State.releaseLaunch (s : State) (l : Launch) (id : Nat) (within : Bool) : State :=
  let s1 := (s.applyStaged (fun g => g.launch == some l.id))
  let s2 := (s1.applyScratch (fun g => g.launch == some l.id)).1
  let cs := s2.launchCores l.id
  let s3 := ((s2.commit (fun v => v.launch == some l.id)).barCount l.part within).modLaunch l.id (fun l => { l with arrived := l.arrived.filter (fun a => a.1 != id) })
  cs.foldl (fun st c => match (st.core c).run with
    | some r =>
      if r.seq = .barrier id then
        st.seqNext c (r.pc + 1) ((l.ops[r.pc]?).bind (·.post))
      else st
    | none => st) s3

/-! ### Ring barriers and votes (R117, R118, R350, R351) -/

/-- A barrier packet (R413). -/
def barBytes (kind : Nat) (b : RingBar) (word : Nat) : List Byte :=
  toLe 1 (kind + (if b.vote then 2 else 0)) ++ toLe 1 b.axis ++ toLe 2 b.id ++ toLe 4 b.epoch ++ toLe 4 word ++ toLe 4 0 ++ toLe 8 b.step

/-- Send a barrier packet on; a device that cannot ends the command that holds the barrier (R118). -/
def State.barSend (s : State) (b : RingBar) (kind word : Nat) : State :=
  match s.sendNext (2 * (b.axis - 1)) 3 b.part (b.uid.getD 0) (barBytes kind b word) ((b.uid.bind s.cmd?).map (·.chill) |>.getD false) with
  | some s1 => s1
  | none =>
    s.barLost b (errLinkLost (s.rolePort (2 * (b.axis - 1))) 0)

/-- A vote resolves: the ledger entry, the context's k by the rule in force at the vote's dispatch (DEDUCED from R354, log entry 91), the outcome (R351). -/
def State.resolveVote (s : State) (uid word : Nat) : State :=
  match s.cmd? uid with
  | none => s
  | some c =>
    let skip := word != 0
    let r := c.scale
    let next (x : Ctx) : Ctx :=
      if skip then { x with k := max (x.k - r.dec) r.kMin, clean := 0, skipped := satN 16 (x.skipped + 1) }
      else if r.incEvery ≠ 0 ∧ r.incEvery ≤ x.clean + 1 then { x with k := min (x.k + 1) r.kMax, clean := 0 }
      else { x with clean := x.clean + 1 }
    let s1 := s.modCtx c.ctx (fun x =>
      let y := next x
      { y with pendingVotes := x.pendingVotes.filter (· != c.step), votes := (x.votes ++ [({ step := c.step, skipped := skip, k := r.k } : Vote)]).drop (x.votes.length + 1 - 64) })
    let k := ((s1.ctx? c.ctx).map (·.k)).getD 0
    s1.reply uid (if skip then errOverflow k else okProgress (unsgn 64 k))

/-- The key under which a partition counts the votes on an axis. -/
def voteKey (axis : Nat) : Nat := 1024 + axis

/-- What a ring barrier's release does here, apart from a vote that goes on to its next axis. -/
def State.barDone (s : State) (b : RingBar) (word : Nat) : State :=
  let s1 := s.delBar b
  if b.vote then s1.resolveVote (b.uid.getD 0) word else
  match b.uid, b.launch with
  | some u, _ => (s1.barCount b.part false).reply u ok
  | none, some l => (match s1.launch? l.1 with
    | some k => s1.releaseLaunch k l.2 false
    | none => s1)
  | none, none => s1

/-- This device's members have arrived at a ring barrier: the first device sends the arrival packet, another forwards the one that waits (R117). -/
def State.barGo (s : State) (b : RingBar) : State :=
  let s1 := s.putBar b
  if b.pos = 0 then s1.barSend b 0 b.word else match b.seen with
  | some w => s1.barSend b 0 (w ||| b.word)
  | none => s1

/-- Join a ring barrier or vote: its next use, with the arrival packet that came before it. -/
def State.barJoin (s : State) (b0 : RingBar) (key : Nat) : State :=
  let b1 : RingBar := { b0 with epoch := s.nextEpoch b0.part key, arrived := true }
  let early := (s.fabric.bars.find? (sameBar b1)).bind (·.seen)
  (s.useEpoch b0.part key).barGo { b1 with seen := early }

/-- A ring barrier is released on this device: a vote goes on to the next of its axes with the words so far (R350). -/
def State.barRelease (s : State) (b : RingBar) (word : Nat) : State :=
  match b.vote, b.left with
  | true, r :: rest => (s.delBar b).barJoin { b with axis := r.1, word := word, left := rest, n := r.2.1, pos := r.2.2, seen := none } (voteKey r.1)
  | _, _ => s.barDone b word

/-- A barrier packet arrives (R117, R414): one already taken is dropped. -/
def State.barArrive (s : State) (k : Nat) (pkt : FabPacket) : State :=
  let (s1, go) := s.admitPacket k 3 pkt
  if !go then s1 else
  let h := pkt.payload
  let kind := fld h 0 1
  let (axis, link) := s1.ringLink k
  if h.length ≠ 24 ∨ 3 < kind ∨ fld h 1 1 ≠ axis ∨ link ≠ 1 ∨ 1023 < fld h 2 2 then s1.dropReport k else
  let vote := decide (2 ≤ kind)
  let key := packetBar pkt.part h
  let word := fld h 8 4
  match s1.fabric.bars.find? (sameBar key) with
  | none =>
    if kind % 2 = 1 ∨ key.epoch < s1.nextEpoch key.part (if vote then voteKey axis else key.id) then s1
    else s1.putBar { key with seen := some word }
  | some b =>
    if kind % 2 = 0 then
      if b.arrived ∧ b.pos = 0 then (s1.barSend b 1 word).barRelease b word
      else if b.seen.isSome then s1
      else if b.arrived then (s1.putBar { b with seen := some word }).barSend { b with seen := some word } 0 (word ||| b.word)
      else s1.putBar { b with seen := some word }
    else if !b.arrived ∨ b.pos = 0 then s1
    else (if b.pos + 1 < b.n then s1.barSend b 1 word else s1).barRelease b word

/-- BAR_PACKET (R117, R350). -/
def execBarPacket (k : Fin 36) (pkt : FabPacket) (s : State) : Host.Outcome State Fault Refusal := s.run (fun s => s.barArrive k pkt)

/-! ### BAR and the releases of launches and commands (R98, R112, R114) -/

/-- Whether every member of a launch has arrived at a barrier. -/
def Launch.allArrived (l : Launch) (id : Nat) : Bool := decide (l.cores.length ≤ (l.arrived.filter (fun a => a.1 == id)).length)

/-- BAR: a core arrives, at a barrier on an axis once the adds of its launch have been answered (R272); with the last one of an axis the ring is joined; an axis without a ring ends the program (R98, R101, R112, R117, R429). -/
def execBar (c : Fin 40) (s : State) : Host.Outcome State Fault Refusal :=
  s.run (fun s => match s.seqOp c 5 with
    | some (r, o) => match s.launch? r.launch with
      | some l =>
        let d := o.desc.toNat
        let axis := bits d 13 12
        let id := (l.barIds[bits d 9 0]?).getD 0
        let n := s.field .colRing l.part (axis - 1) 0 16
        if !r.drained then s
        else if axis ≠ 0 ∧ n = 0 then s.failLaunch r.launch (errFormat 0)
        else if axis ≠ 0 ∧ s.launchAdds l.id (s.launchCmds l.id) then s
        else
          let s1 := (s.modRun c (fun r => { r with seq := .barrier id })).modLaunch l.id (fun l => { l with arrived := l.arrived ++ [(id, r.logical)] })
          let all := ((s1.launch? l.id).map (fun l => l.allArrived id)).getD false
          if all ∧ axis ≠ 0 ∧ 1 < n then
            s1.barJoin { part := l.part, axis := axis, id := id, epoch := 0, launch := some (l.id, id), n := n, pos := s.field .colRing l.part (axis - 1) 16 16 } id
          else s1
      | none => s
    | none => s)

/-- Whether staged work belongs to a command: to one of its launches, or to the command itself. -/
def State.cmdLaunch (s : State) (uid : Nat) (launch : Option Nat) (owner : Nat) : Bool := match launch with
  | some n => s.cores.launches.any (fun l => l.id == n && l.by_.uid == some uid)
  | none => owner == uid

/-- The barrier that ends a command, or a layer of its plan, releases (R114, R199, R212, R276, R324): a plan goes on to its next layer, another command has its outcome. -/
def State.releaseCmd (s : State) (c : Running) : State :=
  let ls := s.cores.launches.filter (fun l => l.by_.uid == some c.uid)
  let s1 := s.applyStaged (fun g => s.cmdLaunch c.uid g.launch g.uid)
  let r := s1.applyScratch (fun g => s.cmdLaunch c.uid g.launch g.uid)
  let s2 := (r.1.commit (fun v => v.uid == c.uid)).barCount c.part true
  match c.work with
  | .plan k =>
    let s3 := ls.foldl (fun st l => (match l.reply with
      | some e => if e.status = 0x24 then st.taint c.uid e.detail e.extra else st
      | none => st).endLaunch l.id) s2
    match ls.findSome? (fun l => l.reply.bind (fun e => if e.status = 0x33 then some e else none)) with
    | some e => s3.failCmd c.uid { e with progress := k }
    | none =>
    let layers := match (s3.planTicket c).map (·.payload) with
      | some (.plan es) => planLayers es
      | _ => 0
    if k + 1 < layers then
      ((s3.modCmd c.uid (fun q => { q with work := .plan (k + 1), progress := k + 1 })).pumpPlan c (k + 1)).settleJobs
    else s3.reply c.uid (okProgress layers)
  | _ => s2.reply c.uid (okProgress (if c.opcode = 0x603 then r.2 else c.progress))

/-- BARRIER_RELEASE, once the adds of its members have been applied (R112 to R114, R272). -/
def execBarrierRelease (what : BarKey) (s : State) : Host.Outcome State Fault Refusal :=
  s.run (fun s => match what with
    | .id n => match s.cores.launches.find? (fun l => l.arrived.any (fun a => a.1 == n.val) && l.allArrived n && !s.fabric.bars.any (fun b => b.launch == some (l.id, n.val))) with
      | some l =>
        if s.launchAdds l.id (s.launchCmds l.id) ∨ s.stagedBarred (fun g => g.launch == some l.id) then s else (s.useEpoch l.part n).releaseLaunch l n true
      | none => s
    | .cmd uid => match s.cmd? uid with
      | some c =>
        let ready := c.reply.isNone && (match c.work with
          | .barrier => true
          | .plan k => s.layerDone c k
          | _ => false)
        if ready ∧ !s.cmdAdds uid ∧ !s.stagedBarred (fun g => s.cmdLaunch uid g.launch g.uid) then s.releaseCmd c else s
      | none => s)

/-! ### Commands (R118, R350) -/

/-- BARRIER (R117, R118, R429). -/
def bodyBarrier : Body := fun c s => do
  let axis := c.u 42 1
  let (_, t) ← s.judgeTicket c .any (do
    need (decide (1 ≤ axis ∧ axis ≤ 3)) (errFormat 42)
    reserved c 43 21)
  need (decide (c.u 40 2 < t.barIds.length)) (errFormat 40)
  need (decide (1 ≤ axis ∧ axis ≤ 3)) (errFormat 42)
  let n := s.field .colRing c.part (axis - 1) 0 16
  need (n != 0) (errFormat 42)
  reserved c 43 21
  s.refuseAxis c
  let id := (t.barIds[c.u 40 2]?).getD 0
  let b : RingBar := { part := c.part, axis := axis, id := id, epoch := 0, uid := some c.uid, n := n, pos := s.field .colRing c.part (axis - 1) 16 16 }
  if n = 1 then .ok ((s.useEpoch c.part id).barCount c.part false, some ok)
  else .ok ((s.modCmd c.uid (fun q => { q with work := .coll c.uid })).barJoin b id, none)

/-- A vote goes out at the end of its dispatch's tick, so that an overflow of the same cycle is taken into it: the local overflow bit is read and cleared (R350). -/
def State.castVote (s : State) (c : Running) : State :=
  match c.ballot with
  | none => s
  | some v =>
    let x := s.ctx? c.ctx
    let word := v.word ||| (if (x.map (·.overflow)).getD false then 1 else 0)
    let s1 := (s.modCtx c.ctx (fun k => { k with overflow := false })).modCmd c.uid (fun q => { q with ballot := none })
    match v.rings.filter (fun r => decide (1 < r.2.1)) with
    | [] => s1.resolveVote c.uid word
    | r :: rest =>
      s1.barJoin { part := c.part, axis := r.1, id := 0, epoch := 0, vote := true, step := c.step, word := word, uid := some c.uid, left := rest, n := r.2.1, pos := r.2.2 } (voteKey r.1)

/-- The votes of a tick go out at its end, in the order of their dispatch. -/
def State.votesAtTick (s : State) : State :=
  if s.power.stopped then s else (insSort (fun c => c.order) ((s.queues.flatMap (·.running)).filter (fun c => c.ballot.isSome))).foldl State.castVote s

/-- SCALE_VOTE (R350, R351, R429). -/
def bodyScaleVote : Body := fun c s => do
  let x := s.ctx? c.ctx
  let seen := (x.map (fun k => k.votes.any (fun v => v.step == c.step) || k.pendingVotes.contains c.step)).getD false
  need (c.step != 0 && !seen) (errFormat 8)
  noTicket c
  need (c.u 40 1 / 8 == 0) (errFormat 40)
  let rings := s.ringsOf c.part (c.u 40 1)
  need (rings.all (fun r => r.2.1 != 0)) (errFormat 40)
  reserved c 41 7
  need (c.u 48 8 % 4 == 0) (errFormat 48)
  reserved c 56 8
  s.refuseAxis c
  let l ← if c.u 48 8 = 0 then .ok [] else s.input c false (c.u 48 8) 4
  let rule : ScaleRule := (x.map (fun k => ({ k := k.k, dec := k.dec, kMin := k.kMin, kMax := k.kMax, incEvery := k.incEvery } : ScaleRule))).getD {}
  let s1 := if c.u 48 8 = 0 then s else s.sawInput c false (c.u 48 8) 4
  .ok ((s1.modCtx c.ctx (fun k => { k with pendingVotes := k.pendingVotes ++ [c.step] })).modCmd c.uid (fun q =>
    { q with scale := rule, ballot := some { word := leNat l, rings := rings }, work := .vote }), none)

def execBarrier := opcodeStep 0x0505 false false bodyBarrier
def execScaleVote := opcodeStep 0x0506 false false bodyScaleVote

end Sys2Proof.Machine
end

