-- ==== Sys2Proof/Machine/Chill.lean ====
section
/-! DEFINITION. Chill mode, the cycle ledger, digests, and Matchplate (R371 to R396). -/

namespace Sys2Proof.Machine
open Sys2Proof

/-! ### Mode and ledger (R373 to R380) -/

/-- CTX_SET_MODE (R373, R374): it waits for the commands of its context that started before it. -/
def bodyCtxSetMode : Body := fun c s => do
  noTicket c
  let x ← s.liveCtx (c.u 40 1) 40
  let mode := c.u 41 1
  need (mode / 4 == 0 && (bit mode 0 || !serves c.fn x.part || !s.pairedPart x.part)) (errFormat 41)
  reserved c 42 6
  reserved c 56 8
  servedCtx c.fn x 40
  if (s.queues.flatMap (·.running)).any (fun k => k.uid != c.uid && k.ctx == x.id && (!k.admin || actsOnHeader k.opcode) && decide (k.order < c.order)) then .error .held else
  .ok (s.modCtx x.id (fun k => { k with chill := bit mode 0, seed := if bit mode 1 then c.u 48 8 else k.seed, seedSet := k.seedSet || bit mode 1 }), some ok)

/-- DET_LEDGER_READ (R380); it starts as with FENCE_BEFORE (`packetFences`). -/
def bodyDetLedgerRead : Body := fun c s => do
  noTicket c
  let x ← s.liveCtx (c.u 40 1) 40
  let fl := c.u 41 1
  need (fl / 4 == 0) (errFormat 41)
  reserved c 42 6
  need (c.u 48 8 % 32 == 0) (errFormat 48)
  reserved c 56 8
  need (if c.admin then serves c.fn x.part else x.id == c.ctx) (errPartition 40)
  let s1 ← s.output c (bit fl 1) (c.u 48 8) (toLe 8 x.run ++ toLe 8 x.refresh ++ toLe 8 x.retry ++ toLe 8 x.chillCmds)
  .ok (if bit fl 0 then s1.modCtx x.id (fun k => { k with run := 0, refresh := 0, retry := 0, chillCmds := 0 }) else s1, some ok)

/-- Whether a command is out of its cores: a pre-emption, with or without a record, has stopped all it has on them (R74, R77, R78). -/
def State.preempted (s : State) (c : Running) : Bool :=
  let of_ (r : Run) : Bool := (s.launchCmds r.launch).contains c.uid
  let streams := s.moves.streams.filter (·.uid == c.uid)
  let gathers := s.embed.gathers.filter (·.uid == c.uid)
  let jobs := s.cru.jobs.filter (·.uid == c.uid)
  let out := s.cores.cores.any (fun k => k.saved.any (fun v => (v.run.map of_).getD false)) || !streams.isEmpty || !gathers.isEmpty || !jobs.isEmpty
  c.interim || (out && !s.cores.cores.any (fun k => (k.run.map of_).getD false) && streams.all (·.stopped) && gathers.all (·.stopped) && jobs.all (·.stopped))

/-- Whether a Chill command of a context is dispatched and not complete; not while it is pre-empted (R378). -/
def State.chillRuns (s : State) (x : Nat) : Bool := s.queues.any (fun e => e.running.any (fun c => c.ctx == x && c.chill && !s.preempted c))

/-- A millisecond at the doubled refresh rate is counted for each controller (R235). -/
def State.countRefresh (s : State) : State :=
  if s.now % 25000 ≠ 0 then s else
  (List.range 8).foldl (fun st k =>
    let c := st.clock k
    (if c.refresh1 then st.count .memRefresh k 0 16 32 else st) |> fun st1 => if c.refresh2 then st1.count .memRefresh (8 + k) 0 16 32 else st1) s

/-- A running core's cycles of a slow tick of 40 ns at its cluster's clock count towards the phase it is in (R119). -/
def State.countPhases (s : State) : State :=
  (s.cores.cores.filter (·.run.isSome)).foldl (fun st k =>
    st.countK .corePhaseCnt k.id (if (k.run.map (·.compute)).getD false then 32 else 0) 32 ((st.clock (k.id / 5)).cur / 25)) s

/-- REFRESH_WINDOW: a device-wide window of 210 cc counts for every context with a Chill command running; its cycles do not count as RETRY too (R376, R378). -/
def execRefreshWindow (s : State) : Host.Outcome State Fault Refusal :=
  s.run (fun s => { s with tenants := { s.tenants with ctxs := s.tenants.ctxs.map (fun (x : Ctx) => if s.chillRuns x.id then { x with refresh := satN 64 (x.refresh + 210), inWindow := 210 } else x) } })

/-! ### DIGEST (R385) -/

/-- DIGEST: over a range, or over a group's canonical bytes once the commands on it have ended; a digest of poisoned bytes is written poisoned (R473). -/
def bodyDigest : Body := fun c s => do
  plenIs c 8
  let group := c.u 40 1 == 1
  if group then s.ticketFormat c .group else noTicket c
  need (decide (c.u 40 1 ≤ 1)) (errFormat 40)
  let fl := c.u 41 1
  need (fl / 4 == 0) (errFormat 41)
  let g ← (if group then (do
    let g ← s.groupArg c 42 false (do
      reserved c 44 4
      need (c.u 56 8 % 8 == 0) (errFormat 56))
    .ok (some g)) else .ok none)
  reserved c 44 4
  need (c.u 56 8 % 8 == 0) (errFormat 56)
  let n := c.u 64 8
  need (group || decide (1 ≤ n ∧ n ≤ 2 ^ 46)) (errFormat 64)
  let done (bs : List Byte) (bad : Option Nat) (s : State) : Except Stop (State × Option Reply) := do
    let d := crc64 bs
    let s1 ← (if c.u 56 8 = 0 then .ok s else s.output c (bit fl 1) (c.u 56 8) (toLe 8 d.toNat) 0 (if bad.isSome then [(0, 8)] else []))
    .ok (match bad with
      | some u => s1.taint c.uid 1 u
      | none => s1, some (okProgress bs.length (d.toNat % 2 ^ 32)))
  match g with
  | some g =>
    if s.groupBusy c g then .error .held else
    match s.waitLines c ((g.canonicalRanges (bit fl 0) 0 g.elems).map (fun r => (r.1, r.2, false))) with
    | some s1 => .ok (s1, none)
    | none =>
    let bad := ((s.badRuns g.ctx 0 (g.canonicalRanges (bit fl 0) 0 g.elems)).head?).map (fun r => s.vaUnit g.ctx r.2.2)
    done (s.canonical g (bit fl 0) 0 g.elems) bad (s.sawCanonical g c.uid 1 (bit fl 0) 0 g.elems)
  | none =>
    match s.waitLines c [(c.u 48 8, n, false)] with
    | some s1 => .ok (s1, none)
    | none => match s.vaRead c.space (c.u 48 8) n with
      | some (bs, bad) =>
        let at_ := match s.objAt c.space (c.u 48 8) with
          | some o => o.base + o.mem.firstBad (c.u 48 8 - o.base) n
          | none => 0
        done bs (if bad then some (s.vaUnit c.space at_) else none) (s.vaTouch c.space (c.u 48 8) n)
      | none => fail (errPage 9 ((s.unmapped c.space (c.u 48 8) n).getD (c.u 48 8)))

def execCtxSetMode := opcodeStep 0x0113 true false bodyCtxSetMode
def execDetLedgerRead := opcodeStep 0x0801 false false bodyDetLedgerRead
def execDigest := opcodeStep 0x0802 false false bodyDigest

/-! ### Forming and dissolving a pair (R386, R394) -/

/-- What a PAIR packet carries after its match index, which the spec does not lay out (DESIGN CHOICE, log entry 68): bytes 40 to 47 of the command, the partition's cores, PART_ID and STEPPING. -/
def State.pairBytes (s : State) (c : Running) : List Byte :=
  (c.pkt.bytes.drop 40).take 8 ++ toLe 2 (((s.part? (c.u 40 1)).map (fun p => p.positions.length)).getD 0) ++ toLe 2 0x0709 ++ toLe 1 0xA1 ++ toLe 3 0

/-- The offset of the first field in which a MATCH_PAIR and the partner's PAIR differ, or 40 for the core count (R386). -/
def pairDiffers (mine theirs : List Byte) : Option Nat :=
  if fld mine 2 1 = fld theirs 2 1 then some 42
  else if fld mine 3 1 ≠ fld theirs 3 1 then some 43
  else if fld mine 4 1 ≠ fld theirs 4 1 then some 44
  else if fld mine 5 1 ≠ fld theirs 5 1 then some 45
  else if (mine.drop 8).take 5 ≠ (theirs.drop 8).take 5 then some 40
  else none

/-- Form the pair once both PAIR messages are at hand, or end MATCH_PAIR (R386). -/
def State.pairUp (s : State) : State :=
  match s.pair.pending, s.pair.peer with
  | some uid, some (port, theirs) =>
    if port ≠ s.pair.port then s else
    (match s.cmd? uid with
     | some c => match pairDiffers (s.pairBytes c) theirs with
       | some d => s.failCmd uid (errFormat d)
       | none =>
         let p := s.pair.part
         let s1 : State := { s with
           pair := { s.pair with active := true, pending := none, peer := none }
           tenants := { s.tenants with ctxs := s.tenants.ctxs.map (fun (x : Ctx) => if x.part = p then { x with chill := true } else x) } }
         s1.reply uid ok
     | none => s)
  | _, _ => s

/-- MATCH_PAIR (R386): the port leaves its fabric role, and the command waits for its partner. -/
def bodyMatchPair : Body := fun c s => do
  noTicket c
  need (decide (c.u 40 1 ≤ 31) && (s.part? (c.u 40 1)).isSome && !s.pair.active && s.pair.pending.isNone) (errFormat 40)
  need (decide (c.u 41 1 ≤ 23)) (errFormat 41)
  need (decide (c.u 42 1 ≤ 1)) (errFormat 42)
  need (decide (c.u 43 1 ≤ 1)) (errFormat 43)
  need (decide (1 ≤ c.u 44 1 ∧ c.u 44 1 ≤ 64)) (errFormat 44)
  need (c.u 45 1 / 2 == 0) (errFormat 45)
  reserved c 46 18
  let p : Pair := { pending := some c.uid, peer := s.pair.peer, part := c.u 40 1, port := c.u 41 1, lead := c.u 42 1 == 0, tileGrain := c.u 43 1 == 1, t0 := bit (c.u 45 1) 0, window := c.u 44 1 }
  let s1 := ({ s with pair := p } : State).modPort (c.u 41 1) (fun q => { q with pairLink := true })
  .ok (((s1.modCmd c.uid (fun q => { q with work := .pair })).sendMatch 0 0 (s1.pairBytes c)).pairUp, none)

/-- Dissolve the pair when both sides ask it and nothing awaits comparison: the port retrains and returns to its fabric role (R394). -/
def State.pairDown (s : State) : State :=
  match s.pair.unpairing with
  | some uid =>
    if !s.pair.peerUnpair ∨ !s.pair.compares.isEmpty ∨ !s.pair.forwarded.isEmpty then s else
    let s1 : State := { s with pair := {} }
    ((s1.modPort s.pair.port (fun p => { p with pairLink := false })).startRetrain s.pair.port).reply uid ok
  | none => s

/-- MATCH_UNPAIR (R394). -/
def bodyMatchUnpair : Body := fun c s => do
  noTicket c
  need (s.pair.active && c.u 40 1 == s.pair.part && s.pair.unpairing.isNone) (errFormat 40)
  reserved c 41 23
  let s1 : State := { s with pair := { s.pair with unpairing := some c.uid } }
  .ok (((s1.modCmd c.uid (fun q => { q with work := .unpair })).sendMatch 4 0 []).pairDown, none)

def execMatchPair := opcodeStep 0x0803 true true bodyMatchPair
def execMatchUnpair := opcodeStep 0x0804 true true bodyMatchUnpair

/-! ### Digests of a command and their comparison (R389 to R392) -/

/-- The tile digests of what a command wrote, by tensor and logical core in ascending order (R389). -/
def State.matchTiles (s : State) (uid : Nat) : List (Nat × Nat × List (BitVec 64)) :=
  let ws := s.pair.writes.filter (fun w => w.uid == uid)
  (insSort (fun w => w.tensor * 64 + w.lcore) ws).map (fun w =>
    let bs := (insSort (fun p => p.1) w.parts).flatMap (·.2)
    (w.tensor, w.lcore, (chunks 4096 (bs.length / 4096 + 1) bs).map crc64))

/-- Tensor ids with their digests. -/
def tensorDigests (tiles : List (Nat × Nat × List (BitVec 64))) : List (Nat × BitVec 64) :=
  (distinct (tiles.map (·.1))).map (fun t => (t, crc64 (((tiles.filter (fun k => k.1 == t)).flatMap (fun k => k.2.2)).flatMap (fun d => toLe 8 d.toNat))))

/-- The most tile digests that a device keeps for a command, and that one TILES packet carries. -/
def keptTiles : Nat := 262144
def tilesPerPacket : Nat := 519
/-- The tensors that one DIGESTS packet carries. -/
def tensorsPerPacket : Nat := 345

/-- Send tile digests; a packet that is not full ends them (DESIGN CHOICE, log entry 68). -/
def State.sendTiles (s : State) (index : Nat) (ds : List (BitVec 64)) : State :=
  (List.range (ds.length / tilesPerPacket + 1)).foldl (fun st i => st.sendMatch 3 index (((ds.drop (i * tilesPerPacket)).take tilesPerPacket).flatMap (fun d => toLe 8 d.toNat))) s

def State.modCompare (s : State) (index : Nat) (f : Compare → Compare) : State :=
  { s with pair := { s.pair with compares := upd s.pair.compares (fun k => k.index == index) f } }
def State.compare? (s : State) (index : Nat) : Option Compare := s.pair.compares.find? (fun k => k.index == index)

/-- A comparison ends. -/
def State.endCompare (s : State) (k : Compare) : State :=
  (({ s with pair := { s.pair with compares := s.pair.compares.filter (fun e => e.index != k.index), writes := s.pair.writes.filter (fun w => w.uid != k.uid) } } : State).count .detMatchStat 0 0 0 32).pairDown

/-- The lowest tensor id in which two lists differ (R391). -/
def tensorDiffers (a b : List (Nat × BitVec 64)) : Option Nat :=
  let bad (x y : List (Nat × BitVec 64)) : List Nat := (x.filter (fun p => !y.contains p)).map (·.1)
  leastOf (bad a b ++ bad b a)

/-- Record a divergence and end its command with ERR_MATCH_DIVERGED (R391, R392): the engine, the tensor, and where the first differing tile lies. -/
def State.diverge (s : State) (k : Compare) (engine tensor progress lcore tile : Nat) : State :=
  let own := (k.mine.map (·.status)).getD 0
  let s1 := s.modCmd k.uid (fun c => { c with reply := some (errDiverged engine tensor progress), poison := none, lostLine := false })
  let dig (o : Option Verdict) : Nat := ((o.bind (fun v => v.tensors.find? (fun t => t.1 == tensor))).map (fun t => t.2.toNat)).getD 0
  let first := (s1.pair.lowest.map (fun n => decide (k.index ≤ n))).getD true
  let s2 := if !first then s1 else
    ((((({ s1 with pair := { s1.pair with lowest := some k.index } } : State).setReg .detMatchDiv 0 0 (k.index % 2 ^ 32 + engine % 256 * 2 ^ 32 + lcore % 32 * 2 ^ 40 + own * 2 ^ 48)).setReg .detMatchTensor 0 0 (tensor + tile * 2 ^ 32)).setReg .detMatchDigest 0 0
      (dig k.mine)).setReg .detMatchPeer 0 0 (dig k.theirs))
  (s2.count .detMatchStat 0 0 32 16).endCompare k

/-- Find the first differing tile of the tensor in which a command diverged, from the tile digests of both (R391). -/
def State.locate (s : State) (index : Nat) : State :=
  match s.compare? index with
  | none => s
  | some k => match k.tensor with
    | none => s
    | some t =>
      let before := ((k.tiles.filter (fun e => decide (e.1 < t))).map (fun e => e.2.2.length)).foldl (· + ·) 0
      let mine := (k.tiles.filter (fun e => e.1 == t)).flatMap (fun e => e.2.2.zipIdx.map (fun d => (e.2.1, d.2, d.1)))
      let theirs := if s.pair.tileGrain then k.peerTiles.drop before else k.peerTiles
      let engine := ((k.engines.find? (fun e => e.1 == t)).map (·.2)).getD (Config.freeNat s.free % 13)
      let s0 : State := if k.engines.any (fun e => e.1 == t) then s else { s with free := s.free + 1 }
      let lost := decide (keptTiles < ((k.tiles.map (fun e => e.2.2.length)).foldl (· + ·) 0))
      match (if lost then none else (mine.zipIdx.find? (fun m => match theirs[m.2]? with
        | some d => d != m.1.2.2
        | none => k.peerEnd)).map (·.1)) with
      | some (lcore, tile, _) => s0.diverge k engine t (lcore * 2 ^ 32 + tile) lcore tile
      | none => if !lost ∧ !k.peerEnd then s else (s0.flag .detMatchStat 0 0 49).diverge k engine t (2 ^ 64 - 1) 0 0xFFFFFFFF

/-- Compare a command whose lists are both at hand (R391, R392). -/
def State.judge (s : State) (index : Nat) : State :=
  match s.compare? index with
  | none => s
  | some k => match k.mine, k.theirs with
    | some a, some b =>
      if k.tensor.isSome then s.locate index
      else if a = b then s.endCompare k
      else
        let halted := (s.queues.filter (fun e => decide (64 ≤ e.id.key) && s.queuePart e.id == s.pair.part)).foldl (fun st e => st.queueError e.id) { s.holdSync with pair := { s.pair with halted := true } }
        match tensorDiffers a.tensors b.tensors with
        | none =>
          let (n, s1) := halted.draw
          s1.diverge k 0xFF 0xFFFFFFFF (n % 2 ^ 64) 0 0xFFFFFFFF
        | some t =>
          let s1 := halted.modCompare index (fun e => { e with tensor := some t, peerEnd := e.peerEnd || s.pair.tileGrain })
          (if s.pair.tileGrain then s1 else s1.sendTiles index ((k.tiles.filter (fun e => e.1 == t)).flatMap (fun e => e.2.2))).locate index
    | _, _ => s

/-- The outcome of a paired command is decided: its digests go to the partner (R389). -/
def State.verdict (s : State) (c : Running) : State :=
  match c.reply, s.compare? c.matchIndex with
  | some r0, some k =>
    if k.mine.isSome then s else
    let r := c.outcome r0
    let tiles := s.matchTiles c.uid
    let v : Verdict := { tensors := tensorDigests tiles, status := r.status, detail := r.detail }
    let engines := (s.pair.writes.filter (fun w => w.uid == c.uid)).map (fun w => (w.tensor, w.engine))
    let s1 := s.modCompare c.matchIndex (fun k => { k with mine := some v, tiles := tiles, engines := engines })
    let s2 := if s.pair.tileGrain then s1.sendTiles c.matchIndex (tiles.flatMap (fun e => e.2.2)) else s1
    let s3 := (List.range (v.tensors.length / tensorsPerPacket + 1)).foldl (fun st i =>
      st.sendMatch 2 c.matchIndex (((v.tensors.drop (i * tensorsPerPacket)).take tensorsPerPacket).flatMap (fun t => toLe 4 t.1 ++ toLe 8 t.2.toNat) ++ toLe 2 v.status ++ toLe 2 v.detail)) s2
    s3.judge c.matchIndex
  | _, _ => s

/-! ### Matchplate packets (R387, R391, R394, R413) -/

/-- Take a Matchplate packet of a kind. -/
def State.matchAdmit (s : State) (k : Nat) (pkt : FabPacket) (kind : Nat) : Option State × State :=
  let r := s.admitPacket k 5 pkt
  if !r.2 then (none, r.1)
  else if fld pkt.payload 0 1 ≠ kind ∨ pkt.payload.length < 8 ∨ !zeros pkt.payload 1 3 ∨ (kind ≠ 0 ∧ (!s.pair.active ∨ s.pair.port ≠ k)) then (none, r.1.dropReport k)
  else (some r.1, r.1)

/-- MATCH_PAIR_RECEIVE (R386). -/
def execMatchPairReceive (k : Fin 36) (pkt : FabPacket) (s : State) : Host.Outcome State Fault Refusal :=
  s.run (fun s => match s.matchAdmit k pkt 0 with
    | (some s1, _) => if s1.pair.active then s1 else ({ s1 with pair := { s1.pair with peer := some (k.val, pkt.payload.drop 8) } } : State).pairUp
    | (none, s1) => s1)

/-- MATCH_FORWARD: the follower is sent the lead's next command; an index sent before is dropped (R387). -/
def execMatchForward (k : Fin 36) (pkt : FabPacket) (s : State) : Host.Outcome State Fault Refusal :=
  s.run (fun s => match s.matchAdmit k pkt 1 with
    | (some s1, _) =>
      let i := fld pkt.payload 4 4
      let q := fld pkt.payload 8 2
      if h : q < 4096 then
        if s1.pair.lead ∨ i ≤ s1.pair.lastIndex then s1
        else { s1 with pair := { s1.pair with lastIndex := i, forwarded := s1.pair.forwarded ++ [(i, .ctx ⟨q, h⟩, { bytes := pkt.payload.drop 16 })] } }
      else s1.dropReport k
    | (none, s1) => s1)

/-- MATCH_DIGESTS: the partner's list of a command; the command is compared (R391). -/
def execMatchDigests (k : Fin 36) (pkt : FabPacket) (s : State) : Host.Outcome State Fault Refusal :=
  s.run (fun s => match s.matchAdmit k pkt 2 with
    | (some s1, _) =>
      let i := fld pkt.payload 4 4
      let body := pkt.payload.drop 8
      let n := (body.length - 4) / 12
      let ts := (List.range n).map (fun j => (fld body (12 * j) 4, BitVec.ofNat 64 (fld body (12 * j + 4) 8)))
      if body.length ≠ 12 * n + 4 then s1.dropReport k
      else if i < s1.pair.nextIndex ∧ (s1.compare? i).isNone then s1 else
      let e : Compare := (s1.compare? i).getD { index := i }
      if e.theirs.isSome then s1 else
      let all := e.peerPart ++ ts
      let e1 : Compare := { e with peerPart := all, theirs := if n = tensorsPerPacket then none else some { tensors := all, status := fld body (12 * n) 2, detail := fld body (12 * n + 2) 2 } }
      ({ s1 with pair := { s1.pair with compares := put s1.pair.compares (fun c => c.index == i) e1 } } : State).judge i
    | (none, s1) => s1)

/-- MATCH_TILES: the partner's tile digests of a command (R391). -/
def execMatchTiles (k : Fin 36) (pkt : FabPacket) (s : State) : Host.Outcome State Fault Refusal :=
  s.run (fun s => match s.matchAdmit k pkt 3 with
    | (some s1, _) =>
      let i := fld pkt.payload 4 4
      let body := pkt.payload.drop 8
      let n := body.length / 8
      let ds := (List.range n).map (fun j => BitVec.ofNat 64 (fld body (8 * j) 8))
      if i < s1.pair.nextIndex ∧ (s1.compare? i).isNone then s1 else
      let e : Compare := (s1.compare? i).getD { index := i }
      if e.peerEnd then s1 else
      let e1 : Compare := { e with peerTiles := e.peerTiles ++ ds, peerEnd := decide (n < tilesPerPacket) }
      ({ s1 with pair := { s1.pair with compares := put s1.pair.compares (fun c => c.index == i) e1 } } : State).locate i
    | (none, s1) => s1)

/-- MATCH_UNPAIR_RECEIVE (R394). -/
def execMatchUnpairReceive (k : Fin 36) (pkt : FabPacket) (s : State) : Host.Outcome State Fault Refusal :=
  s.run (fun s => match s.matchAdmit k pkt 4 with
    | (some s1, _) => ({ s1 with pair := { s1.pair with peerUnpair := true } } : State).pairDown
    | (none, s1) => s1)

end Sys2Proof.Machine
end

