-- ==== Sys2Proof/Machine/FarReplies.lean ====
section
/-! DEFINITION. Replies of far memory expanders, timeouts of far requests, expander groups, resolution of exactly-once requests (R239 to R248). -/

namespace Sys2Proof

/-- Whether an expander's capabilities meet R242: every request opcode, 4,096 slots, requests of 64 granules. -/
def Caps.meets (c : Caps) : Bool := (List.range 9).all (fun i => c.ops.toNat.testBit (i + 1)) && decide (4096 ≤ c.xoSlots.toNat) && c.maxLen.toNat == 64

end Sys2Proof

namespace Sys2Proof.Machine
open Sys2Proof

/-! ### Taking replies (R81, R245) -/

/-- A reply leaves the receive pool of its port. -/
def State.takeReply (s : State) (port rop orig tag : Nat) : State :=
  s.takePacket (s.rolePort (24 + port)) (fun bs => fld bs 0 1 == 1 && fld bs 8 1 == rop && fld bs 12 3 == tag + orig * 2 ^ 20)

/-- A reply to no outstanding request is discarded and counted (R81). -/
def State.lateReply (s : State) : State := s.count .cmdLateDiscardCnt 0 0 0 32

/-- A reply answers a request: FROM_CACHE is counted, the request ends, and an answered slot waits for its RELEASE (R245, R247). -/
def State.answered (s : State) (f : Far) (fromCache : Bool) : State :=
  let s1 := (if fromCache then s.count .memFarStat f.orig 0 48 16 else s).dropFar f.orig f.tag
  match f.slot with
  | some n => ({ s1 with memory := { s1.memory with xoDone := s1.memory.xoDone ++ [(f.orig, n)] } } : State).releaseSlots f.orig
  | none => s1

/-- Far data of a transfer has come, or a far write of it is acknowledged; with the last it lands (R186, R205). -/
def State.transferReply (s : State) (id : Nat) (part : Option FarPart) : State :=
  let s1 := s.modTransfer id (fun x => { x with farPending := x.farPending - 1, farData := x.farData ++ part.toList })
  match s1.moves.transfers.find? (·.id == id) with
  | some x => if 0 < x.farPending then s1 else
    (match s1.stream? x.stream with
     | some t => if x.parked.isSome then s1 else (s1.land x t false).pumpJobs
     | none => s1)
  | none => s1

/-- RD_DATA (R245). -/
def execRdData (port : Fin 8) (fromCache : Bool) (orig : Fin 8) (tag : Fin 1048576) (poison : BitVec 64) (data : List Byte) (s : State) : Host.Outcome State Fault Refusal :=
  s.run (fun s0 =>
    let s := s0.takeReply port 0x81 orig tag
    match s.far? orig tag with
    | none => s.lateReply
    | some f => match f.use with
      | .read t a => (s.answered f fromCache).transferReply t (some { addr := a, bytes := data, mask := poison.toNat })
      | .row g a => ((s.answered f fromCache).gatherReply g (some { addr := a, bytes := data, mask := poison.toNat })).pumpJobs
      | .cru u a => (s.answered f fromCache).cruData u a data poison.toNat
      | .move m off => (s.answered f fromCache).moveReply m off data poison.toNat
      | _ => s.lateReply)

/-- MEM_ACK_REPLY: the effect of a write, an add or a release is visible (R246, R247). -/
def execMemAckReply (port : Fin 8) (fromCache : Bool) (orig : Fin 8) (tag : Fin 1048576) (s : State) : Host.Outcome State Fault Refusal :=
  s.run (fun s0 =>
    let s := s0.takeReply port 0x82 orig tag
    match s.far? orig tag with
    | none => s.lateReply
    | some f => match f.use with
      | .write t => (s.answered f fromCache).transferReply t none
      | .add _ x a fmt => (s.answered f fromCache).farAdded x a fmt f.payload
      | .rowAdd _ x a _ => ((s.answered f fromCache).farRowAdded x a f.payload).pumpJobs
      | .out g => ((s.answered f fromCache).gatherReply g none).pumpJobs
      | .log x g i => (s.answered f fromCache).cruLogged x g i true
      | .ring j t => (s.answered f fromCache).ringAcked j t
      | .tail _ => s.answered f fromCache
      | .release l => (s.answered f fromCache).unbusy f.orig l
      | .move m off => (s.answered f fromCache).moveReply m off [] 0
      | _ => s.lateReply)

/-- RETRY_REPLY: the request waits for the lesser of RETRY_US and HINT_CAP, in slow ticks; a transfer is parked (R205, R240). -/
def execRetryReply (port : Fin 8) (orig : Fin 8) (tag : Fin 1048576) (us : BitVec 16) (s : State) : Host.Outcome State Fault Refusal :=
  s.run (fun s0 =>
    let s := s0.takeReply port 0x83 orig tag
    match s.far? orig tag with
    | none => s.lateReply
    | some f =>
      let s1 := s.modFar orig tag (fun f => { f with retryAfter := some (s.now + 25 * min us.toNat (s.field .memFarCfg 0 0 32 16)) })
      let parkOne (t a : Nat) : State := match s1.moves.transfers.find? (·.id == t) with
        | some x => if x.parked.isSome then s1 else s1.park x.stream t .farTier a
        | none => s1
      match f.use with
      | .read t a => parkOne t a
      | .write t => parkOne t f.addr
      | _ => s1)

/-- FAR_RETRY_REISSUE: a request whose delay has passed goes out again to the same address (R205, R240). -/
def execFarRetryReissue (orig : Fin 8) (tag : Fin 1048576) (s : State) : Host.Outcome State Fault Refusal :=
  s.run (fun s => match s.far? orig tag with
    | some f =>
      if f.retryAfter.isNone then s else
      let s1 := (s.modFar orig tag (fun f => { f with retryAfter := none })).farOut f
      let still (t : Nat) : Bool := s1.memory.far.any (fun g => g.retryAfter.isSome && (g.use == .write t || (match g.use with
        | .read u _ => u == t
        | _ => false)))
      let unpark (t : Nat) : State := if still t then s1 else
        let s2 := (s1.modTransfer t (fun x => if x.parked = some .farTier then { x with parked := none } else x)).modCmd f.uid (fun c => { c with resolvedAt := some s1.now })
        ((s2.moves.transfers.filter (fun x => x.id == t)).map (·.stream)).foldl (fun st i => st.showProgress i) s2
      (match f.use with
       | .read t _ => unpark t
       | .write t => unpark t
       | _ => s1)
    | none => s)

/-- A request will not be answered: what waited on it goes on without it. -/
def State.farLost (s : State) (f : Far) : State :=
  match f.use with
  | .caps => ((s.modPort (s.rolePort (24 + f.orig)) (fun p => { p with capsWait := false })).event .portRefused 0xFF (portUnit (s.rolePort (24 + f.orig)))).trainedOff f.orig
  | .log x g i => s.cruLogged x g i false
  | _ => s

/-- ERROR_REPLY: the command that issued the request ends (R239). -/
def execErrorReply (port : Fin 8) (orig : Fin 8) (tag : Fin 1048576) (code : BitVec 16) (s : State) : Host.Outcome State Fault Refusal :=
  s.run (fun s0 =>
    let s := s0.takeReply port 0x84 orig tag
    match s.far? orig tag with
    | none => s.lateReply
    | some f => (((s.count .memFarStat f.orig 0 16 16).answered f false).farLost f).failFar f (errFarFail port code.toNat))

/-! ### Exactly once (R247, R248) -/

/-- Ask any up port of a group what became of a timed-out exactly-once request. -/
def State.queryXo (s : State) (u : Unresolved) : State :=
  match s.farPort u.group with
  | some m =>
    let q : Far := { u.far with op := 9, xo := false, reissue := false, granules := 1, addr := 0, payload := [] }
    ({ s with fabric := { s.fabric with nextNum := s.fabric.nextNum + 1 } } : State).memFlits m s.fabric.nextNum 0 q.bytes
  | none => s

/-- A far request has timed out: the command ends; an exactly-once request that was sent is queried, its slot kept (R239, R248). -/
def State.farExpired (s : State) (orig tag : Nat) : State :=
  match s.far? orig tag with
    | none => s
    | some f =>
      let seq := ((s.cmd? f.uid).map (·.seq)).getD 0
      let s1 := (((s.count .memFarStat f.orig 0 0 16).dropFar f.orig f.tag).farLost f).failFar f (errFarTimeout f.orig f.tag)
      let group := (s.memory.groups.find? (fun g => g.ports.contains f.port)).map (·.group)
      if f.xo ∧ f.slot.isSome then
        let u : Unresolved := { far := f, seq := seq, group := group.getD ((s.memory.groups.find? (fun g => g.epoch == f.epoch)).map (·.group) |>.getD 0) }
        ({ s1 with memory := { s1.memory with unresolved := s1.memory.unresolved ++ [u] } } : State).queryXo u
      else s1

/-- FAR_TIMEOUT: evaluated at the end of the tick, after the replies that arrive in it (R80, R239). -/
def execFarTimeout (orig : Fin 8) (tag : Fin 1048576) (s : State) : Host.Outcome State Fault Refusal :=
  s.run (fun s => s.expire (.far orig tag))

/-- XO_STATE: the answer decides how the granules are logged; one that is UNKNOWN under the same EPOCH leaves them unresolved (R248). -/
def execXoState (port : Fin 8) (orig : Fin 8) (tag : Fin 1048576) (answer : XoAnswer) (s : State) : Host.Outcome State Fault Refusal :=
  s.run (fun s0 =>
    let s := s0.takeReply port 0x89 orig tag
    let mine (u : Unresolved) : Bool := u.far.orig == orig.val && u.far.tag == tag.val
    match s.memory.unresolved.find? mine with
    | none => s.lateReply
    | some u =>
      let lost := s.epochOf u.group ≠ u.far.epoch
      if answer = .unknown ∧ ¬ lost then s else
      let (n, sd) := s.draw
      let applied := if lost then n % 2 = 1 else answer = .applied
      let s1 : State := if lost then sd else s
      let s2 : State := { s1 with memory := { s1.memory with unresolved := s1.memory.unresolved.filter (fun u => !mine u), xoDone := s1.memory.xoDone ++ (u.far.slot.map (fun n => (u.far.orig, n))).toList } }
      let s3 := if !applied then s2 else match u.far.use with
        | .add _ x a fmt => s2.farAdded x a fmt u.far.payload
        | .rowAdd _ x a _ => s2.farRowAdded x a u.far.payload
        | _ => s2
      let outcome := if lost then 0 else if answer = .applied then 1 else 2
      ((s3.event .xoResolved 0xFF 0 (toLe 4 u.seq ++ toLe 4 tag.val ++ toLe 1 outcome)).releaseSlots orig).pumpJobs)

/-- A slot may be used again 1 ms after its reply (R247). -/
def State.slotExpired (s : State) (orig slot : Nat) : State :=
    let waits := s.memory.far.any (fun f => f.orig == orig && f.slot == some slot) || s.memory.unresolved.any (fun u => u.far.orig == orig && u.far.slot == some slot)
    if waits then s else s.unbusy orig [slot]

/-- XO_SLOT_TIMEOUT, evaluated at the end of its tick (R80, R247). -/
def execXoSlotTimeout (orig : Fin 8) (slot : Fin 4096) (s : State) : Host.Outcome State Fault Refusal := s.run (fun s => s.expire (.slot orig slot))

/-! ### Groups (R242) -/

/-- Far memory has come into reach: parked transfers are sent again, what waited for a port goes on, and unresolved requests are queried (R205, R248). -/
def State.farUp (s : State) : State :=
  let s1 := ((s.relaunch (fun x => x.parked == some .farTier && x.farPending == 0)).resumeStreams)
  let s2 := s1.cruPumpAll
  (s2.memory.unresolved.foldl State.queryXo s2).pumpJobs

/-- CAPS_DATA: a port whose answer comes within 1 ms and meets R242 enters service, during start-up with the others; one that does not is reported. -/
def execCapsData (port : Fin 8) (caps : Caps) (s : State) : Host.Outcome State Fault Refusal :=
  s.run (fun s0 => match s0.memory.far.find? (fun f => f.use == .caps && f.orig == port.val) with
    | none => s0.lateReply
    | some f =>
      let s := (s0.takeReply port 0x86 f.orig f.tag).dropFar f.orig f.tag
      let k := s.rolePort (24 + port)
      if !(s.port k).capsWait then s.lateReply
      else if !caps.meets ∨ f.issuedAt + 25000 < s.now then (s.farLost f).farUp else
      let e : Expander := { id := caps.expander, group := port, ports := [port.val], capGib := caps.capGib.toNat, epoch := caps.epoch.toNat, xoSlots := caps.xoSlots.toNat }
      let s1 := s.modPort k (fun p => { p with capsWait := false })
      let held : State := { s1 with memory := { s1.memory with capsHeld := s1.memory.capsHeld ++ [e] } }
      (held.trainedOff port).farUp)

/-- A memory port has not finished its training within 25 ms of start-up (R242); one that has is waited for until its CAPS is answered. -/
def State.trainingExpired (s : State) (m : Nat) : State :=
    let k := s.rolePort (24 + m)
    if s.memory.trainWait.contains m ∧ !(s.port k).capsWait then (s.trainedOff m).farUp else s

/-- TRAINING_LIMIT_EXPIRY, evaluated at the end of its tick (R80, R242). -/
def execTrainingLimitExpiry (m : Fin 8) (s : State) : Host.Outcome State Fault Refusal := s.run (fun s => s.expire (.training m))

/-- PONG: no rule has the TK9 send a PING, so it answers no request (R81, R244). -/
def execPong (port : Fin 8) (orig : Fin 8) (tag : Fin 1048576) (s : State) : Host.Outcome State Fault Refusal :=
  s.run (fun s0 =>
    let s := s0.takeReply port 0x88 orig tag
    match s.far? orig tag with
    | some f => if f.op = 8 then s.dropFar orig tag else s.lateReply
    | none => s.lateReply)

end Sys2Proof.Machine
end

