-- ==== Sys2Proof/Machine/Tenants.lean ====
section
/-! DEFINITION. Partitions and contexts: carving, resets, creation, destruction and pre-emption of contexts (R78, R493 to R499). -/

namespace Sys2Proof.Machine
open Sys2Proof

/-- Return the instances of registers that a test picks to their reset values. -/
def State.resetRegs (s : State) (p : Reg → Nat → Bool) : State :=
  s.clearRegs (fun off => match Reg.at off with
    | some (r, i, _) => p r i
    | none => false)

/-! ### Cores that work has left -/

/-- Cores without a program drop their pending switch, and retiring ones hand their work on (R483); free cores resume what is saved there, and batches and jobs that wait for cores start. -/
def State.settleCores (s : State) : State :=
  let idle := (s.cores.cores.filter (fun k => k.run.isNone)).map (·.id)
  let s1 : State := { s with cores := { s.cores with cores := s.cores.cores.map (fun (k : Core) => if k.run.isNone then { k with switchPending := false } else k) } }
  let s2 := idle.foldl (fun st c => if (st.core c).user.isNone then (st.coreDrained c).resumeCore c else st) s1
  (s2.pumpFills).pumpJobs

/-- QUEUE_START (R49, R78): back to RUNNING with DB_OVERRUN cleared; its stopped commands go on from their saved state. -/
def bodyQueueStart : Body := fun c s => do
  noTicket c
  let q ← queueArg c s
  let s1 := s.modQueue q (fun e => { e with state := .running, stopping := false, overrun := false, running := e.running.map (fun k => { k with interim := false, halt := false }) })
  .ok (((List.range 40).foldl (fun st c => st.resumeCore c) s1).pumpJobs.cruPumpAll, some ok)

def execQueueStart := opcodeStep 0x0103 false false bodyQueueStart

/-! ### Contexts (R496 to R499) -/

/-- The save area of a context on n cores, in bytes (R497). -/
def saveArea (n : Nat) : Nat := 12 * 2 ^ 20 * n + 2 * 2 ^ 20

/-- The core positions of a partition that have a core. -/
def Part.inService (k : Part) : Nat := k.positions.length - k.lost.length

/-- The live contexts of a partition. -/
def State.partCtxs (s : State) (p : Nat) : List Ctx := s.tenants.ctxs.filter (·.part == p)

/-- The registers that belong to a context. -/
def ctxReg : Reg → Bool
  | .prtCtx | .cruCtxScale | .cruDigestLast | .detCtx | .detLedgerRun | .detLedgerRefresh | .detLedgerRetry => true
  | _ => false

/-- CTX_CREATE (R496, R497, R570); a live context of a partition that the function does not serve is judged after the format. In a paired partition the context begins in Chill mode (R373). -/
def bodyCtxCreate : Body := fun c s => do
  noTicket c
  let x := c.u 40 1
  let p := c.u 41 1
  need (!((s.ctx? x).map (fun k => serves c.fn k.part)).getD false) (errFormat 40)
  need (decide (p < 32)) (errFormat 41)
  reserved c 42 2
  need (decide (c.u 44 4 < 2 ^ 20) && !s.tenants.ctxs.any (fun k => k.pasid.toNat == c.u 44 4)) (errFormat 44)
  reserved c 48 16
  match s.ctx? x with
  | some _ => fail (errPartition 40)
  | none =>
    need (serves c.fn p) (errPartition 41)
    match s.part? p with
    | none => fail (errNofit 17 0)
    | some k =>
      need (decide ((s.partCtxs p).length < k.carve.contexts)) (errNofit 17 0)
      let n := saveArea k.inService
      let left := (s.leftOf k).t1
      need (decide (n ≤ left)) (errNofit 8 (left / pageBytes))
      let e : Ctx := { id := x, part := p, pasid := BitVec.ofNat 20 (c.u 44 4), keyWord := Config.drbg s.free, saveBytes := n, chill := s.pairedPart p }
      let s1 := s.resetRegs (fun r i => ctxReg r && i == x)
      .ok ({ s1 with free := s1.free + 1, tenants := { s1.tenants with ctxs := s1.tenants.ctxs ++ [e] } }, some ok)

/-- Forget the comparisons of commands that are gone, and what they wrote. -/
def State.dropCompares (s : State) (uids : List Nat) : State :=
  { s with pair := { s.pair with compares := s.pair.compares.filter (fun k => !uids.contains k.uid), writes := s.pair.writes.filter (fun w => !uids.contains w.uid) } }

/-- Destroy a context (R499): its commands end with ERR_ABORTED, its queues go, its tickets are released, its objects and save area are freed. -/
def State.destroyCtx (s : State) (x : Nat) : State :=
  let mine (e : Queue) : Bool := decide (64 ≤ e.id.key) && e.id.owner == x
  let qs := (s.queues.filter mine).map (fun (e : Queue) => e.id)
  let uids := ((s.queues.filter mine).flatMap (·.running)).map (·.uid)
  let s1 := s.discard (fun v => (v.coll.map (fun c => c.2 == x)).getD false)
  let s2 := qs.foldl State.abortQueue s1
  let s3 : State := { s2 with queues := s2.queues.filter (fun e => !qs.contains e.id) }
  let acting := (s3.queues.flatMap (·.running)).filter (fun c => c.admin && c.ctx == x && actsOnHeader c.opcode && c.reply.isNone)
  let s4 := acting.foldl (fun st c => st.failCmd c.uid (errAborted c.progress)) s3
  let slots := (s4.tenants.slots.filter (fun t => (t.live.map (fun k => k.ctx == x)).getD false)).map (fun t => (t.part, t.slot))
  let s5 := slots.foldl (fun st t => st.release t.1 t.2) s4
  let s6 := ((s5.resetRegs (fun r i => ctxReg r && i == x)).freeObjs x ((s5.memory.objs.filter (·.ctx == x)).map (·.handle))).dropCompares uids
  ({ s6 with
    tenants := { s6.tenants with ctxs := s6.tenants.ctxs.filter (·.id != x) },
    cru := { s6.cru with
      groups := s6.cru.groups.filter (·.ctx != x), streams := s6.cru.streams.filter (·.ctx != x),
      log := s6.cru.log.filter (·.ctx != x), digests := s6.cru.digests.filter (fun d => !(uids.contains d.uid && d.ctx == x)) },
    memory := { s6.memory with staged := s6.memory.staged.filter (·.ctx != x) },
    embed := { s6.embed with scratch := s6.embed.scratch.filter (·.ctx != x), yarrow := s6.embed.yarrow.filter (·.ctx != x) },
    cores := { s6.cores with cores := s6.cores.cores.map (fun (k : Core) =>
      let k1 : Core := { k with saved := k.saved.filter (fun (v : Saved) => v.ctx != x) }
      if k.storeCtx = some x then { k1 with store := {}, storeCtx := none } else k1) } } : State).settleCores

/-- CTX_DESTROY (R499). -/
def bodyCtxDestroy : Body := fun c s => do
  noTicket c
  let x ← s.liveCtx (c.u 40 1) 40
  reserved c 41 23
  servedCtx c.fn x 40
  .ok (s.destroyCtx x.id, some ok)

/-! ### Pre-emption (R74, R77, R78) -/

/-- Evict contexts: their RUNNING queues enter PREEMPTED, their PREEMPTIBLE commands stop at the next pre-emption point, and their run-ahead collectives are discarded (R78, R444). -/
def State.evict (s : State) (of_ : Nat → Bool) : State :=
  let s1 : State := { s with queues := s.queues.map (fun (e : Queue) => if 64 ≤ e.id.key ∧ of_ e.id.owner ∧ e.state = .running then { e with state := .preempted } else e) }
  let s2 := s1.discard (fun v => (v.coll.map (fun c => of_ c.2)).getD false)
  (((s2.stopCmds (fun c => !c.admin && of_ c.ctx) true).pumpJobs).cruPumpAll).settleStops

/-- Whether the commands of a context's queues that started before a CTX_PREEMPT or PART_CARVE have stopped, or ended (R74, R440). -/
def State.quiet (s : State) (order : Nat) (of_ : Nat → Bool) (evict : Bool) : Bool :=
  (s.queues.flatMap (·.running)).all (fun c =>
    c.admin || !of_ c.ctx || decide (order ≤ c.order) ||
    (c.reply.isNone && match c.work with
     | .coll _ => false
     | w => !w.preempts ||
       (c.preemptible && (if evict then c.interim else
         !s.cores.cores.any (fun k => k.switchPending && (k.run.map (fun r => (s.launchCmds r.launch).contains c.uid)).getD false) &&
         !s.moves.streams.any (fun t => t.uid == c.uid && t.stopping && !t.stopped) && !s.embed.gathers.any (fun g => g.uid == c.uid && g.stopping && !g.stopped) && !s.cru.jobs.any (fun q => q.uid == c.uid && q.stopping && !q.stopped)))))

/-- CTX_PREEMPT (R77, R78): it completes once the context's commands have stopped. -/
def bodyCtxPreempt : Body := fun c s => do
  noTicket c
  let x ← s.liveCtx (c.u 40 1) 40
  need (decide (c.u 41 1 ≤ 1)) (errFormat 41)
  reserved c 42 22
  servedCtx c.fn x 40
  let evict := c.u 41 1 == 1
  let s1 := if evict then s.evict (· == x.id) else ((s.stopCmds (fun k => !k.admin && k.ctx == x.id) false).pumpJobs).cruPumpAll
  if s1.quiet c.order (· == x.id) evict then .ok (s1, some ok)
  else .ok (s1.modCmd c.uid (fun k => { k with work := .preempt x.id evict }), none)

/-! ### Gating (R536, R537) -/

/-- Whether a core is out of service (R119). -/
def State.offline (s : State) (c : Nat) : Bool :=
  let st := (s.unit (coreUnit c)).state
  st == .spare || st == .retired || st == .quarantined

/-- Whether a core is power-gated (R537). -/
def State.gatedCore (s : State) (c : Nat) : Bool := (s.core c).gated || (s.corePart c).isNone || s.offline c

/-- The PLL of a cluster whose cores are all gated stops. -/
def State.stopPlls (s : State) : State :=
  (List.range 8).foldl (fun st k =>
    if (List.range 5).all (fun i => st.gatedCore (5 * k + i)) then st.modClock k (fun c => { c with cur := 0, starting := false }) else st) s

/-! ### Carving (R493, R494, R498) -/

/-- The free run that starts at a base, among ranges (base, length) of a space. -/
def runAt (total : Nat) (used : List (Nat × Nat)) (b : Nat) : Nat :=
  if used.any (fun u => decide (u.1 ≤ b ∧ b < u.1 + u.2)) then 0
  else ((used.filter (fun u => u.2 != 0 && decide (b ≤ u.1))).map (·.1)).foldl min total - b

/-- The bases at which a free run starts. -/
def runBases (used : List (Nat × Nat)) : List Nat := insSort id (0 :: used.map (fun u => u.1 + u.2))

/-- The longest free run. -/
def longestRun (total : Nat) (used : List (Nat × Nat)) : Nat := ((runBases used).map (runAt total used)).foldl max 0

/-- The lowest base at which n fit. -/
def lowestFit (total : Nat) (used : List (Nat × Nat)) (n : Nat) : Nat :=
  if n = 0 then 0 else ((runBases used).find? (fun b => decide (n ≤ runAt total used b))).getD 0

/-- The extended record of PART_CARVE. -/
def carveAt (c : Running) : Carve :=
  { coreMask := c.u 64 4, barriers := c.u 68 2, buckets := c.u 70 2, t1 := c.u 72 8, t2 := c.u 80 8, t3 := c.u 88 8, queues := c.u 96 2, contexts := c.u 98 2,
    mports := c.u 100 1, fdirs := c.u 101 1, linkKey := c.u 102 1, yieldLimit := c.u 104 4 }

/-- The T3 pages of the expander groups that are up. -/
def State.t3Pages (s : State) : Nat := sumOf (fun g => if (s.farPort g.group).isSome then g.capGib * 512 else 0) s.memory.groups

/-- The measured bytes of key slots and LINK_KEYs (R505). -/
def State.keyBytes (s : State) : List Byte :=
  ((List.range 64).map (fun n => BitVec.ofNat 8 (if (mget s.sec.keys n).isSome then 1 else 0))) ++
  ((List.range 32).map (fun p => BitVec.ofNat 8 (s.linkKey p)))
def State.measureKeys (s : State) : State := { s with sec := { s.sec with measurements := mset s.sec.measurements 5 (Config.measure s.keyBytes) } }

/-- Check the quotas of a carve, field by field in record order (R493). -/
def State.carveFits (s : State) (p : Nat) (k : Carve) (cores : Nat) : Except Stop Unit := do
  let others := s.tenants.parts.filter (·.id != p)
  let h := s.heldTickets p
  let save := (s.partCtxs p).length * saveArea cores
  let check (code asked free held : Nat) : Except Stop Unit := do
    need (decide (asked ≤ free)) (errNofit code free)
    need (decide (held ≤ asked)) (errNofit code held)
  let pages (code asked free held : Nat) : Except Stop Unit := check code (asked / pageBytes) free (cdiv held pageBytes)
  check 3 k.barriers (longestRun 1024 (others.map (fun o => (o.barBase, o.carve.barriers)))) (sumOf (·.decl.barriers) h)
  check 16 k.buckets (longestRun 16384 (others.map (fun o => (o.bktBase, o.carve.buckets)))) 0
  pages 8 k.t1 (8 * tierPages false 0 - sumOf (fun o => o.carve.t1 / pageBytes) others) (sumOf (·.decl.t1) h + save)
  pages 9 k.t2 (sumOf (tierPages true) (List.range 8) - sumOf (fun o => o.carve.t2 / pageBytes) others) (sumOf (·.decl.t2) h)
  pages 10 k.t3 (s.t3Pages - sumOf (fun o => o.carve.t3 / pageBytes) others) (sumOf (·.decl.t3) h)
  check 18 k.queues (4096 - sumOf (fun o => o.carve.queues) others) (s.partQueues p).length
  check 17 k.contexts (256 - sumOf (fun o => o.carve.contexts) others) (s.partCtxs p).length

/-- A carve has taken effect on every core: the save areas have their new size (R498). -/
def State.resizeSaves (s : State) (p : Nat) : State :=
  let n := ((s.part? p).map (fun k => saveArea k.inService)).getD 0
  { s with tenants := { s.tenants with ctxs := s.tenants.ctxs.map (fun (x : Ctx) => if x.part = p then { x with saveBytes := n } else x) } }

/-- Replace every field of a partition, raise its ticket generations, and reset what a change of it resets (R70, R446, R493); cores of no partition are gated (R537). -/
def State.recarve (s : State) (p : Nat) (k : Carve) : State :=
  let others := s.tenants.parts.filter (·.id != p)
  let old := s.part? p
  let e : Part :=
    { id := p, carve := k, barBase := lowestFit 1024 (others.map (fun o => (o.barBase, o.carve.barriers))) k.barriers,
      bktBase := lowestFit 16384 (others.map (fun o => (o.bktBase, o.carve.buckets))) k.buckets,
      carves := (old.map (·.carves)).getD 0 + 1, slotWait := (old.map (·.slotWait)).getD [], barEpochs := (old.map (·.barEpochs)).getD [],
      lost := (setBits 32 k.coreMask).filter (fun q => (s.posCore q).isNone) }
  let s1 := s.resetRegs (fun r i => (r == .colRing && i == p) || (r == .colCollStat && i == p))
  let s2 : State := { s1 with
    tenants := { s1.tenants with
      parts := put s1.tenants.parts (·.id == p) e,
      slots := s1.tenants.slots.map (fun (t : Slot) => if t.part = p then { t with gen := t.gen + 1 } else t) },
    fabric := { s1.fabric with linkSeqs := s1.fabric.linkSeqs.filter (fun q => q.1.1 != p) } }
  ((s2.setReg .embYarrowCfg p 0 (e.bktBase + k.buckets * 2 ^ 16)).measureKeys).stopPlls

/-- PART_CARVE (R493, R494, R498): one that takes cores stops the partition's commands and completes once they have stopped. -/
def bodyPartCarve : Body := fun c s => do
  plenIs c 64
  noTicket c
  let p := c.u 40 1
  need (decide (p < 32)) (errFormat 40)
  reserved c 41 23
  let k := carveAt c
  let others := s.tenants.parts.filter (·.id != p)
  need (!others.any (fun o => (setBits 32 k.coreMask).any (fun q => o.carve.coreMask.testBit q)) && !(k.coreMask == 0 && !(s.partCtxs p).isEmpty)) (errFormat 64)
  need (decide (k.barriers ≤ 1024)) (errFormat 68)
  need (decide (k.buckets ≤ 16384)) (errFormat 70)
  need (k.t1 % pageBytes == 0) (errFormat 72)
  need (k.t2 % pageBytes == 0) (errFormat 80)
  need (k.t3 % pageBytes == 0) (errFormat 88)
  need (decide (k.queues ≤ 4096)) (errFormat 96)
  need (decide (k.contexts ≤ 256)) (errFormat 98)
  need (decide (k.fdirs < 64)) (errFormat 101)
  need (k.linkKey == 0 || (decide (k.linkKey < 64) && (mget s.sec.keys k.linkKey).isSome)) (errFormat 102)
  reserved c 103 1
  reserved c 108 20
  let cores := ((setBits 32 k.coreMask).filter (fun q => (s.posCore q).isSome)).length
  s.carveFits p k cores
  let was := ((s.part? p).map Part.positions).getD []
  let s1 := s.recarve p k
  if was.all (fun q => k.coreMask.testBit q) then .ok (s1.resizeSaves p, some (okProgress 0)) else
  let of_ (x : Nat) : Bool := ((s1.ctx? x).map (fun y => y.part == p)).getD false
  let s2 := s1.evict of_
  if s2.quiet c.order of_ true then .ok (s2.resizeSaves p, some ok)
  else .ok (s2.modCmd c.uid (fun r => { r with work := .carve p }), none)

/-! ### PART_RESET (R495) -/

/-- The registers of a core that a partition reset returns to reset values (R120, R153, R179, R216, R301, R330). -/
def coreReg : Reg → Bool
  | .coreStat | .corePc | .corePhaseCnt | .coreSigsat | .coreBankConflict | .coreSig
  | .arrStat | .arrOps | .arrRes | .arrHold | .arrFeedStall
  | .vecStat | .vecOps | .vecFlush | .vecRowstat | .vecCvt
  | .strStat | .strOutst | .strPark | .strFaultAddr | .strXfer | .strProv
  | .cmpExp | .cmpLast | .embStat | .embRows | .embOutst | .embBadid | .embCoal => true
  | _ => false

/-- The registers of a partition that its reset returns to reset values (R120, R301, R330, R370, R446). -/
def partReg : Reg → Bool
  | .coreStagger | .cmpRefused | .embYarrowHm | .embYarrowStat | .cruDigestStat | .colCollStat => true
  | _ => false

/-- The pair is dissolved here: its port goes down and leaves Matchplate, so that the partner sees the pair break (R393, R396). -/
def State.dissolve (s : State) : State :=
  let k := s.pair.port
  let s1 := s.modPort k (fun p => { p with pairLink := false, state := .down, windowAt := none, proposal := none, heard := false, tx := [], replay := [] })
  { s1 with pair := {}, queues := s1.queues.map (fun (q : Queue) => { q with running := q.running.map (fun (c : Running) => { c with matchIndex := 0 }) }) }

/-- Reset a partition: every context is destroyed, its registers return, its streams close, its Yarrow entries go, its link sequences restart; the carving stays. -/
def State.resetPart (s : State) (p : Nat) : State :=
  let js := (s.cru.streams.filter (fun k => ((s.ctx? k.ctx).map (fun x => x.part == p)).getD false)).map (·.j)
  let cores := ((s.part? p).map s.partCores).getD []
  let s1 := if s.pairedPart p then s.dissolve else s
  let s2 := ((s1.partCtxs p).map (·.id)).foldl State.destroyCtx s1
  let left := (s2.queues.flatMap (·.running)).filter (fun c => c.admin && actsOnHeader c.opcode && c.part == p && c.reply.isNone && (s.ctx? c.ctx).isSome)
  let s3 := left.foldl (fun st c => st.failCmd c.uid (errAborted c.progress)) s2
  let s4 := s3.resetRegs (fun r i => (coreReg r && cores.contains i) || (partReg r && i == p) || ((r == .cruCampionHead || r == .cruCampionStat) && js.contains i))
  { s4 with
    cores := { s4.cores with cores := s4.cores.cores.map (fun (k : Core) => if cores.contains k.id then { k with last := none, arrays := k.arrays.map (fun (a : Array) => { a.clear with last := false }) } else k) },
    embed := { s4.embed with yarrow := s4.embed.yarrow.filter (·.part != p) },
    cru := { s4.cru with digests := s4.cru.digests.filter (·.part != p) },
    fabric := { s4.fabric with
      linkSeqs := s4.fabric.linkSeqs.filter (fun q => q.1.1 != p), stalled := s4.fabric.stalled.filter (fun q => q.2.part.val != p),
      bars := s4.fabric.bars.filter (·.part != p) } }

/-- PART_RESET (R495): it starts after a carve of the partition that is running. -/
def bodyPartReset : Body := fun c s => do
  noTicket c
  let p := c.u 40 1
  need (decide (p < 32)) (errFormat 40)
  reserved c 41 23
  if (s.queues.flatMap (·.running)).any (fun k => k.work == .carve p && k.reply.isNone) then .error .held else
  .ok (s.resetPart p, some ok)

def execCtxCreate := opcodeStep 0x0110 true false bodyCtxCreate
def execCtxDestroy := opcodeStep 0x0111 true false bodyCtxDestroy
def execCtxPreempt := opcodeStep 0x0112 true false bodyCtxPreempt
def execPartCarve := opcodeStep 0x0120 true true bodyPartCarve
def execPartReset := opcodeStep 0x0121 true true bodyPartReset

end Sys2Proof.Machine
end

