-- ==== Sys2Proof/Machine/Security.lean ====
section
/-! DEFINITION. Firmware updates, key slots and the management endpoint (R486, R487, R501 to R508). -/

namespace Sys2Proof.Machine
open Sys2Proof

/-! ### Firmware (R486, R487) -/

def hccUnit (h : Nat) : Nat := 0x05000000 + h

/-- The host-class cores that a test of their state picks, in ascending order. -/
def State.hccs (s : State) (p : UnitState → Bool) : List Nat := (List.range 18).filter (fun h => p (s.unit (hccUnit h)).state)

/-- The version that the lowest active host-class core runs. -/
def State.fwVersion (s : State) : Nat := mgetD s.fw.versions (((s.hccs (· == .active)).head?).getD 0) 0

/-- Load a version into host-class cores. -/
def loadCores (m : Map Nat Nat) (l : List Nat) (v : Nat) : Map Nat Nat := l.foldl (fun a h => mset a h v) m

/-- Write an image into the inactive slot: it is the image last staged (R486 steps 1 and 2). -/
def State.stageImage (s : State) (bs : List Byte) : State :=
  { s with fw := { s.fw with staged := some bs, slots := if s.fw.slot = 0 then (s.fw.slots.1, bs) else (bs, s.fw.slots.2) } }

/-- A roll's end: every active and spare core runs the staged image, and the ledger names its slot (R486 steps 3 to 6). -/
def State.finishRoll (s : State) : State :=
  let bs := s.fw.staged.getD []
  let v := Config.imageVersion bs
  let cores := s.hccs (fun u => u == .active || u == .spare)
  let slot := 1 - s.fw.slot
  let s1 := s.ledgerAdd { kind := 5, seq := 0, what := BitVec.ofNat 64 slot }
  { s1 with
    fw := { s1.fw with versions := loadCores s1.fw.versions cores v, stat := 3, coresNew := cores.length, rollUid := none, slot := slot, failures := 0, rollNext := 0 },
    sec := { s1.sec with measurements := mset s1.sec.measurements 2 (Config.measure bs) } }

/-- Whether an image passes the checks of R486 on this device. -/
def State.imageTaken (s : State) (bs : List Byte) : Bool := Config.imageOk bs && decide (Config.imageAccepts bs ≤ s.fwVersion)

/-- FW_UPDATE (R486): the image is checked and staged; a roll then runs until the command completes. -/
def bodyFwUpdate : Body := fun c s => do
  noTicket c
  let (host, addr) ← imageField c 40
  let mode := c.u 52 1
  need (mode == 2 || (decide (64 ≤ c.u 48 4 ∧ c.u 48 4 ≤ 8388608))) (errFormat 48)
  need (decide (mode ≤ 2) && s.fw.rollUid.isNone && !(mode == 2 && s.fw.staged.isNone)) (errFormat 52)
  reserved c 53 11
  let begin_ (t : State) : State :=
    ({ t with fw := { t.fw with rollUid := some c.uid, stat := if mode = 0 then 1 else 2, rollNext := 0, failures := 0, prior := t.fw.versions, coresNew := 0 } } : State).modCmd c.uid (fun k => { k with work := .roll })
  if mode = 2 then .ok (begin_ s, none) else
  let bs ← s.input c host addr (c.u 48 4)
  if !Config.imageOk bs then .ok ((s.sawInput c host addr (c.u 48 4)).count .prtSecStat 0 0 16 16, some (errFormat 40))
  else if !s.imageTaken bs then fail (errFormat 40)
  else .ok (begin_ ((s.sawInput c host addr (c.u 48 4)).stageImage bs), none)

/-- The update that runs ends well. -/
def State.settleRoll (s : State) (c : Running) : State :=
  if s.fw.rollUid ≠ some c.uid then s
  else if c.u 52 1 = 0 then ({ s with fw := { s.fw with rollUid := none, stat := 0 } } : State).reply c.uid ok
  else s.finishRoll.reply c.uid (okProgress (s.hccs (· == .active)).length)

/-- A core fails to rejoin a roll (R487): it is retired and a spare takes its place with the new image; a second failure reverses the roll. -/
def State.rejoinExpired (s : State) (h : Nat) : State :=
    match s.fw.rollUid.bind s.cmd? with
    | some c =>
      if s.fw.stat ≠ 2 ∨ h < s.fw.rollNext ∨ (s.unit (hccUnit h)).state ≠ .active then s else
      let v := Config.imageVersion (s.fw.staged.getD [])
      if s.fw.failures = 0 then
        let s1 := s.retireUnit (bucketClass (hccUnit h)) (hccUnit h) false
        let new := ((s1.unit (hccUnit h)).replacement.map (fun d => d % 64)).toList
        let done := (s.hccs (· == .active)).filter (fun x => decide (x < h))
        let vs := loadCores s1.fw.versions (done ++ new) v
        ({ s1 with fw := { s1.fw with versions := vs, failures := 1, rollNext := h + 1, coresNew := (done ++ new).length } } : State).modCmd c.uid (fun k => { k with progress := done.length })
      else
        ({ s with fw := { s.fw with versions := s.fw.prior, coresNew := 0 } } : State).failCmd c.uid (errFormat 40)
    | none => s

/-- FW_REJOIN_TIMEOUT, evaluated at the end of its tick (R80, R487). -/
def execFwRejoinTimeout (h : Fin 18) (s : State) : Host.Outcome State Fault Refusal := s.run (fun s => s.expire (.rejoin h))

/-! ### The management endpoint (R503, R505 to R508) -/

def State.answer (s : State) (a : MgmtAnswer) : State := { s with sec := { s.sec with answer := a } }

/-- The measurement at an index (R505): the boot ROM and the fuses never change. -/
def State.measurement (s : State) (i : Nat) : Nat := match mget s.sec.measurements i with
  | some v => v
  | none => Config.measure [BitVec.ofNat 8 i]

/-- The FRU data that the endpoint shows over PLDM type 4, at any time (R507, R566, R567). -/
def fruData : FruData := { unique := Config.unique, partner := Config.partner }

/-- The certificate of slot 0 names the FRU data's own number in the subject serial number of its leaf (R506, R566). -/
def State.showCertificate (s : State) : State := s.answer (.certificate fruData.unique)

/-- SPDM_REQUEST (R506). -/
def execSpdmRequest (req : SpdmReq) (s : State) : Host.Outcome State Fault Refusal :=
  s.runAo (fun s =>
    let inSession (n : Nat) (s' : State) : State := if s.sec.sessions.contains n then s' else s.answer .refused
    match req with
    | .keyExchange => match firstFree 4 s.sec.sessions with
      | some n => ({ s with sec := { s.sec with sessions := s.sec.sessions ++ [n] } } : State).answer (.session n)
      | none => s.answer .refused
    | .endSession n => inSession n (({ s with sec := { s.sec with sessions := s.sec.sessions.filter (· != n.val) } } : State).answer .done)
    | .keyUpdate n => inSession n (s.answer .done)
    | .heartbeat n => inSession n (s.answer .done)
    | .getMeasurements i => if 1 ≤ i.val ∧ i.val ≤ 5 then s.answer (.measurement (s.measurement i)) else if i.val = 0 ∨ i.val = 255 then s.answer .done else s.answer .refused
    | .getCertificate n => if n.val = 0 then s.showCertificate else s.answer .refused
    | .challenge => s.answer .done
    | .chunk => s.answer .done
    | .unsupported => s.answer .refused)

/-- KEY_SLOT_SET (R503): in an open session, a slot that no carved partition names is loaded or emptied. -/
def execKeySlotSet (session : Fin 4) (slot : Fin 64) (key : Option (List Byte)) (s : State) : Host.Outcome State Fault Refusal :=
  s.runAo (fun s =>
    if !s.sec.sessions.contains session.val ∨ slot.val = 0 then s.answer .refused
    else if s.tenants.parts.any (fun p => p.carve.coreMask != 0 && p.carve.linkKey == slot.val) then s.answer .inUse
    else
      let ks := match key with
        | some k => mset s.sec.keys slot.val k
        | none => mdel s.sec.keys slot.val
      (({ s with sec := { s.sec with keys := ks } } : State).measureKeys).answer .done)

/-- PLDM_FIRMWARE_UPDATE: the sequence of FW_UPDATE in mode ROLL (R508); while start-up stands at a FAIL it writes the slot alone (R550). -/
def execPldmFirmwareUpdate (image : List Byte) (s : State) : Host.Outcome State Fault Refusal :=
  s.runAo (fun s =>
    if s.fw.rollUid.isSome then s.answer .alreadyInUpdateMode
    else if !Config.imageOk image then (s.count .prtSecStat 0 0 16 16).answer .refused
    else if s.boot.fail ≠ 0 then (s.stageImage image).answer .done
    else if !s.imageTaken image then s.answer .refused
    else ((s.stageImage image).finishRoll).answer .done)

def execFwUpdate := opcodeStep 0x0904 true true bodyFwUpdate

end Sys2Proof.Machine
end

