-- ==== Sys2Proof/Machine/Commands.lean ====
section
/-! DEFINITION. Commands from queues: dispatch by opcode, completion, timeouts, packets that peers forward (R54 to R66, R79, R85, R208, R413). -/

namespace Sys2Proof.Machine
open Sys2Proof

/-! ### Opcodes (R59) -/

/-- The opcodes: number, admin queues only, PF only, body. -/
def opcodes : List (Nat × Bool × Bool × Body) :=
  [(0x0101, true, false, bodyQueueCreate), (0x0102, true, false, bodyQueueDestroy), (0x0103, false, false, bodyQueueStart), (0x0104, false, false, bodyQueueStop),
   (0x0110, true, false, bodyCtxCreate), (0x0111, true, false, bodyCtxDestroy), (0x0112, true, false, bodyCtxPreempt), (0x0113, true, false, bodyCtxSetMode),
   (0x0120, true, true, bodyPartCarve), (0x0121, true, true, bodyPartReset), (0x0130, false, false, bodyNop), (0x0131, false, false, bodyTicketRelease)] ++
  [(0x0201, false, false, bodyObjCreate), (0x0202, false, false, bodyObjFree), (0x0203, false, false, bodyObjSetPolicy), (0x0204, false, false, bodyObjQuery),
   (0x0301, false, false, bodyProgLoad), (0x0302, false, false, bodyProgLaunch), (0x0303, false, false, bodyPlanLoad), (0x0304, false, false, bodyPlanLaunch),
   (0x0310, false, false, bodyFillGroupCreate), (0x0311, false, false, bodyFillSubmit), (0x0312, false, false, bodyFillFlush), (0x0313, false, false, bodyFillGroupDestroy)] ++
  [(0x0401, false, false, bodyStream), (0x0402, false, false, bodyFused), (0x0403, false, false, bodyFence), (0x0404, false, false, bodyHostCopy), (0x0405, false, false, bodyFillConst),
   (0x0501, false, false, bodyColl 1), (0x0502, false, false, bodyColl 2), (0x0503, false, false, bodyColl 3), (0x0504, false, false, bodyColl 4),
   (0x0505, false, false, bodyBarrier), (0x0506, false, false, bodyScaleVote)] ++
  [(0x0601, false, false, bodyEmbTableCreate), (0x0602, false, false, bodyEmbLookup), (0x0603, false, false, bodyEmbUpdate), (0x0604, false, false, bodyYarrowLoad), (0x0605, false, false, bodyYarrowWriteback),
   (0x0701, false, false, unlessSkipped bodyCruGroupCreate), (0x0702, false, false, bodyCruApply []), (0x0703, false, false, unlessSkipped bodyCruSetScale), (0x0704, false, false, bodyCruDeferredFlush)] ++
  [(0x0801, false, false, bodyDetLedgerRead), (0x0802, false, false, bodyDigest), (0x0803, true, true, bodyMatchPair), (0x0804, true, true, bodyMatchUnpair),
   (0x0901, true, true, bodyRepairRequest), (0x0902, true, false, bodyUnitQuery), (0x0903, true, true, bodyScrub), (0x0904, true, true, bodyFwUpdate),
   (0x0A01, false, false, bodyCmpIndex), (0x0A02, false, false, bodyCmpVerify),
   (0x0B01, false, false, unlessSkipped bodyExportShard), (0x0B02, false, false, unlessSkipped bodyCampionOpen), (0x0B03, false, false, unlessSkipped bodyCampionClose)]

/-- What a packet's opcode does; an opcode that is not listed is reserved (R12, R59). -/
def bodyOf (p : Packet) : Body :=
  match opcodes.find? (fun o => o.1 == packetOpcode p) with
  | some (_, a, f, b) => guarded a f b
  | none => fun _ _ => fail (errFormat 0)

/-! ### Commands that wait -/

/-- Try again the commands that a test picks among those held, in the order they were dispatched (R54); a PREEMPTED queue starts none (R78). -/
def State.retryHeldCmds (s : State) (p : Running → Bool) : State :=
  let cs := (s.queues.filter (fun e => e.state != .preempted)).flatMap (fun e => e.running.filter (fun c => c.work == .held && c.reply.isNone && !c.halt && p c))
  (insSort (fun (c : Running) => c.order) cs).foldl (fun st c => st.rerun (bodyOf c.pkt) c.uid) s

/-- Everything that waited for a core, an engine, a page or a snoop goes on where it can. -/
def State.resumeAll (s : State) : State := ((s.settleCores.retryHeldCmds (fun _ => true)).settleMigrations).cruPumpAll

/-- What a waiting command waits for has come about: queues that stop, contexts that are pre-empted, carves, rolls (R49, R78, R486, R498). -/
def State.settleWait (s : State) (c : Running) : State :=
  if c.reply.isSome then s else
  match c.work with
  | .queueStop q =>
    let others := ((s.queue? q).map (fun e => e.running.filter (fun k => k.work ≠ .queueStop q))).getD []
    if others.isEmpty then (s.modQueue q Queue.halted).reply c.uid ok else s
  | .preempt x e => if s.quiet c.order (· == x) e then s.reply c.uid ok else s
  | .carve p => if s.quiet c.order (fun x => ((s.ctx? x).map (fun y => y.part == p)).getD false) true then (s.resizeSaves p).reply c.uid ok else s
  | .roll => s.settleRoll c
  | _ => s

/-! ### Dispatch (R54 to R58) -/

/-- Whether a command that waits keeps the later ones of its queue from starting (R54, R55): it waits for cores, or for its fence; one that waits for a vote, a group or a ticket has started. -/
def State.blocksQueue (s : State) (c : Running) : Bool :=
  c.work == .held && c.reply.isNone && [0x121, 0x202, 0x302, 0x304, 0x401, 0x402, 0x602, 0x603].contains c.opcode && !(c.opcode == 0x603 && s.stepWaits c.ctx c.step)

/-- Whether a command of the context holds every later one of it: CTX_SET_MODE while it runs (R373), or a halted or full Matchplate window (R390, R392). -/
def State.ctxHeld (s : State) (q : QueueId) : Bool :=
  let next := (s.queue? q).bind (fun e => e.fetched.head?)
  let acts (x : Nat) : Bool := if 64 ≤ q.key then q.owner == x else (next.map (fun p => actsOnHeader (packetOpcode p) && fld p.bytes 3 1 == x)).getD false
  (s.queues.flatMap (·.running)).any (fun c => c.opcode == 0x113 && c.reply.isNone && acts (c.u 40 1)) ||
  (decide (64 ≤ q.key) && s.pairedPart (s.queuePart q) &&
    (s.pair.halted || !s.pair.lead || s.pair.compares.any (fun k => decide (k.index + s.pair.window ≤ s.pair.nextIndex))))

/-- What the next packet of a queue awaits before it starts: with FENCE_BEFORE the data writes of the earlier commands, after FENCE_AFTER those of the command that bore it; whether the guarantee is that of CS_SYSTEM (R202, R203). -/
def Queue.fenceNeed (e : Queue) : Option Bool :=
  let before := match e.fetched with
    | p :: _ => if packetFences p then some (fld p.bytes 24 1 == 3) else none
    | [] => none
  match before, e.fenceAfter with
  | some a, some b => some (a || b)
  | some a, none => some a
  | none, b => b

/-- Whether data writes that a queue's fence awaits are held for a link. -/
def State.fenceHeld (s : State) (e : Queue) : Bool := (e.fenceNeed.map (fun sys => s.postsHeld e.id sys)).getD false

/-- Whether another queue with a command that can start goes before this one (R56). PRIORITY goes before queue number also among requests of one fill group that are ready in one cycle, which R82 would take in ascending queue number (DESIGN CHOICE, log entry 26). -/
def State.outranked (s : State) (e : Queue) : Bool :=
  s.queues.any (fun o => o.id != e.id && o.ready && !o.running.any s.blocksQueue && !s.ctxHeld o.id && !s.fenceHeld o &&
    (match o.id, e.id with
     | .admin a, .admin b => decide (a.val < b.val)
     | .admin _, .ctx _ => true
     | .ctx _, .admin _ => false
     | .ctx _, .ctx _ => s.queuePart o.id == s.queuePart e.id && (decide (e.priority < o.priority) || (o.priority == e.priority && decide (o.id.key < e.id.key)))))

/-- What REPLAY finds (R58). -/
inductive ReplayCase where
  | fresh | kept (d : Done) | running
  deriving DecidableEq, Repr

def Queue.replayCase (e : Queue) (p : Packet) : ReplayCase :=
  if (fld p.bytes 2 1).testBit 5 then
    match e.history.reverse.find? (fun d => d.seq == fld p.bytes 4 4) with
    | some d => .kept d
    | none => if e.running.any (fun c => c.seq == fld p.bytes 4 4) then .running else .fresh
  else .fresh

/-- Start the next fetched packet of a queue after the REPLAY lookup, once its fences' data writes have left the device (R202). -/
def State.dispatch (s : State) (q : QueueId) : State :=
  match s.findQueue q with
  | none => s
  | some e => match e.fetched with
    | [] => s
    | p :: rest =>
      if !e.ready ∨ s.outranked e ∨ s.ctxHeld q then s else
      let s0 := match e.fenceNeed with
        | some sys => s.flushQueue q sys
        | none => s
      if s0.fenceHeld e then s0 else
      let s1 := s0.modQueue q (fun e => { e with fetched := rest, fenceAfter := none })
      match e.replayCase p with
      | .fresh => s1.start q p (bodyOf p)
      | .running => s1
      | .kept d =>
        let c := s1.newCmd q p
        (s1.writeRecord { c with pkt := p } 1 d.reply).notify c

/-- Start the packet that the lead forwarded next, on its queue, under the queue's fences (R387). -/
def State.follow (s : State) (q : QueueId) : State :=
  match s.pair.forwarded, s.queue? q with
  | (i, q', p) :: rest, some e =>
    if q' ≠ q ∨ s.pair.halted ∨ !({ e with fetched := [p] } : Queue).ready ∨ e.running.any s.blocksQueue then s
    else ({ s with pair := { s.pair with forwarded := rest, nextIndex := i } } : State).start q p (bodyOf p)
  | _, _ => s

/-- COMMAND_DISPATCH: the commands of the queue that wait for their engines go first; then its next fetched packet starts, once its fences, the queues ahead of it and the pair allow (R54 to R58, R387, R390). -/
def execCommandDispatch (q : QueueId) (s : State) : Host.Outcome State Fault Refusal :=
  s.run (fun s =>
    let s1 := s.retryHeldCmds (fun c => c.queue == q)
    let waits := ((s1.findQueue q).map (fun e => e.running.any s1.blocksQueue)).getD false
    if waits then s1
    else if decide (64 ≤ q.key) && s1.silent (s1.queuePart q) then s1.follow q
    else s1.dispatch q)

/-! ### Completion (R61) -/

/-- COMMAND_COMPLETE: a command whose outcome is decided, whose adds have been answered and whose comparison has been made writes its record (R61, R272, R390); what waited for it goes on. -/
def execCommandComplete (uid : Nat) (s : State) : Host.Outcome State Fault Refusal :=
  s.run (fun s =>
    let s1 := s.settleColls
    match s1.cmd? uid with
    | none => s1
    | some c =>
      let s2 := s1.settleWait c
      if s2.cmdAdds uid ∧ (((s2.cmd? uid).bind (·.reply)).map (fun r => decide (r.status < 0x10))).getD true then s2 else
      let s3 := match s2.cmd? uid with
        | some k => if k.reply.isSome ∧ k.matchIndex ≠ 0 then s2.verdict k else s2
        | none => s2
      (s3.complete uid).resumeAll)

/-! ### Timeouts (R79, R85, R208) -/

/-- The parked transfer of a command that waits for a host page, with its stream. -/
def State.parkedHost (s : State) (uid : Nat) : Option (Transfer × Stream) :=
  s.moves.transfers.findSome? (fun x => if x.parked = some .hostPage then (match s.stream? x.stream with
    | some t => if t.uid = uid then some (x, t) else none
    | none => none) else none)

/-- The open batch of a group that a command waits in. -/
def State.openReq (s : State) (uid : Nat) : Option FillGroup :=
  s.cores.fills.find? (fun k => (k.openBatch.map (fun b => b.reqs.any (fun q => q.uid == uid))).getD false)

/-- A command's timeout is evaluated (R79, R80, R85, R208, R209). A command that has its outcome keeps it, unless adds of it are still unanswered; one whose fault was resolved in this tick goes on; one parked on a host page ends with ERR_PAGE; one whose program runs a LADLE operation ends at its next yield point (R260); a fill request leaves its open batch and takes the status of an issued one; any other ends with ERR_TIMEOUT. With TIMEOUT 0 only a host page's limit applies. -/
def State.timeoutCommand (s : State) (uid : Nat) : State :=
    let s1 := s.settleColls
    match s1.cmd? uid with
    | none => s1
    | some c =>
      let s2 := s1.settleWait c
      match (s2.cmd? uid).bind (·.reply) with
      | some r => if c.timeout ≠ 0 ∧ r.status < 0x10 ∧ s2.cmdAdds uid then ((s2.modCmd uid (fun k => { k with reply := none })).failAt uid errTimeout).resumeAll else s2
      | none =>
      let end_ (r : Reply) : State := if c.timeout = 0 ∨ c.resolvedAt = some s.now then s2 else if s2.inLadle uid then s2.modCmd uid (fun k => { k with lapsed := true }) else (s2.failAt uid r).resumeAll
      match c.work, (if s2.inLadle uid then none else s2.parkedHost uid) with
      | .fill _ _, _ => match s2.openReq uid with
        | some _ => if c.timeout = 0 then s2 else (s2.leaveBatches uid).reply uid errTimeout
        | none => s2
      | _, some (x, t) => (s2.failStream t.id (errPage t.engine x.piece.hostAddr)).resumeAll
      | .hostPage _ _ g, none => (s2.failAt uid (errPage 0 (g * 4096))).resumeAll
      | _, none => end_ errTimeout

/-- COMMAND_TIMEOUT, evaluated at the end of its tick, after the timeouts of what the command waits for (R80, R241). -/
def execCommandTimeout (uid : Nat) (s : State) : Host.Outcome State Fault Refusal := s.run (fun s => s.expire (.command uid))

/-! ### Packets that peers forward (R413, R414) -/

/-- A forwarded packet's queue and packet, or the status that refuses it (log entry 12): a malformed payload, no such queue, a queue of another partition or one whose PEER_MASK excludes the port's role. -/
def State.peerQueue (s : State) (k : Nat) (pkt : FabPacket) : Except Nat (QueueId × Packet) :=
  let n := fld pkt.payload 0 2
  let p : Packet := { bytes := pkt.payload.drop 8 }
  if h : n < 4096 then
    let q : QueueId := .ctx ⟨n, h⟩
    match s.queue? q with
    | none => .error 0x10
    | some e =>
      if !zeros pkt.payload 2 6 ∨ !packetWhole p then .error 0x10
      else if s.queuePart q ≠ pkt.part.val ∨ 24 ≤ (s.port k).role ∨ !e.peerMask.testBit (s.port k).role then .error 0x12
      else .ok (q, p)
  else .error 0x10

/-- CMD_PACKET: the packet joins its queue after those fetched; its ACK carries the receiver's status (R413, R414). -/
def execCmdPacket (k : Fin 36) (pkt : FabPacket) (s : State) : Host.Outcome State Fault Refusal :=
  s.run (fun s =>
    let (s1, go) := s.admitPacket k 4 pkt
    if !go then s1 else
    let (s2, st) := match s1.peerQueue k pkt with
      | .ok (q, p) => (s1.modQueue q (fun e => { e with fetched := e.fetched ++ [p] }), 0)
      | .error e => (s1, e)
    if pkt.xo then s2.sendAck k pkt st true else s2)

end Sys2Proof.Machine
end

