-- ==== Sys2Proof/Machine/HostLinks.lean ====
section
/-! DEFINITION. Host links: translations and page requests, links going down and up, the T2 window, snoops, configuration requests (R447 to R469). -/

namespace Sys2Proof.Machine
open Sys2Proof

/-! ### What waits for a host page -/

/-- The transfers that wait for a page of a link: parked on it, or with its translation outstanding. -/
def State.pageWaiters (s : State) (l : Nat) (pasid : Option (BitVec 20)) (page : Nat) : List Transfer :=
  s.moves.transfers.filter (fun x => (x.atsWait || x.parked == some .hostPage) && s.pieceMiss x.piece == some (l, pasid, page))

/-- The commands whose own inputs lie on a page that a test picks. -/
def State.pageCmds (s : State) (p : Nat → Option (BitVec 20) → Nat → Bool) : List Running :=
  (s.queues.flatMap (·.running)).filter (fun c => c.reply.isNone && (match c.work with
    | .hostPage l q g => p l q g
    | _ => false))

/-- The PASID of a queue's ring in host memory. -/
def State.ringPasid (s : State) : QueueId → Option (BitVec 20)
  | .admin _ => none
  | .ctx n => (s.ctx? (n.val / 16)).map (·.pasid)

/-- The queues whose fetch waits for a page that a test picks, with the address of the slot. -/
def State.pageFetches (s : State) (p : Nat → Option (BitVec 20) → Nat → Bool) : List (QueueId × Nat) :=
  s.queues.filterMap (fun e => match e.fetchWait with
    | some (g, a) => if p e.link (s.ringPasid e.id) g then some (e.id, a) else none
    | none => none)

/-- The issued batches whose argument block lies on a page (R571, R573). -/
def State.pageBatches (s : State) (l : Nat) (pasid : Option (BitVec 20)) (page : Nat) : List (Nat × Nat × Nat) :=
  s.cores.fills.flatMap (fun k => k.issued.filterMap (fun b =>
    match b.reqs.findSome? (fun q => s.cmd? q.uid) with
    | some c =>
      let a := k.args / 64 * 64
      if b.launch.isNone ∧ bit k.args 0 ∧ s.linkOf c.queue = l ∧ s.pasidOf c = pasid ∧ a / 4096 ≤ page ∧ page ≤ (a + k.argsBytes) / 4096 then some (k.part, k.group, b.id) else none
    | none => none))

/-- The stopped streams whose faults lie on a page that a test picks, with that page (R206). -/
def State.pageStreams (s : State) (p : Nat → Option (BitVec 20) → Nat → Bool) : List (Nat × Nat) :=
  s.moves.streams.filterMap (fun t => match s.cmd? t.uid with
    | some c => (t.awaits.find? (fun e => p (s.linkOf c.queue) e.1 e.2)).map (fun e => (t.id, e.2))
    | none => none)

/-- Start again what a test picks of the commands, fetches and batches that waited for pages, and the given transfers (R205, R458, R572). -/
def State.pagesBack (s : State) (ids : List Nat) (p : Nat → Option (BitVec 20) → Nat → Bool) : State :=
  let qs := (s.pageFetches p).map (·.1)
  let cs := s.pageCmds p
  let ts := (s.pageStreams p).map (·.1)
  let s1 : State := { s with
    queues := upd s.queues (fun e => qs.contains e.id) (fun (e : Queue) => { e with fetchWait := none }),
    moves := { s.moves with streams := upd s.moves.streams (fun t => ts.contains t.id) (fun (t : Stream) => { t with
      awaits := t.awaits.filter (fun e => !(((s.cmd? t.uid).map (fun c => p (s.linkOf c.queue) e.1 e.2)).getD true)) }) } }
  let s2 := cs.foldl (fun st c => st.modCmd c.uid (fun k => { k with resolvedAt := some st.now })) (s1.relaunch (fun x => ids.contains x.id))
  (cs.foldl (fun st c => st.rerun (bodyOf c.pkt) c.uid) s2).resumeAll

/-- What waits for pages ends with ERR_PAGE; a fetch puts its queue into ERROR (R457, R458, R572). -/
def State.pagesLost (s : State) (xs : List Transfer) (p : Nat → Option (BitVec 20) → Nat → Bool) (bs : List (Nat × Nat × Nat)) : State :=
  let cs := s.pageCmds p
  let fs := s.pageFetches p
  let s1 := xs.foldl (fun (st : State) x => match st.stream? x.stream with
    | some t => st.failStream t.id (errPage t.engine x.piece.hostAddr)
    | none => st) s
  let s1 := (s.pageStreams p).foldl (fun (st : State) e => match st.stream? e.1 with
    | some t => st.failStream t.id (errPage t.engine (e.2 * 4096))
    | none => st) s1
  let s2 := cs.foldl (fun (st : State) c => match c.work with
    | .hostPage _ _ g => st.failCmd c.uid (errPage 0 (g * 4096))
    | _ => st) s1
  let s3 := fs.foldl (fun (st : State) f => st.fetchError f.1 f.2) s2
  (bs.foldl (fun (st : State) b => st.endBatch b.1 b.2.1 b.2.2 (errPage 0 0)) s3).resumeAll

/-! ### ATS and PRI (R456 to R458) -/

/-- The page requests that a link may have outstanding. -/
def Link.priRoom (k : Link) : Nat := min k.priAlloc 1024

/-- A page request joins a link's: sent while the allocation has room (R458). -/
def State.requestPage (s : State) (l : Nat) (pasid : Option (BitVec 20)) (page : Nat) : State :=
  let k := s.link l
  if k.pageReqs.contains (pasid, page) then s else
  let s1 := s.modLink l (fun k => { k with pageReqs := k.pageReqs ++ [(pasid, page)] })
  if k.pageReqs.length < k.priRoom then s1.count .hstAtsStat l 0 32 16 else s1

/-- A page request has been answered; the next that waited is sent. -/
def State.answerPage (s : State) (l : Nat) (pasid : Option (BitVec 20)) (page : Nat) : State :=
  let k := s.link l
  let s1 := s.modLink l (fun k => { k with pageReqs := k.pageReqs.filter (fun e => e != (pasid, page)) })
  if k.priRoom < k.pageReqs.length then s1.count .hstAtsStat l 0 32 16 else s1

/-- Keep a translation; of 8,192 entries one leaves, which is open (R456). -/
def State.fillAtc (s : State) (l : Nat) (e : Option (BitVec 20) × Nat) : State :=
  let k := s.link l
  if k.atc.contains e then s
  else if k.atc.length < 8192 then s.modLink l (fun k => { k with atc := k.atc ++ [e] })
  else
    let i := Config.freeNat s.free % 8192
    ({ s with free := s.free + 1 } : State).modLink l (fun k => { k with atc := k.atc.eraseIdx i ++ [e] })

/-- ATS_TRANSLATION_COMPLETION: a translation fills the cache and what waited goes on; a miss leads to a page request, or ends what waited where PRI does not serve it (R457, R458). -/
def execAtsTranslationCompletion (l : Fin 2) (pasid : Option (BitVec 20)) (page : Nat) (ok : Bool) (s : State) : Host.Outcome State Fault Refusal :=
  s.run (fun s =>
    let k := s.link l
    if !k.atsReqs.contains (pasid, page) then s else
    let xs := s.pageWaiters l pasid page
    let here (a : Nat) (q : Option (BitVec 20)) (g : Nat) : Bool := a == l.val && q == pasid && g == page
    let s1 := s.modLink l (fun k => { k with atsReqs := k.atsReqs.filter (fun e => e != (pasid, page)) })
    if ok then (s1.fillAtc l (pasid, page)).pagesBack (xs.map (·.id)) here
    else if k.priEn ∧ !k.priStopped then
      (xs.filter (·.atsWait)).foldl (fun st x => (st.park x.stream x.id .hostPage (page * 4096)).modTransfer x.id (fun y => { y with atsWait := false })) (s1.requestPage l pasid page)
    else s1.pagesLost xs here (s1.pageBatches l pasid page))

/-- PAGE_RESPONSE (R458): to a page request that is outstanding. -/
def execPageResponse (l : Fin 2) (pasid : Option (BitVec 20)) (page : Nat) (resp : PageResp) (s : State) : Host.Outcome State Fault Refusal :=
  s.run (fun s =>
    let k := s.link l
    if !(k.pageReqs.take k.priRoom).contains (pasid, page) then s else
    let xs := s.pageWaiters l pasid page
    let here (a : Nat) (q : Option (BitVec 20)) (g : Nat) : Bool := a == l.val && q == pasid && g == page
    match resp with
    | .success => (s.answerPage l pasid page).pagesBack (xs.map (·.id)) here
    | .invalid => ((s.answerPage l pasid page).count .hstAtsStat l 0 48 8).pagesLost xs here (s.pageBatches l pasid page)
    | .failure =>
      let all := s.moves.transfers.filter (fun x => x.parked == some .hostPage && ((s.pieceMiss x.piece).map (fun m => m.1 == l.val)).getD false)
      ((s.modLink l (fun k => { k with pageReqs := [], priStopped := true })).flag .hstAtsStat l 0 56).pagesLost all
        (fun a q g => a == l.val && k.pageReqs.contains (q, g)) (k.pageReqs.flatMap (fun e => s.pageBatches l e.1 e.2)))

/-- ATS_INVALIDATION: the translation leaves; the request completes once the transfers under it have ended (R456). -/
def execAtsInvalidation (l : Fin 2) (pasid : Option (BitVec 20)) (page : Nat) (s : State) : Host.Outcome State Fault Refusal :=
  s.run (fun s =>
    let uses (q : Place × Nat) : Bool := match q.1 with
      | .host a p x => a == l.val && p == pasid && decide (x / 4096 ≤ page ∧ page ≤ (x + q.2 - 1) / 4096)
      | _ => false
    let ids := (s.moves.transfers.filter (fun x => x.parked.isNone && !x.atsWait && (uses (x.piece.span false) || uses (x.piece.span true)))).map (·.id)
    (s.modLink l (fun k => { k with atc := k.atc.filter (fun e => e != (pasid, page)), invPending := k.invPending ++ [(pasid, page, ids)] })).settleInv)

/-! ### Links going down and up (R467) -/

/-- The host end of a transfer lies on a link. -/
def Piece.onLink (p : Piece) (l : Nat) : Bool := [p.src, p.dst].any (fun q => match q with
  | .host a _ _ => a == l
  | _ => false)

/-- Park every transfer on a link as a host page fault. -/
def State.parkLink (s : State) (l : Nat) : State :=
  (s.moves.transfers.filter (fun x => x.piece.onLink l && x.parked.isNone && !x.writing)).foldl (fun st x =>
    ((st.park x.stream x.id .hostPage x.piece.hostAddr).modTransfer x.id (fun y => { y with atsWait := false, farPending := 0, farData := [] }))) s

/-- A link is down: its transfers park, its translations and requests go, and so do the Shared lines, which the host can no longer snoop (DEDUCED, log entry 92). -/
def State.linkDown (s : State) (l : Nat) : State :=
  let s1 := s.modLink l (fun k => { k with state := .down, rate := 0, width := 0, flit256 := false, cxlIo := false, cxlCache := false, cxlMem := false,
                                           atc := [], atsReqs := [], pageReqs := [], invPending := [] })
  let s2 := s1.parkLink l
  { s2 with host := { s2.host with hlc := s2.host.hlc.filter (fun h => h.modified || h.die != l) }, queues := upd s2.queues (fun e => e.link == l) (fun (e : Queue) => { e with fetchWait := none }) }

/-- HOST_LINK_DOWN (R467). -/
def execHostLinkDown (l : Fin 2) (s : State) : Host.Outcome State Fault Refusal :=
  s.run (fun s => if (s.link l).state = .up ∨ (s.link l).state = .recovery then (s.count .hstLinkCnt l 0 0 16).linkDown l else s)

/-- A write that a link held goes out. -/
def State.sendHeld (s : State) (l : Nat) : HeldWrite → State
  | .data q a bs bad b => s.hostPost l q a bs bad b
  | .msix fn v => s.msix l fn v

/-- A link is up: held writes go out in order, and what is parked on it is tried again (R448, R467). -/
def State.linkUp (s : State) (l rate width : Nat) (flit256 : Bool) : State :=
  let held := (s.link l).held
  let s1 := s.modLink l (fun k => { k with state := .up, rate := rate, width := width, flit256 := flit256, cxlIo := true, cxlCache := flit256, cxlMem := flit256, held := [] })
  let s2 := held.foldl (fun st w => st.sendHeld l w) s1
  let ids := (s2.moves.transfers.filter (fun x => x.parked == some .hostPage && x.piece.onLink l)).map (·.id)
  s2.pagesBack ids (fun a _ _ => a == l)

/-- Whether a rate, width and flit mode are ones a link trains to (R447, R448). -/
def linkMode (rate width : Nat) (flit256 : Bool) : Bool :=
  decide (1 ≤ rate) && [1, 2, 4, 8, 16].contains width && (flit256 || rate != 6)

/-- The reference clock of a link toggles, or not. -/
def State.setHlClock (s : State) (l : Nat) (on : Bool) : State :=
  { s with pins := { s.pins with hlPresent := if l = 0 then (on, s.pins.hlPresent.2) else (s.pins.hlPresent.1, on) } }

/-- HOST_LINK_UP (R448, R467): a link that start-up has released and whose PERST# is high. -/
def execHostLinkUp (l : Fin 2) (rate : Fin 7) (width : Fin 17) (flit256 : Bool) (s : State) : Host.Outcome State Fault Refusal :=
  s.run (fun s =>
    let k := s.link l
    if !k.released ∨ k.perst ∨ k.state = .up ∨ k.state = .recovery ∨ !linkMode rate width flit256 then s else ((s.setHlClock l true).linkUp l rate width flit256).bootProgress)

/-- What is still held for a link that is down is dropped and counted; a running command that wrote a lost line ends with ERR_PAGE (R467). -/
def State.holdExpired (s : State) (l : Nat) : State :=
    let k := s.link l
    if k.state = .up ∨ k.state = .recovery then s else
    let lost := s.host.hlc.filter (fun h => h.modified && h.die == l)
    let s1 := ((s.modLink l (fun k => { k with held := [] })).count .hstLinkCnt l 0 32 16 k.held.length).count .hstLinkCnt l 0 48 16 lost.length
    let s2 : State := { s1 with host := { s1.host with hlc := s1.host.hlc.filter (fun h => !(h.modified && h.die == l)) } }
    lost.foldl (fun st h => (st.modCmd h.uid (fun c => { c with lostLine := true })).failAt h.uid (errPage 0 (h.line * 64))) s2

/-- HOST_HOLD_EXPIRY, evaluated at the end of its tick (R80, R467). -/
def execHostHoldExpiry (l : Fin 2) (s : State) : Host.Outcome State Fault Refusal := s.run (fun s => s.expire (.hostHold l))

/-- HOST_LINK_RECOVERY: a link that is up recovers and is up again (R470). -/
def execHostLinkRecovery (l : Fin 2) (s : State) : Host.Outcome State Fault Refusal :=
  s.run (fun s => if (s.link l).state = .up then s.count .hstLinkCnt l 0 16 16 else s)

/-! ### The T2 window (R459 to R461) -/

/-- The window's object, while it is live. -/
def State.window (s : State) : Option Obj := s.objOf (s.field .hstWinCfg 0 0 8 8) (s.field .hstWinCfg 0 0 16 32)

/-- HDM_DECODER_COMMIT (R459, R10): the first success locks HST_WIN_CFG. -/
def execHdmDecoderCommit (l : Fin 2) (s : State) : Host.Outcome State Fault Refusal :=
  s.run (fun s =>
    let fit := s.field .hstWinCfg 0 0 0 1 == 1 && (match s.window with
      | some o => o.policy == 2 && !o.prot && o.size % 2 ^ 28 == 0 && decide (o.size ≤ 2 ^ 39)
      | none => false)
    if fit then { s.modLink l (fun k => { k with committed := true, commitErrBit := false }) with boot := { s.boot with winLocked := true } }
    else (s.modLink l (fun k => { k with committed := false, commitErrBit := true })).flag .hstWinStat l 0 1)

/-- A window line may be held by a link's host; a full filter frees its earliest entry by BISnpInv (R461). -/
def State.track (s : State) (l line : Nat) : State :=
  let k := s.link l
  let rest := k.snoop.filter (fun e => e.1 != line)
  match k.snoop with
  | e :: l' =>
    if rest.length < k.snoop.length ∨ k.snoop.length < 1048576 then s.modLink l (fun k => { k with snoop := if rest.length < k.snoop.length then k.snoop.map (fun e => if e.1 = line then (line, true) else e) else k.snoop ++ [(line, true)] })
    else (s.modLink l (fun k => { k with snoop := l' ++ [(line, true)] })).sendSnoop l e.1 true
  | [] => s.modLink l (fun k => { k with snoop := [(line, true)] })

/-- The lines of a window range. -/
def lineRange (off n : Nat) : List Nat := (List.range ((off + n + 63) / 64 - off / 64)).map (off / 64 + ·)

/-- What the device returns to the host. -/
def State.toHost (s : State) (bs : List Byte) (bad : Bool) : State := { s with host := { s.host with answer := bs, answerBad := bad } }

/-- HOST_WINDOW_ACCESS (R460, R461). -/
def execHostWindowAccess (l : Fin 2) (write : Bool) (off len : Nat) (data : List Byte) (s : State) : Host.Outcome State Fault Refusal :=
  s.run (fun s =>
    let k := s.link l
    if !k.committed ∨ !k.cxlMem then s else
    let n := if write then data.length else len
    match s.window with
    | some o =>
      if off + n ≤ o.size then
        let s1 := ((lineRange off n).foldl (fun st i => st.track l i) s).vaTouch o.ctx (o.base + off) n
        if write then s1.vaWrite o.ctx (o.base + off) data
        else match s1.vaRead o.ctx (o.base + off) n with
          | some (bs, bad) => s1.toHost bs bad
          | none => s1
      else
        let s1 := s.count .hstWinStat l 0 16 16
        if write then s1 else ({ s1 with free := s1.free + 1 } : State).toHost (toLe n (Config.freeNat s1.free)) true
    | none =>
      let s1 := s.count .hstWinStat l 0 16 16
      if write then s1 else ({ s1 with free := s1.free + 1 } : State).toHost (toLe n (Config.freeNat s1.free)) true)

/-- BIRSP: the host's answer to a back-invalidate snoop, with the line's data where it had changed it; the accesses that awaited it go on (R461). -/
def execBirsp (l : Fin 2) (line : Nat) (wb : Option (List Byte)) (s : State) : Host.Outcome State Fault Refusal :=
  s.run (fun s =>
    match (s.link l).biPending.find? (fun e => e.1 == line) with
    | some (_, inv) =>
      let s1 := match wb, s.window with
        | some bs, some o => (s.vaWrite o.ctx (o.base + line * 64) (slice bs 0 64)).vaTouch o.ctx (o.base + line * 64) 64
        | _, _ => s
      (s1.modLink l (fun k => { k with
        biPending := k.biPending.filter (fun e => e.1 != line),
        snoop := if inv then k.snoop.filter (fun e => e.1 != line) else k.snoop.map (fun e => if e.1 = line then (line, false) else e) })).resumeAll
    | none => s)

/-! ### Snoops of the host-line cache (R454) -/

/-- HOST_SNOOP: a Modified line is returned and, unless the snoop only looks, written back; an invalidating snoop takes the line, and the host's own store to it follows (R454). -/
def execHostSnoop (d : Fin 2) (pasid : Option (BitVec 20)) (line : Nat) (kind : Snoop) (newData : Option (List Byte)) (s : State) : Host.Outcome State Fault Refusal :=
  s.run (fun s =>
    let mine (h : HlcLine) : Bool := h.die == d.val && h.pasid == pasid && h.line == line && h.modified
    let s0 := match s.host.hlc.find? mine with
      | some h =>
        let a := s.toHost h.data false
        if kind = .cur then a else a.writeBack mine
      | none => s
    let s1 := if kind = .inv then s0.dropLines (fun h => h.holds d pasid line) else s0
    match kind, newData with
    | .inv, some bs => s1.setHostMem pasid ((s1.hostMem pasid).write (line * 64) (slice bs 0 64))
    | _, _ => s1)

/-! ### Configuration requests (R450, R456 to R458, R464, R465) -/

/-- HOST_CONFIGURATION_REQUEST. Turning ATS off empties the translation cache, and what waited for translations goes on untranslated (R457). -/
def execHostConfigurationRequest (l : Fin 2) (what : CfgReq) (s : State) : Host.Outcome State Fault Refusal :=
  s.run (fun s => match what with
    | .numVFs n => s.modLink l (fun k => { k with numVFs := n })
    | .atsEnable true => s.modLink l (fun k => { k with atsEn := true })
    | .atsEnable false =>
      let ids := (s.moves.transfers.filter (fun x => (x.atsWait || x.parked == some .hostPage) && x.piece.onLink l)).map (·.id)
      (s.modLink l (fun k => { k with atsEn := false, atc := [], atsReqs := [], pageReqs := [] })).pagesBack ids (fun a _ _ => a == l.val)
    | .priEnable on alloc => s.modLink l (fun k => { k with priEn := on, priAlloc := alloc, priStopped := if on then false else k.priStopped })
    | .ideEnable on => s.modLink l (fun k => { k with ide := on })
    | .msixMask fn v true => s.modLink l (fun k => { k with masked := if k.masked.contains (fn.val, v.val) then k.masked else k.masked ++ [(fn.val, v.val)] })
    | .msixMask fn v false =>
      let pend := (s.link l).msixPending.contains (fn.val, v.val)
      let s1 := s.modLink l (fun k => { k with masked := k.masked.filter (fun e => e != (fn.val, v.val)), msixPending := k.msixPending.filter (fun e => e != (fn.val, v.val)) })
      if pend then s1.msix l fn v else s1)

end Sys2Proof.Machine
end

