-- ==== Sys2Proof/Machine/Power.lean ====
section
/-! DEFINITION. Power and clocks: operating points, the power loop, hardware limits, sensors, refresh rates, laser samples, gating, width power-down (R33, R235, R403, R535 to R543). -/

namespace Sys2Proof.Machine
open Sys2Proof

/-! ### Operating points (R538) -/

/-- The points of a clock domain: MHz, mV. -/
def clusterPoints : List (Nat × Nat) := [(400, 550), (800, 620), (1000, 660), (1200, 710), (1500, 800), (1800, 900)]
def hostPoints : List (Nat × Nat) := [(1000, 600), (1600, 700), (2000, 780), (2400, 860)]

/-- The voltage that a clock needs: interpolated between the points, rounded up to 5 mV. -/
def voltsFor : List (Nat × Nat) → Nat → Nat
  | (f1, v1) :: (f2, v2) :: l, f =>
    if f ≤ f1 then v1
    else if f ≤ f2 then cdiv (v1 * (f2 - f1) + (v2 - v1) * (f - f1)) ((f2 - f1) * 5) * 5
    else voltsFor ((f2, v2) :: l) f
  | [(_, v)], _ => v
  | [], _ => 0

/-- The clock of the host-class cores: their ceiling, 1.0 GHz under the over-current limit, stopped until the boot ROM runs (R540, R542). -/
def State.hccClock (s : State) : Nat :=
  if s.power.stopped ∨ s.boot.step < 2 then 0 else if s.power.overLimit then 1000 else s.field .clkHcc 0 0 0 12

/-- A die's VDD_CORE in mV: the highest that one of its clusters or its host-class cores needs (R538). -/
def State.vddCore (s : State) (d : Nat) : Nat :=
  ((List.range 4).map (fun i => voltsFor clusterPoints (s.clock (4 * d + i)).cur)).foldl max (voltsFor hostPoints s.hccClock)

/-! ### Cluster clocks -/

def State.floorOf (s : State) (k : Nat) : Nat := s.field .clkCluster k 0 0 11
def State.ceilOf (s : State) (k : Nat) : Nat := s.field .clkCluster k 0 16 11

/-- Write a cluster's floor and ceiling: the target follows at once, the clock once no limit holds (R543); a reserved write changes nothing. -/
def State.writeClock (s : State) (fn k value : Nat) : State :=
  let lo := bits value 10 0
  let hi := bits value 26 16
  if fn ≠ 0 ∨ lo % 25 ≠ 0 ∨ hi % 25 ≠ 0 ∨ lo < 400 ∨ 1800 < hi ∨ hi < lo then s else
  let s1 := (s.setField .clkCluster k 0 0 11 lo).setField .clkCluster k 0 16 11 hi
  let t := if (s.chillOn k).isEmpty then max lo (min hi (s.clock k).target) else hi
  let s2 := s1.modClock k (fun c => { c with target := t })
  s2.modClock k (fun c => if c.cur = 0 then c else { c with cur := s2.clockOf k })

/-- CLK_CLUSTER_WRITE (R539, R543). -/
def execClkClusterWrite (fn : Fin 33) (k : Fin 8) (value : BitVec 64) (s : State) : Host.Outcome State Fault Refusal :=
  s.run (fun s => s.writeClock fn k value.toNat)

/-- POWER_LOOP_TICK (R539, R540, R375): the loop steps the clusters' targets. -/
def execPowerLoopTick (watts : Nat) (s : State) : Host.Outcome State Fault Refusal :=
  s.run (fun s =>
    let cap := s.field .pwrCfg 0 0 0 11
    let s0 : State := { s with power := { s.power with watts := watts } }
    let above := decide (cap < watts)
    let room (k : Nat) : Bool := decide (s.floorOf k < (s.clock k).target)
    let plain := (List.range 8).filter (fun k => room k && (s.chillOn k).isEmpty)
    let low := if plain.isEmpty then (List.range 8).filter room else plain
    let next (k : Nat) : Nat :=
      let t := (s.clock k).target
      if above then (if low.contains k then max (s.floorOf k) (t - 25) else t)
      else if watts * 100 < cap * 98 then (if (s.chillOn k).isEmpty then max t (min (s.ceilOf k) (t + 25)) else s.ceilOf k)
      else t
    let unmet := above && low.isEmpty
    let s1 := (List.range 8).foldl (fun st k => st.modClock k (fun c => { c with target := next k })) s0
    let s2 : State := { s1.reclockAll with power := { s1.reclockAll.power with capUnmet := unmet } }
    if unmet ∧ !s.power.capUnmet then s2.event .capUnmet else s2)

/-! ### Hardware limits (R542, R543) -/

/-- A limit is entered: an event, and one count. -/
def State.enterLimit (s : State) (bitNo : Nat) (unit : Nat) : State := (s.count .pwrOverrideCnt 0 0 (16 * bitNo) 16).event .limitEntry 0xFF unit (toLe 8 bitNo)

/-- A temperature limit lowers its cluster by 100 MHz, to 0.4 GHz at the least. -/
def State.stepDown (s : State) (k : Nat) : State := (s.modClock k (fun c => { c with cap := max 400 (min c.target c.cap - 100) })).reclock k

/-- A cluster's temperature limits are released: it goes back to the loop's target, unless no sensor of it is in service (R33). -/
def State.releaseTemp (s : State) (k : Nat) : State :=
  let c := s.clock k
  if c.logicHot ∨ c.bdHot ∨ s.noSensor k then s else (s.setClock k { c with cap := 1800 }).reclock k

/-- Every fast clock stops: the host links go down and every port drops (R519, R542). -/
def State.stopClocks (s : State) : State :=
  let ups := (List.range 2).filter (fun l => (s.link l).state == .up || (s.link l).state == .recovery)
  let s1 := ups.foldl (fun st l => (st.count .hstLinkCnt l 0 0 16).linkDown l) s
  let s2 := ((s1.fabric.ports.filter (fun p => p.state != .down && p.state != .offline)).map (·.id)).foldl State.portDown s1
  { s2 with power := { s2.power with stopped := true, clocks := s2.power.clocks.map (fun (c : Clock) => { c with cur := 0, starting := false }) } }

/-- The thermal trip: THERMTRIP_N is low and latched (R542). -/
def State.trip_ (s : State) : State :=
  if s.pins.thermtrip then s else
  let s1 := s.stopClocks
  ({ s1 with pins := { s1.pins with thermtrip := true } } : State).event .thermTrip

def maxOf (l : List Int) : Int := match l with
  | [] => 0
  | x :: l => l.foldl max x

/-- The median of three. -/
def median (a b c : Int) : Int := max (min a b) (min (max a b) c)

/-- A logic reading meets or leaves its limit (R542, R543). -/
def State.logicLimit (s : State) (k : Nat) (t : Int) : State :=
  let s1 := s.modClock k (fun c => { c with logicT := t, logicAt := if 1050 ≤ t then some s.now else c.logicAt })
  let c := s1.clock k
  if 1050 ≤ t ∧ !c.logicHot then ((s1.setClock k { c with logicHot := true }).enterLimit 0 (k * 256)).stepDown k
  else if t ≤ 1020 ∧ c.logicHot then s1.expire (.cool .logic k)
  else s1

/-- A bonded DRAM reading meets or leaves its limit, and sets the refresh rate (R235, R236, R542). -/
def State.bondedLimit (s : State) (k : Nat) (t : Int) : State :=
  let s1 := s.modClock k (fun c => { c with bdT := t, bdAt := if 950 ≤ t then some s.now else c.bdAt, refresh1 := decide (850 < t) || (c.refresh1 && decide (820 < t)) })
  let c := s1.clock k
  if 950 ≤ t ∧ !c.bdHot then ((s1.setClock k { c with bdHot := true }).enterLimit 1 (k * 256)).stepDown k
  else if t ≤ 920 ∧ c.bdHot then s1.expire (.cool .bonded k)
  else s1

/-- A stack reading meets or leaves its limit, and sets the refresh rate (R235, R542); the halved bandwidth is timing. -/
def State.stackLimit (s : State) (k : Nat) (t : Int) : State :=
  let s1 := s.modClock k (fun c => { c with stackT := t, stackAt := if 950 ≤ t then some s.now else c.stackAt, refresh2 := decide (850 < t) || (c.refresh2 && decide (820 < t)) })
  let c := s1.clock k
  if 950 ≤ t ∧ !c.stackHot then (s1.setClock k { c with stackHot := true }).enterLimit 2 (k * 256)
  else if t ≤ 920 ∧ c.stackHot then s1.expire (.cool .stack k)
  else s1

/-- A temperature limit is released at the end of a tick in which its trigger did not come too (R543). -/
def State.cooled (s : State) (kind : SensorKind) (k : Nat) : State :=
  let c := s.clock k
  match kind with
  | .logic => if c.logicHot ∧ c.logicAt ≠ some s.now then (s.setClock k { c with logicHot := false }).releaseTemp k else s
  | .bonded => if c.bdHot ∧ c.bdAt ≠ some s.now then (s.setClock k { c with bdHot := false }).releaseTemp k else s
  | .stack => if c.stackHot ∧ c.stackAt ≠ some s.now then s.setClock k { c with stackHot := false } else s

def sensorUnit (k i : Nat) : Nat := 0x0D000000 + k * 256 + i

/-- The voted reading of a cluster (R33): the median of three, the higher of two, the one; a split of two is reported once per hour, three count their outliers. -/
def State.vote (s : State) (k : Nat) (inService : List (Nat × Int)) : State × Option Int :=
  match inService with
  | [a, b, c] =>
    let m := median a.2 b.2 c.2
    let out := inService.filter (fun r => decide (50 < (r.2 - m).natAbs))
    (out.foldl (fun st r => st.bucket 15 (.unit (BitVec.ofNat 32 (sensorUnit k r.1)) 0 0) st.now) s, some m)
  | [a, b] =>
    let split := decide (50 < (a.2 - b.2).natAbs)
    let due := ((s.clock k).warned.map (fun w => decide (w + 0x14F46B0400 ≤ s.now))).getD true
    let s1 := if split ∧ due then (s.modClock k (fun c => { c with warned := some s.now })).event .sensorSplit 0xFF (sensorUnit k a.1)
              else if split then s else s.modClock k (fun c => { c with warned := none })
    (s1, some (max a.2 b.2))
  | [a] => (s, some a.2)
  | _ => (s, none)

/-- SENSOR_READING (R33, R235, R542). -/
def execSensorReading (kind : SensorKind) (index : Fin 8) (tenths : List Int) (s : State) : Host.Outcome State Fault Refusal :=
  s.runAo (fun s =>
    if tenths.isEmpty then s else
    match kind with
    | .logic =>
      let rs := (tenths.zipIdx.map (fun p => (p.2, p.1))).filter (fun r => (s.unit (sensorUnit index r.1)).state == .active)
      let (s1, v) := s.vote index rs
      let s2 := match v with
        | some t => (s1.releaseTemp index).logicLimit index t
        | none => s1
      if 2 ≤ (rs.filter (fun r => decide (1150 ≤ r.2))).length then s2.trip_ else s2
    | .bonded => let s1 := s.bondedLimit index (maxOf tenths); if 1050 ≤ maxOf tenths then s1.trip_ else s1
    | .stack => let s1 := s.stackLimit index (maxOf tenths); if 1050 ≤ maxOf tenths then s1.trip_ else s1)

/-- LIMIT_STEP_DOWN: 10 µs have passed with the trigger held (R542). -/
def execLimitStepDown (cl : Fin 8) (s : State) : Host.Outcome State Fault Refusal :=
  s.run (fun s =>
    let c := s.clock cl
    if (c.logicHot ∧ 1050 ≤ c.logicT) ∨ (c.bdHot ∧ 950 ≤ c.bdT) then s.stepDown cl else s)

/-- OVERCURRENT_ALERT: VR_ALERT_N or PWR_LIMIT_N is low (R542); PWR_LIMIT_N is ignored in reset (R515). -/
def execOvercurrentAlert (vrAlert : Bool) (s : State) : Host.Outcome State Fault Refusal :=
  s.runAo (fun s =>
    if !vrAlert ∧ s.boot.inReset then s else
    let s1 : State := { s with pins := if vrAlert then { s.pins with vrAlert := true } else { s.pins with pwrLimit := true } }
    let s2 : State := { s1 with power := { s1.power with overLimit := true, overAt := some s1.now } }
    if s.power.overLimit then s2 else (s2.enterLimit 3 0).reclockAll)

/-- OVERCURRENT_RELEASE: both inputs have been high for 1 ms; judged at the end of its tick (R542, R543). -/
def execOvercurrentRelease (s : State) : Host.Outcome State Fault Refusal :=
  s.runAo (fun s =>
    ({ s with pins := { s.pins with vrAlert := false, pwrLimit := false } } : State).expire .calm)

/-- The over-current limit is released at the end of a tick in which no alert came (R543). -/
def State.calmed (s : State) : State :=
  if !s.power.overLimit ∨ s.power.overAt = some s.now then s
  else ({ s with power := { s.power with overLimit := false } } : State).reclockAll

/-! ### Gating (R536, R537) -/

/-- Whether a partition has a command running. -/
def State.partBusy (s : State) (p : Nat) : Bool :=
  (s.queues.flatMap (·.running)).any (fun c => c.part == p && (!c.admin || actsOnHeader c.opcode))

/-- CORE_GATE_IDLE (R537). -/
def execCoreGateIdle (p : Fin 32) (s : State) : Host.Outcome State Fault Refusal :=
  s.run (fun s => match s.part? p with
    | some k =>
      if s.field .pwrCfg 0 0 16 16 = 0 ∨ s.partBusy p then s
      else ((s.partCores k).foldl (fun st c => st.modCore c (fun e => { e with gated := true })) s).stopPlls
    | none => s)

def pllUnit (k n : Nat) : Nat := 0x0B000000 + k * 256 + n

/-- PLL_LOCK (R536): a PLL that does not lock within 20 µs is lasting at once; Riser, at the end of the tick, retires it and the cluster starts on its second (R22, R477). -/
def execPllLock (cl : Fin 8) (ok : Bool) (s : State) : Host.Outcome State Fault Refusal :=
  s.run (fun s =>
    let c := s.clock cl
    if !c.starting then s
    else if ok then s.setClock cl { c with starting := false, cur := s.clockOf cl }
    else if (s.unit (pllUnit cl c.pll)).state = .active then s.ask (pllUnit cl c.pll) (.trip 13)
    else s.modClock cl (fun c => { c with starting := false }))

/-! ### Widths and light (R541, R403) -/

/-- Whether a port carries traffic of a Chill command. -/
def Port.chillTraffic (p : Port) : Bool := p.outstanding.any (·.chill) || p.waiting.any (·.chill)

/-- WIDTH_IDLE_EXPIRY: an idle fabric port proposes MIN_WIDTH (R541, R419). -/
def execWidthIdleExpiry (k : Fin 36) (s : State) : Host.Outcome State Fault Refusal :=
  s.run (fun s =>
    let p := s.port k
    let w := s.field .pwrCfg 0 0 48 4
    if s.field .pwrCfg 0 0 32 16 = 0 ∨ p.state ≠ .up ∨ p.memory ∨ p.proposal.isSome ∨ p.width ≤ w ∨ !p.tx.isEmpty ∨
       s.field .pwrLinkKeep 0 0 k 1 = 1 ∨ p.chillTraffic then s
    else s.putPort (p.propose w))

/-- LASER_POWER_SAMPLE (R403): a sample below ALARM is counted; 25 in succession below FLOOR are lasting at once. -/
def execLaserPowerSample (i : Fin 14) (power : BitVec 16) (s : State) : Host.Outcome State Fault Refusal :=
  s.run (fun s =>
    let u := 0x0A000000 + i.val
    let p := sgn 16 power.toNat
    let s1 := s.setField .glLaser i 0 0 16 power.toNat
    let s2 := if p < sgn 16 (s.field .glLaserCfg 0 0 0 16) then (s1.count .glLaser i 0 32 16).bucket 12 (.unit (BitVec.ofNat 32 u) 0 0) s1.now else s1
    let n := if p < sgn 16 (s.field .glLaserCfg 0 0 16 16) then mgetD s.fabric.laserLow i.val 0 + 1 else 0
    let s3 : State := { s2 with fabric := { s2.fabric with laserLow := if n = 0 then mdel s2.fabric.laserLow i.val else mset s2.fabric.laserLow i.val (min n 25) } }
    if 25 ≤ n ∧ (s3.unit u).state = .active then s3.ask u (.trip 12) else s3)

end Sys2Proof.Machine
end

