-- ==== Sys2Proof/Machine/Pins.lean ====
section
/-! DEFINITION. Pins: GPIO functions and parks, tachometers, MP_SYNC, clock inputs, the TAP (R515, R519 to R526, R530). -/

namespace Sys2Proof.Machine
open Sys2Proof

/-! ### GPIO (R521 to R524) -/

/-- Whether a function may be chosen on a pin (R521). -/
def funcOn (n f : Nat) : Bool :=
  f == 0 || (f == 1 && decide (n ≤ 1)) || (f == 2 && n == 2) || (f == 3 && decide (4 ≤ n ∧ n ≤ 11)) || (f == 4 && decide (12 ≤ n))

def pinDir (v : Nat) : Bool := bit v 3
def pinOut (v : Nat) : Bool := bit v 4

/-- The level that a pin drives, none where its driver is off: GPIO outputs, MP_SYNC holds and pulses, LEDs that are on; when a blinking LED is on is open. -/
def State.drives (s : State) (n : Nat) : Option Bool :=
  let v := s.reg .pwrGpioCfg n 0
  let low (b : Bool) : Option Bool := if b then some false else none
  if !s.pins.aoGood ∨ (s.pin n).parking then none
  else match bits v 2 0 with
    | 0 => if !pinDir v then none else if bit v 5 then low (!pinOut v) else some (pinOut v)
    | 2 => low (s.pins.mpHold || s.pins.mpLow)
    | 4 => low (match bits v 7 6 with
      | 1 => true
      | 2 => Config.freeNat s.free % 2 == 1
      | 3 => s.riser.units.any (fun u => u.state == .quarantined)
      | _ => false)
    | _ => none

/-- The idle level of a function (R521): a GPIO output drives OUT, a GPIO input keeps its level. -/
def idleLevel (v : Nat) (held : Bool) : Bool := if bits v 2 0 = 0 then (if pinDir v then pinOut v else held) else true

/-- Write a pin's configuration (R12, R521 to R523): a new function parks the pin; within the GPIO function the change is at once, and a pin that becomes an input keeps its level. -/
def State.writePin (s : State) (n v : Nat) : State :=
  let old := s.reg .pwrGpioCfg n 0
  let f := if funcOn n (bits v 2 0) then bits v 2 0 else bits old 2 0
  let new := putBits (putBits (putBits old 0 3 f) 3 5 (bits v 7 3)) 16 16 (bits v 31 16)
  let g := s.pin n
  let s1 := s.setReg .pwrGpioCfg n 0 new
  if f ≠ bits old 2 0 then
    let s2 := s1.setPin n { g with parking := true, parkSeen := true, level := idleLevel new ((s.drives n).getD g.level) }
    if n = 2 then { s2 with pins := { s2.pins with mpHold := false, mpLow := false } } else s2
  else if f = 0 ∧ !g.parking ∧ pinDir old ∧ !pinDir new then s1.setPin n { g with level := (s.drives n).getD g.level }
  else s1

/-- GPIO_CFG_WRITE (R522, R523): the physical function alone has the register. -/
def execGpioCfgWrite (fn : Fin 33) (n : Fin 16) (value : BitVec 64) (s : State) : Host.Outcome State Fault Refusal :=
  s.run (fun s => if fn.val = 0 then s.writePin n value.toNat else s)

/-- GPIO_PARK_END: the function takes the pin at its idle level (R522). -/
def execGpioParkEnd (n : Fin 16) (s : State) : Host.Outcome State Fault Refusal :=
  s.runAo (fun s => s.setPin n { s.pin n with parking := false })

/-! ### Tachometers (R521, R530) -/

/-- TACHOMETER_EDGE: a falling edge is counted; during a park none is. -/
def execTachometerEdge (k : Fin 8) (s : State) : Host.Outcome State Fault Refusal :=
  s.runAo (fun s =>
    let g := s.pin (4 + k)
    if s.pinFunc (4 + k) = 3 ∧ !g.parking then s.setPin (4 + k) { g with edges := g.edges + 1 } else s)

/-- TACH_WINDOW_END: the count is latched; a window with too few edges, and no park, is counted and reported. -/
def execTachWindowEnd (k : Fin 8) (s : State) : Host.Outcome State Fault Refusal :=
  s.runAo (fun s =>
    let g := s.pin (4 + k)
    let low := s.pinFunc (4 + k) == 3 && !g.parking && !g.parkSeen && decide (g.edges < s.field .pwrGpioCfg (4 + k) 0 16 16)
    let s1 := (s.setField .pwrTach k 0 0 16 (satN 16 g.edges)).setPin (4 + k) { g with edges := 0, parkSeen := g.parking }
    if low then (s1.count .pwrTach k 0 16 16).event .tachLow 0xFF 0 (toLe 8 k) else s1)

/-! ### MP_SYNC (R525) -/

/-- MP_SYNC_PULSE: the lead pulls the wire low for one slow tick. -/
def execMpSyncPulse (s : State) : Host.Outcome State Fault Refusal :=
  s.runAo (fun s => if s.mpOn ∧ s.pair.lead then { s with pins := { s.pins with mpLow := true } } else s)

/-- MP_SYNC_FALL: the wire fell, and stayed low for a number of ticks: a hold sets HALT_SEEN; the follower takes a pulse. -/
def execMpSyncFall (lowFor : Nat) (s : State) : Host.Outcome State Fault Refusal :=
  s.runAo (fun s =>
    if !s.mpOn then s
    else if 4 < lowFor then s.flag .pwrMpsync 0 0 33
    else if s.pair.lead then s
    else ((s.setField .pwrMpsync 0 0 0 25 ((s.now + 2 ^ 25 - 2) % 2 ^ 25)).setField .pwrMpsync 0 0 32 1 1).count .pwrMpsync 0 0 48 16)

/-- MP_SYNC_LOCK_TIMEOUT: no pulse within 2^26 st. -/
def execMpSyncLockTimeout (s : State) : Host.Outcome State Fault Refusal :=
  s.runAo (fun s => s.setField .pwrMpsync 0 0 32 1 0)

/-- MP_SYNC_HOLD_END: the 25 st hold is over. -/
def execMpSyncHoldEnd (s : State) : Host.Outcome State Fault Refusal :=
  s.runAo (fun s => { s with pins := { s.pins with mpHold := false } })

/-! ### Clock inputs (R519) -/

/-- AO_REFCLK_LOSS: the always-on domain goes on with its own oscillator; every fast clock stops until a warm reset. -/
def execAoRefclkLoss (s : State) : Host.Outcome State Fault Refusal :=
  s.runAo (fun s =>
    let s1 := s.stopClocks
    (({ s1 with pins := { s1.pins with aoInternal := true } } : State).flag .clkInputStat 0 0 0).event .aoLoss)

/-- GL_REFCLK_LOSS: every port loses lock and retrains. -/
def execGlRefclkLoss (s : State) : Host.Outcome State Fault Refusal :=
  s.run (fun s => (List.range 36).foldl State.startRetrain { s with pins := { s.pins with glPresent := false } })

/-- The ports that are down and may train begin a training. -/
def State.trainAll (s : State) : State :=
  (List.range 36).foldl (fun st k => if (st.port k).state = .down ∧ st.mayTrain k then st.beginTraining k else st) s

/-- GL_REFCLK_RETURN: the ports train again; those still within their replay window go on with their retrain. -/
def execGlRefclkReturn (s : State) : Host.Outcome State Fault Refusal :=
  s.run (fun s => ({ s with pins := { s.pins with glPresent := true } } : State).trainAll)

/-- HL_REFCLK_LOSS: the link goes down as R467 handles it. -/
def execHlRefclkLoss (l : Fin 2) (s : State) : Host.Outcome State Fault Refusal :=
  s.run (fun s =>
    let k := s.link l
    let s1 := s.setHlClock l false
    if k.state = .up ∨ k.state = .recovery then (s1.count .hstLinkCnt l 0 0 16).linkDown l else s1.modLink l (fun k => { k with state := .down }))

/-! ### The TAP (R515) -/

/-- The next state of the controller (IEEE 1149.1). -/
def tapNext : TapState → Bool → TapState
  | .reset, true => .reset
  | .reset, false => .idle
  | .idle, true => .selDr
  | .idle, false => .idle
  | .selDr, true => .selIr
  | .selDr, false => .capDr
  | .capDr, true => .ex1Dr
  | .capDr, false => .shDr
  | .shDr, true => .ex1Dr
  | .shDr, false => .shDr
  | .ex1Dr, true => .upDr
  | .ex1Dr, false => .pauDr
  | .pauDr, true => .ex2Dr
  | .pauDr, false => .pauDr
  | .ex2Dr, true => .upDr
  | .ex2Dr, false => .shDr
  | .upDr, true => .selDr
  | .upDr, false => .idle
  | .selIr, true => .reset
  | .selIr, false => .capIr
  | .capIr, true => .ex1Ir
  | .capIr, false => .shIr
  | .shIr, true => .ex1Ir
  | .shIr, false => .shIr
  | .ex1Ir, true => .upIr
  | .ex1Ir, false => .pauIr
  | .pauIr, true => .ex2Ir
  | .pauIr, false => .pauIr
  | .ex2Ir, true => .upIr
  | .ex2Ir, false => .shIr
  | .upIr, true => .selDr
  | .upIr, false => .idle

/-- Whether the current instruction selects the one-bit bypass register: BYPASS is all ones, and a locked instruction behaves as BYPASS; what Test-Logic-Reset selects is the BSDL's. -/
def Pins.bypass (p : Pins) : Bool := match p.tapIr with
  | some w => w.all (fun b => b) || !Config.tapKnown w
  | none => false

/-- One rising edge of TCK: the state's action, then the next state. -/
def tapClock (p : Pins) (tms tdi : Bool) (free : Bool) : Pins :=
  let p1 : Pins := match p.tap with
    | .capIr => { p with tapShift := true :: false :: List.replicate (Config.tapLength - 2) free }
    | .shIr => { p with tapShift := p.tapShift.drop 1 ++ [tdi] }
    | .capDr => { p with tapDr := [if p.bypass then false else free] }
    | .shDr => { p with tapDr := [if p.bypass then tdi else free] }
    | _ => p
  let st := tapNext p.tap tms
  let p2 : Pins := match st with
    | .reset => { p1 with tapIr := none }
    | .upIr => { p1 with tapIr := some p1.tapShift }
    | _ => p1
  { p2 with tap := st, tdo := match st with
      | .shIr => p2.tapShift.head?
      | .shDr => p2.tapDr.head?
      | _ => none }

/-- TAP_OPERATION: TRST_N low resets the TAP; otherwise one edge of TCK with TMS and TDI. -/
def execTapOperation (tms tdi trstN : Bool) (s : State) : Host.Outcome State Fault Refusal :=
  s.runAo (fun s =>
    if !trstN then { s with pins := { s.pins with tap := .reset, tapIr := none, tdo := none } }
    else { s with free := s.free + 1, pins := tapClock s.pins tms tdi (Config.freeNat s.free % 2 == 1) })

end Sys2Proof.Machine
end

