-- ==== Sys2Proof/Machine/Startup.lean ====
section
/-! DEFINITION. Resets and start-up: the ledger's replay, self-test, training and release of the host links; PERST# (R482, R545 to R553). -/

namespace Sys2Proof.Machine
open Sys2Proof

/-! ### The ledger at start-up (R482) -/

/-- The spare units that can take a unit's place. -/
def sparesOf (u : Nat) : List Nat :=
  let cls := bits u 31 24
  if cls = 1 then (List.range 5).map (fun i => coreUnit (bits u 5 0 / 5 * 5 + i))
  else if cls = 2 ∨ cls = 3 then [u / 128 * 128 + 64]
  else if cls = 4 then [u / 64 * 64 + 48, u / 64 * 64 + 49]
  else if cls = 5 then hccSpares u
  else if cls = 7 then [u / 64 * 64 + 32, u / 64 * 64 + 33]
  else if cls = 8 then [portUnit (32 + portChiplet (bits u 5 0))]
  else if cls = 9 then [u / 16 * 16 + 8]
  else if cls = 0xA then [0x0A000000 + (if bits u 3 0 < 6 then 12 else 13)]
  else if cls = 0xB then [u / 2 * 2 + 1, u / 2 * 2]
  else if cls = 0xC then [0x0C000000, 0x0C000001]
  else []

/-- A unit that is RETIRING goes to RETIRED; a spare takes its place where none has and one is left (R22, R38). -/
def State.finishRetire (s : State) (u : Nat) : State :=
  let b := (s.unit u).backs
  let s := if bits u 31 24 = 6 ∧ !s.riser.bondGroups.contains u then
      (if (s.riser.bondGroups.filter (fun g => g / 128 == u / 128)).length < 4 then
        ({ s with riser := { s.riser with bondGroups := s.riser.bondGroups ++ [u] } } : State).ledgerAdd { kind := 4, seq := 0, what := BitVec.ofNat 64 u }
      else s.noSpare 2 u) else s
  let served := s.riser.units.any (fun r => r.id != u && r.backs == b && r.state == .active)
  let s1 := if served ∨ (sparesOf u).isEmpty then s else match (sparesOf u).find? s.isSpare with
    | some d => s.transit d .active b
    | none => s.noSpare (bucketClass u) u
  (s1.transit u .retired 0).event .unitRepair 0xFF u

/-- Apply one ledger entry: the last state of a unit stands; a row remap whose spare row does not exist or is taken is skipped (R482). -/
def State.applyEntry (s : State) (e : LedgerEntry) : State :=
  let u := e.what.toNat % 2 ^ 32
  if e.kind = 1 then
    let st : UnitState := if e.state = 0 then .active else if e.state = 1 then .spare else if e.state = 2 then .retiring else if e.state = 3 then .retired else .quarantined
    s.putUnit { id := u, state := st, gen := e.gen, backs := e.backs, lstate := st, lgen := e.gen }
  else if e.kind = 2 then
    let taken := s.riser.remaps.any (fun r => rowBank r.loc == rowBank e.what && (r.spare == e.gen || r.used.contains e.gen))
    if 16 ≤ e.gen ∨ taken then s.count .fltLedgerStat 0 0 20 12 else
    let m : RowRemap := { loc := e.what, spare := e.gen, used := (s.matches_ e.what).flatMap (fun r => r.spare :: r.used) }
    { s with riser := { s.riser with remaps := s.riser.remaps.filter (fun r => r.loc != e.what) ++ [m] } }
  else if e.kind = 3 then { s with riser := { s.riser with lanes := s.riser.lanes ++ [(u, bits e.what.toNat 39 32)] } }
  else if e.kind = 4 then { s with riser := { s.riser with bondGroups := s.riser.bondGroups ++ [u] } }
  else s

/-- PENDING repairs have taken effect: cleared by compaction (R482). -/
def State.clearPending (s : State) : State :=
  if s.riser.ledger.entries.any (·.pending) then
    ({ s with riser := { s.riser with ledger := { s.riser.ledger with entries := s.riser.ledger.entries.map (fun e => { e with pending := false }) } } } : State).compact
  else s

/-- Replay the ledger: a copy of its own is applied up to the first bad entry; otherwise a new ledger begins in copy 0 (R482, R552). -/
def State.replay (s : State) (own : Bool) (good : Nat) : State :=
  let clean : Riser := { s.riser with asks := [], units := [], remaps := [], lanes := [], bondGroups := [], viewWrites := [] }
  if !own then
    (({ s with riser := { clean with ledger := {} }, boot := { s.boot with ledgerNew := true } } : State)).event .ledgerNew
  else
    let es := s.riser.ledger.entries
    let s1 := (es.take good).foldl State.applyEntry { s with riser := { clean with ledger := { s.riser.ledger with entries := es.take good } } }
    let s2 := if good < es.length then (s1.flag .fltLedgerStat 0 0 19).event .replayStop else s1
    let retiring := insSort id ((s2.riser.units.filter (fun u => u.state == .retiring)).map (·.id))
    (retiring.foldl State.finishRetire s2).clearPending

/-- A unit that fails its self-test is retired at once (R22, R38, R550). -/
def State.failTest (s : State) (u : Nat) : State :=
  match (s.unit u).state with
  | .active => (s.transit u .retiring (s.unit u).backs).finishRetire u
  | .spare => (s.transit u .retired 0).event .unitRepair 0xFF u
  | _ => s

/-- What the units' states mean for the blocks: logical banks, array maps, port roles, PLLs, the tree path (R482, R426). -/
def State.applyUnits (s : State) : State :=
  let bound := s.riser.units.filter (fun u => u.state == .active && u.backs != u.id && u.backs != 0)
  let gone := s.riser.units.filter (fun u => u.state == .retired || u.state == .quarantined)
  let s1 := bound.foldl (fun (st : State) u =>
    let cls := bits u.id 31 24
    let c := bits u.id 23 16
    if cls = 4 then st.modCore c (fun k => { k with bankMap := mset k.bankMap (bits u.backs 5 0) (bits u.id 5 0) })
    else if cls = 2 ∨ cls = 3 then
      let n := bits u.backs 6 0
      st.modCore c (fun k => { k with arrays := k.arrays.zipIdx.map (fun p => if p.2 ≠ bits u.id 9 8 then p.1 else
        if cls = 2 then { p.1 with retRow := n, nextRow := n } else { p.1 with retCol := n, nextCol := n }) })
    else if cls = 8 then st.modPort (bits u.id 5 0) (fun p => { p with role := bits u.backs 5 0 })
    else st) s
  let s2 := gone.foldl (fun (st : State) u =>
    let cls := bits u.id 31 24
    if cls = 8 then st.modPort (bits u.id 5 0) (fun p => { p with state := .offline })
    else if cls = 0xB then (if bits u.id 0 0 = 0 then st.modClock (bits u.id 10 8) (fun c => { c with pll := 1 }) else st)
    else if cls = 0xC then (if bits u.id 0 0 = 0 then st.setField .colBarPath 0 0 0 1 1 else st)
    else st) s1
  let s3 := ((List.range 8).filter s2.noSensor).foldl State.sensorLoss s2
  { s3 with riser := { s3.riser with viewWrites := [], units := s3.riser.units.map (fun (u : UnitRec) =>
    { u with lstate := u.state, lgen := u.gen, waiting := [], drained := true, replacement := none }) } }

/-! ### Start-up (R550 to R553) -/

/-- Start-up stops at a step. -/
def State.bootFail (s : State) (code : Nat) : State := { s with boot := { s.boot with fail := code } }
def State.bootStep (s : State) (n : Nat) : State := { s with boot := { s.boot with step := n } }

/-- The boot slot that the ledger names (R551): that of its newest FW_SLOT entry, or 0. -/
def bootSlot (es : List LedgerEntry) : Nat :=
  es.foldl (fun (n : Nat) e => if e.kind = 5 then e.what.toNat % 2 else n) 0

/-- Step 3: the image of the first slot that passes, and a calibration set; none where start-up stops (R504, R551). -/
def State.loadImages (s : State) (r : StartupResults) : State :=
  let own := r.ledgerHeaderOk && r.ledgerOwn
  let first := if own then bootSlot (s.riser.ledger.entries.take r.ledgerGood) else 0
  let passes (n : Nat) : Bool := if n = 0 then r.slotOk.1 else r.slotOk.2
  if !passes first ∧ !passes (1 - first) then (s.count .prtSecStat 0 0 16 16 2).bootFail 2 else
  let slot := if passes first then first else 1 - first
  let s1 := if passes first then s else s.count .prtSecStat 0 0 16 16
  let image := if slot = 0 then s.fw.slots.1 else s.fw.slots.2
  let s2 : State := { s1 with
    fw := { s1.fw with slot := slot, versions := (List.range 18).map (fun h => (h, r.slotVersion.toNat)) },
    boot := { s1.boot with slot := slot, slotFallback := !passes first },
    sec := { s1.sec with measurements := mset (mset s1.sec.measurements 2 (Config.measure image)) 3 (Config.measure [3]) } }
  if r.calOk.1 then s2.bootStep 3
  else if r.calOk.2 then (({ s2 with boot := { s2.boot with calFallback := true } } : State).count .prtSecStat 0 0 16 16).bootStep 3
  else (s2.count .prtSecStat 0 0 16 16 2).bootFail 3

/-- Steps 6 and 7: the ports train, the host links are released (R550). -/
def State.release_ (s : State) (r : StartupResults) : State :=
  let s1 : State := { s with pins := { s.pins with glPresent := true, hlPresent := (true, true) }, boot := { s.boot with inReset := false } }
  let s2 := if r.anyLight then s1.trainAll else s1.event .noLight
  let ms := (s2.fabric.ports.filter (fun p => p.state == .training && p.memory)).map (fun p => p.role - 24)
  let s3 : State := { s2 with memory := { s2.memory with trainWait := insSort id ms } }
  let up (k : Link) : Link := { k with released := true, state := if k.perst then .down else .training }
  (({ s3 with host := { s3.host with links := (up s3.host.links.1, up s3.host.links.2) } } : State).bootStep 7)

/-- The steps of start-up from the second on, each only where those before it have passed (R550). -/
def State.startUp (s : State) (r : StartupResults) : State :=
  let s1 : State := { s with boot := { cause := s.boot.cause, step := 1, origin := s.now } }
  if !r.romCoreOk then s1.bootFail 1 else
  let s3 := (s1.bootStep 2).loadImages r
  if s3.boot.fail ≠ 0 then s3 else
  let own := r.ledgerHeaderOk && r.ledgerOwn
  let tested := (insSort id (r.failedUnits.map (·.toNat))).foldl State.failTest (s3.replay own r.ledgerGood)
  let s4 := (tested.applyUnits.measureKeys).bootStep 4
  if !r.bridgeOk then s4.bootFail 6
  else if !r.pllOk then s4.bootFail 7
  else if !r.t1Ok then s4.bootFail 4
  else if r.shortStack then s4.bootFail 5
  else (s4.bootStep 5).release_ r

/-- STARTUP: MAIN_PWRGOOD is high; start-up runs unless a reset, a trip or a failed step holds it (R547, R550). -/
def execStartup (r : StartupResults) (s : State) : Host.Outcome State Fault Refusal :=
  s.runAo (fun s =>
    let s1 : State := { s with pins := { s.pins with mainGood := true } }
    if s1.pins.aoGood ∧ s1.pins.resetN ∧ !s1.pins.thermtrip ∧ s1.boot.inReset ∧ s1.boot.fail = 0 then s1.startUp r else s1)

/-! ### Resets (R545 to R548) -/

/-- The registers that a warm reset keeps (R28, R153, R330, R492, R531, R555). -/
def warmKept : Reg → Bool
  | .fltBktCfg | .fltBktStat | .fltWatchEvictCnt | .fltScrubCfg | .fltScrubStat | .fltPoisonCnt | .fltRiserStat | .fltLedgerStat | .fltFwStat
  | .embYarrowCfg | .pwrGpioCfg | .pwrTach | .pwrMpsync | .clkInputStat | .pwrStat | .pwrOverrideCnt => true
  | _ => false

/-- A clock after a warm reset: its limits and temperatures stand, everything else is as from reset. -/
def Clock.afterReset (c : Clock) : Clock := { c with target := 1500, cur := 0, pll := 0, starting := false }

/-- A host link after a reset: its PERST# input stands. -/
def Link.afterReset (k : Link) : Link := { perst := k.perst }

/-- A core of a reset device with the array mappings that the old one had: ARR_MAP keeps its value (R153). -/
def Core.keepMaps (k old : Core) : Core :=
  { k with arrays := k.arrays.zipIdx.map (fun p =>
      let o := (old.arrays[p.2]?).getD {}
      { p.1 with retRow := o.retRow, retCol := o.retCol, nextRow := o.retRow, nextCol := o.retCol }) }

/-- Everything outside the always-on domain returns to its reset state (R545); the Crucible's unretired log entries stay with T1 (R370). -/
def State.warm (s : State) (keepDram : Bool) (cause : Nat) : State :=
  let cores := State.reset.cores.cores.map (fun k => k.keepMaps (s.core k.id))
  { State.reset with
    cores := { State.reset.cores with cores := cores },
    free := s.free, now := s.now, nextUid := s.nextUid,
    regs := (s.resetRegs (fun r _ => !warmKept r)).regs,
    cru := { stale := if keepDram then s.cru.stale ++ s.cru.log.map (·.stack) else [] },
    host := { mem := s.host.mem, links := (s.host.links.1.afterReset, s.host.links.2.afterReset) },
    riser := { s.riser with asks := s.riser.asks.filter (fun a => !a.byCommand), units := s.riser.units.map (fun (u : UnitRec) => { u with waiting := u.waiting.filter (· == 0) }) },
    fw := { s.fw with staged := none, coresNew := 0, rollUid := none, rollNext := 0, failures := 0, stat := if s.fw.rollUid.isSome then 4 else s.fw.stat },
    sec := { measurements := s.sec.measurements },
    events := s.events,
    pins := { s.pins with aoInternal := false, mpHold := false, mpLow := false },
    power := { s.power with clocks := s.power.clocks.map Clock.afterReset, stopped := s.pins.thermtrip },
    boot := { s.boot with cause := cause, step := 1, fail := 0, inReset := true, winLocked := false } }

/-- WARM_RESET: RESET_N has been low for 10 st; it is held until RESET_N rises. -/
def execWarmReset (s : State) : Host.Outcome State Fault Refusal :=
  s.runAo (fun s =>
    let s1 : State := { s with pins := { s.pins with resetN := false } }
    if s.pins.aoGood then s1.warm true 1 else s1)

/-- RESET_N_RELEASE: start-up is to run again from step 2 (R547). -/
def execResetNRelease (s : State) : Host.Outcome State Fault Refusal :=
  s.runAo (fun s => { s with pins := { s.pins with resetN := true } })

/-- MAIN_PWRGOOD_LOSS: outside a reset the TK9 holds warm reset, with T1, T2 and the log lost (R548). -/
def execMainPwrgoodLoss (s : State) : Host.Outcome State Fault Refusal :=
  s.runAo (fun s =>
    let s1 : State := { s with pins := { s.pins with mainGood := false } }
    if s.pins.aoGood ∧ !s.boot.inReset then s1.warm false 2 else s1)

/-- COLD_RESET: nothing is kept but the NOR, that is the two images and the ledger; inputs and the host's memory are not the device's (R545). -/
def execColdReset (s : State) : Host.Outcome State Fault Refusal :=
  s.runAo (fun s =>
    { State.reset with
      free := s.free,
      riser := { ledger := s.riser.ledger },
      fw := { slots := s.fw.slots },
      host := { mem := s.host.mem, links := (s.host.links.1.afterReset, s.host.links.2.afterReset) },
      pins := { resetN := s.pins.resetN, aoGood := false } })

/-- AO_PWRGOOD_RISE: the slow tick starts at 0, the straps are sampled, each GPIO pin parks at the idle level of its reset function (R520, R524, R535). -/
def execAoPwrgoodRise (straps : Fin 8) (s : State) : Host.Outcome State Fault Refusal :=
  s.runAo (fun s =>
    if s.pins.aoGood then s else
    { s with
      now := 0,
      pins := { s.pins with aoGood := true, smbAddr := 0x60 + straps.val, gpio := List.replicate 16 { parking := true, parkSeen := true } },
      boot := { s.boot with step := 1 } })

/-! ### PERST# (R469, R545, R553) -/

/-- PERST_ASSERT: the link's PHY, configuration, MSI-X, ATS and PRI state, decoder and snoop filter are reset; what is bound to the link waits as R467 gives. -/
def execPerstAssert (l : Fin 2) (s : State) : Host.Outcome State Fault Refusal :=
  s.run (fun s =>
    let s1 := s.linkDown l
    let s2 := s1.modLink l (fun k => { released := k.released, perst := true, held := k.held, msixSent := k.msixSent })
    (s2.resetRegs (fun r i => (r == .hstLinkStat || r == .hstAtsStat || r == .hstWinStat) && i == l.val)).resumeAll)

/-- PERST_RELEASE: the link trains once start-up has passed step 7. -/
def execPerstRelease (l : Fin 2) (s : State) : Host.Outcome State Fault Refusal :=
  s.run (fun s => s.modLink l (fun k => { k with perst := false, state := if k.released ∧ k.state = .down then .training else k.state }))

end Sys2Proof.Machine
end

