-- ==== Sys2Proof/Machine/RegView.lean ====
section
/-! DEFINITION. What a register reads as (R6 to R11): its stored bits, with the read-only fields whose value the block holds elsewhere. -/

namespace Sys2Proof.Machine
open Sys2Proof

/-! ### Which functions see a register (R48, R119, R249, R329, R369, R395, R511) -/

/-- Whether a function exists: the PF, and each VF while a link's NumVFs counts it (R450). -/
def State.fnOn (s : State) (fn : Nat) : Bool := fn == 0 || s.vfOn (fn - 1)

/-- Whether a function's BAR shows a register instance. -/
def State.seesReg (s : State) (fn : Nat) (r : Reg) (i : Nat) : Bool :=
  let ofCtx (x : Option Ctx) : Bool := (x.map (fun c => c.part + 1 == fn)).getD false
  s.fnOn fn && match r.spec.scope with
  | .own => true
  | .pf => fn == 0
  | .core => fn == 0 || ((s.part? (fn - 1)).map (fun p => (s.partCores p).contains i)).getD false
  | .part => serves fn i
  | .ctx => fn == 0 || ofCtx (s.ctx? i)
  | .queue => fn == 0 || ofCtx (s.ctx? (i / 16))
  | .campion => fn == 0 || ofCtx ((s.campion? i).bind (fun k => s.ctx? k.ctx))

/-- The function under which an instance is stored: its own for a register that each function has. -/
def Reg.home (r : Reg) (fn : Nat) : Nat := match r.spec.scope with
  | .own => fn
  | _ => 0

/-! ### Read-only fields held elsewhere -/

/-- A field's value at its place: lowest bit, width, value. -/
abbrev Shown := Nat × Nat × Nat

/-- Degrees Celsius of tenths, as an 8-bit field. -/
def degrees (t : Int) : Nat := satN 8 (t / 10).toNat

def queueStateCode : QState → Nat
  | .absent => 0 | .stopped => 1 | .running => 2 | .error => 3 | .preempted => 4

def portStateCode : PortState → Nat
  | .down => 0 | .training => 1 | .up => 2 | .retraining => 3 | .offline => 4

def linkStateCode : LinkState → Nat
  | .down => 0 | .training => 1 | .up => 2 | .recovery => 3

/-- CMD_Q_STAT and CMD_ADMQ_STAT (R48). -/
def queueShown (e : Option Queue) : List Shown := match e with
  | some q => [(0, 32, q.head), (32, 3, queueStateCode q.state), (35, 1, q.overrun.toNat), (48, 16, q.backward)]
  | none => []

/-- The engines of a run that are parked: the sequencer on a signal or a barrier, an engine on a signal (R104, R119). -/
def Run.parkedMask (r : Run) : Nat :=
  let seq := match r.seq with
    | .signal _ => 1
    | .barrier _ => 1
    | _ => 0
  seq + sumOf (fun e => if (r.engine e).parked.isSome then 2 ^ e else 0) [1, 2, 3, 4, 5, 6, 7, 8]

/-- The signal that the lowest-numbered engine parked on one awaits. -/
def Run.parkSig (r : Run) : Nat := match r.seq with
  | .signal k => k
  | _ => (([1, 2, 3, 4, 5, 6, 7, 8].filterMap (fun e => (r.engine e).parked)).head?).getD 0

/-- CORE_STAT (R119). A core that a stream, fused or embedding command holds runs no program: it reads IDLE, with the context and number of the last program, of which the spec says nothing (DESIGN CHOICE, log entry 20). -/
def State.coreShown (s : State) (c : Nat) : List Shown :=
  let k := s.core c
  let own := [(3, 1, (k.switchPending || s.contended c).toNat), (16, 5, ((s.corePart c).map (·.id)).getD 0)]
  if s.offline c then [(0, 2, 3)] else
  match k.run with
  | some r => own ++ [(0, 2, 1), (2, 1, r.compute.toNat), (5, 1, r.deadlock.toNat), (8, 8, r.ctx), (24, 5, r.logical), (32, 9, r.parkedMask), (48, 6, r.parkSig)]
  | none => own ++ (0, 2, 0) :: (match k.last with
    | some r => [(8, 8, r.ctx), (24, 5, r.logical)]
    | none => [])

/-- Whether an engine of a core holds a started operation: of its program, or of a command that holds the core. -/
def State.engineBusy (s : State) (c e : Nat) : Bool :=
  ((s.runOf c).map (fun r => (r.engine e).cur.isSome)).getD false || s.moves.streams.any (fun t => t.core == some c && t.engine == e && !t.stopped)

/-- Whether a transfer of a core is parked. -/
def State.coreParked (s : State) (c : Nat) : Bool :=
  s.moves.transfers.any (fun t => t.parked.isSome && ((s.stream? t.stream).map (fun k => k.core == some c)).getD false)

/-- Whether a LADLE operation holds a ladle stack: a core's gather engine has started one with an operand page there. -/
def State.ladleBusy (s : State) (k : Nat) : Bool :=
  s.cores.cores.any (fun e => match e.run with
    | some r => (match (r.engine 8).cur with
      | some q => if q.op.op = 0x20 then (match s.opDesc e.id q 64 0 with
          | .ok d => let t := ladleDesc d; (ladlePages t).any (fun p => s.ladleStack r.ctx p.1 == k)
          | .error _ => false) else false
      | none => false)
    | none => false)

/-- Units of an identifier range in a state. -/
def State.unitsIn (s : State) (us : List Nat) (st : UnitState) : Nat := (us.filter (fun u => (s.unit u).state == st)).length

/-- Fewest free spare rows in any bank of a controller (R237). -/
def State.spareLeft (s : State) (ctl : Nat) : Nat :=
  let mine := s.riser.remaps.filter (fun r => bits r.loc.toNat 3 0 == ctl)
  let used (bank : Nat) : Nat := sumOf (fun r => if rowBank r.loc = bank then 1 + r.used.length else 0) mine
  16 - (mine.map (fun r => used (rowBank r.loc))).foldl max 0

/-- MEM_FAR_MAP (R242, R248). -/
def State.farShown (s : State) (k : Nat) : List Shown :=
  let open_ := sumOf (fun u => if u.far.orig = k then u.far.granules else 0) s.memory.unresolved
  (8, 19, open_) :: (match s.memory.groups.find? (fun g => g.ports.contains k) with
    | some g => [(0, 1, 1), (1, 3, g.group), (32, 16, g.capGib), (48, 16, g.xoSlots)]
    | none => [])

/-- The laser input whose ports an input feeds, 0xF none (R402). -/
def State.standsFor (s : State) (i : Nat) : Nat :=
  let u := s.unit (0x0A000000 + i)
  match u.state with
  | .active => bits u.backs 3 0
  | .retiring => if u.replacement.isSome then 0xF else bits u.backs 3 0
  | _ => 0xF

/-- GL_PORT_STAT (R425). -/
def portShown (p : Port) : List Shown :=
  [(0, 3, portStateCode p.state), (3, 1, p.lead.toNat), (4, 4, p.width), (8, 6, p.role), (16, 9, p.wlMask), (32, 6, p.partner)]

/-- HST_LINK_STAT (R448, R468). -/
def linkShown (k : Link) : List Shown :=
  let on := k.state == .up || k.state == .recovery
  [(0, 3, linkStateCode k.state), (3, 3, k.rate), (6, 5, k.width), (11, 1, k.flit256.toNat), (12, 1, k.cxlIo.toNat), (13, 1, k.cxlCache.toNat),
   (14, 1, k.cxlMem.toNat), (15, 1, k.ide.toNat), (16, 1, (on && (decide (k.width < 16 ∨ k.rate < 6) || !k.flit256)).toNat)]

/-- The highest reading over the clusters. -/
def State.hottest (s : State) (f : Clock → Int) : Nat := degrees (maxOf (s.power.clocks.map f))

/-- PWR_STAT (R554). -/
def State.powerShown (s : State) : List Shown :=
  let lim (f : Clock → Bool) : Nat := (s.power.clocks.any f).toNat
  [(0, 11, satN 11 s.power.watts), (11, 1, s.power.capUnmet.toNat), (12, 4, lim (·.logicHot) + 2 * lim (·.bdHot) + 4 * lim (·.stackHot) + 8 * s.power.overLimit.toNat),
   (16, 8, s.hottest (·.logicT)), (24, 8, s.hottest (·.bdT)), (32, 8, s.hottest (·.stackT)), (40, 1, s.pins.thermtrip.toNat)]

/-- BOOT_STAT (R554). -/
def State.bootShown (s : State) : List Shown :=
  let b := s.boot
  [(0, 4, b.step), (4, 8, b.fail), (12, 1, b.slot), (13, 1, b.slotFallback.toNat), (14, 1, b.ledgerNew.toNat), (15, 1, b.calFallback.toNat), (16, 2, b.cause),
   (32, 16, b.hostReadyMs), (48, 16, if b.step < 9 ∧ s.fabricWaits then 0xFFFF else b.fabricMs)]

/-- FLT_LEDGER_STAT (R491): nothing until start-up has read the ledger after a cold reset. -/
def State.ledgerShown (s : State) : List Shown :=
  if s.boot.cause = 0 ∧ s.boot.step < 4 then [] else
  [(0, 17, s.riser.ledger.entries.length), (17, 1, s.riser.ledger.copy), (32, 32, ((s.riser.ledger.entries.getLast?).map (·.seq)).getD 0)]

/-- The level sampled at a pin: what is driven there, the keeper's level in a park, or a level from outside, which is free. -/
def State.pinLevel (s : State) (n : Nat) : Bool :=
  match s.drives n with
  | some b => b
  | none => if (s.pin n).parking then (s.pin n).level else Config.freeNat s.free % 2 == 1

/-- The read-only fields of a register instance that the block holds elsewhere. -/
def State.shown (s : State) (r : Reg) (i j fn : Nat) : List Shown :=
  match r with
  | .cmdAdmqStat => queueShown (if h : fn < 33 then s.findQueue (.admin ⟨fn, h⟩) else none)
  | .cmdQStat => queueShown (if h : i < 4096 then s.queue? (.ctx ⟨i, h⟩) else none)
  | .coreStat => s.coreShown i
  | .corePc => (match s.runOf i with
    | some r => [(0, 16, r.pc), (32, 32, r.yields)]
    | none => (match (s.core i).last with
      | some r => [(0, 16, r.pc), (32, 32, r.yields)]
      | none => []))
  | .coreSig => (match s.runOf i with
    | some r => [0, 1, 2, 3].map (fun n => (16 * n, 16, r.count (4 * j + n)))
    | none => [])
  | .arrStat => [(0, 1, (s.engineBusy i (j + 1)).toNat), (1, 1, (((s.core i).arrays[j]?).map (·.last.toNat)).getD 0)]
  | .arrMap => (match (s.core i).arrays[j]? with
    | some a => [(0, 7, a.retRow), (8, 7, a.retCol)]
    | none => [])
  | .vecStat => [(0, 1, (s.engineBusy i 5).toNat)]
  | .strStat => [(0, 1, (s.engineBusy i 6).toNat), (1, 1, (s.engineBusy i 7).toNat), (2, 1, (s.coreParked i).toNat)]
  | .strOutst => [(0, 9, s.trackers (some i) (some 6)), (16, 9, s.trackers (some i) (some 7))]
  | .memFarMap => s.farShown i
  | .memXlatStat => [(0, 32, mgetD s.memory.xlat.misses i 0), (32, 16, mgetD s.memory.xlat.multi i 0)]
  | .memRemapStat => [(32, 5, s.spareLeft i)]
  | .memRefresh =>
    let c := s.clock (i % 8)
    if i < 8 then [(0, 1, c.refresh1.toNat), (8, 8, degrees c.bdT)] else [(0, 1, c.refresh2.toNat), (8, 8, degrees c.stackT)]
  | .pnmStat => [(0, 1, (s.ladleBusy i).toNat), (8, 2, s.unitsIn [0x07000000 + 512 * i + 32, 0x07000000 + 512 * i + 33] .active)]
  | .embStat => [(0, 1, (s.engineBusy i 8 || s.embed.gathers.any (fun g => g.core == i)).toNat)]
  | .embOutst => [(0, 14, s.sparseHeld i)]
  | .embYarrowCfg => [(32, 18, (s.embed.yarrow.filter (fun y => y.part == i)).length)]
  | .cruStat => [(0, 1, (s.cru.jobs.any (fun q => decide (q.next < q.last) && ((s.cruGroup? q.ctx q.gid).map (fun g => s.cruStack g q.next == i)).getD false)).toNat)]
  | .cruLog => [(0, 17, (s.cru.log.filter (fun e => e.stack == i)).length + (s.cru.stale.filter (· == i)).length)]
  | .cruCtxScale => (match s.ctx? i with
    | some c => [(0, 8, (c.k % 256).toNat), (8, 1, c.overflow.toNat), (16, 16, satN 16 c.clean), (32, 16, satN 16 c.skipped)]
    | none => [])
  | .cruCampionStat => (match s.campion? i with
    | some k => [(0, 1, 1), (8, 8, k.ctx)]
    | none => [(0, 1, 0), (8, 8, 0)])
  | .detCtx => (match s.ctx? i with
    | some c => [(0, 1, c.chill.toNat), (1, 1, c.seedSet.toNat), (2, 1, (s.pairedPart c.part).toNat), (3, 1, c.timingVoid.toNat)]
    | none => [])
  | .detLedgerRun => [(0, 64, ((s.ctx? i).map (·.run)).getD 0)]
  | .detLedgerRefresh => [(0, 64, ((s.ctx? i).map (·.refresh)).getD 0)]
  | .detLedgerRetry => [(0, 64, ((s.ctx? i).map (·.retry)).getD 0)]
  | .detMatchCfg =>
    if s.pair.active then [(0, 1, 1), (1, 1, (!s.pair.lead).toNat), (2, 1, s.pair.tileGrain.toNat), (3, 1, s.pair.t0.toNat), (4, 5, s.pair.part), (9, 7, s.pair.window), (16, 5, s.pair.port)]
    else []
  | .glLaser => [(16, 3, stateCode (s.unit (0x0A000000 + i)).state), (20, 4, s.standsFor i)]
  | .glPortStat => portShown (s.port i)
  | .glPortXo => [(48, 13, (s.port i).cache.length)]
  | .glWl => [(48, 3, stateCode (s.unit (wlUnit i j)).state)]
  | .hstLinkStat => linkShown (s.link i)
  | .hstAtsStat => [(57, 1, (s.link i).atsEn.toNat), (58, 1, (s.link i).priEn.toNat)]
  | .hstWinStat => [(0, 1, (s.link i).committed.toNat)]
  | .fltRiserStat => [(48, 8, satN 8 (s.riser.units.filter (fun u => u.state == .quarantined)).length), (56, 8, satN 8 (s.riser.asks.length + sumOf (fun u => u.waiting.length) s.riser.units))]
  | .fltLedgerStat => s.ledgerShown
  | .fltFwStat => [(0, 3, s.fw.stat), (8, 5, s.fw.coresNew), (13, 1, bootSlot s.riser.ledger.entries), (32, 32, s.fwVersion)]
  | .idUnique => [(0, 64, Config.unique.toNat)]
  | .prtPart => (match s.part? i with
    | some p => [(0, 32, p.carve.coreMask), (32, 10, p.barBase), (42, 11, p.carve.barriers), (53, 1, (p.carve.linkKey != 0).toNat),
                 (54, 2, if p.carve.coreMask = 0 then 0 else 1)]
    | none => [])
  | .prtCtx => (match s.ctx? i with
    | some c => [(0, 1, 1), (1, 5, c.part), (8, 20, c.pasid.toNat)]
    | none => [])
  | .prtSecStat => [(32, 6, satN 6 s.sec.keys.length), (38, 3, s.sec.sessions.length)]
  | .pwrGpioCfg => [(8, 1, (s.pin i).parking.toNat), (9, 1, (s.pinLevel i).toNat)]
  | .clkInputStat => [(1, 1, s.pins.aoInternal.toNat), (2, 1, s.pins.glPresent.toNat), (3, 1, s.pins.hlPresent.1.toNat), (4, 1, s.pins.hlPresent.2.toNat)]
  | .pwrStat => s.powerShown
  | .clkCluster =>
    let c := s.clock i
    [(32, 11, c.cur), (43, 1, c.pll), (44, 1, ([0, 1, 2, 3, 4].all (fun n => s.gatedCore (5 * i + n))).toNat)]
  | .clkHcc => [(16, 12, s.hccClock)]
  | .bootStat => s.bootShown
  | _ => []

/-- What a register instance reads as. -/
def State.view (s : State) (r : Reg) (i j fn : Nat) : Nat :=
  (s.shown r i j fn).foldl (fun v f => putBits v f.1 f.2.1 f.2.2) (s.reg r i j (r.home fn))

end Sys2Proof.Machine
end

