-- ==== Sys2Proof/Machine/RegWrite.lean ====
section
/-! DEFINITION. Register writes and reads by software (R5 to R12, R30, R48, R119, R509, R568 and the register tables). -/

namespace Sys2Proof.Machine
open Sys2Proof

/-! ### Halves of a register (R6, R7) -/

/-- Whether a field lies wholly within the accessed bits. -/
def coversField : Access → Nat → Nat → Bool
  | .full, _, _ => true
  | .low, lo, w => decide (lo + w ≤ 32)
  | .high, lo, _ => decide (32 ≤ lo)
  | .bad, _, _ => false

/-- Whether the accessed bits meet a field. -/
def meetsField : Access → Nat → Nat → Bool
  | .full, _, _ => true
  | .low, lo, _ => decide (lo < 32)
  | .high, lo, w => decide (32 < lo + w)
  | .bad, _, _ => false

/-- A register's bits with the accessed half replaced; a 32-bit access carries its data in the low half. -/
def mergeHalf (a : Access) (old v : Nat) : Nat := match a with
  | .full => v % 2 ^ 64
  | .low => old / 2 ^ 32 * 2 ^ 32 + v % 2 ^ 32
  | .high => old % 2 ^ 32 + v % 2 ^ 32 * 2 ^ 32
  | .bad => old

/-- What an access reads of a register. -/
def readHalf (a : Access) (v : Nat) : Nat := match a with
  | .full => v % 2 ^ 64
  | .low => v % 2 ^ 32
  | .high => v / 2 ^ 32 % 2 ^ 32
  | .bad => 0

/-- Whether a register holds a W1C, WO or RC field (R7). -/
def Reg.active (r : Reg) : Bool := r.spec.fields.any (fun f => f.acc == .w1c || f.acc == .wo || f.acc == .rc)

/-! ### Fields (R8, R10 to R12, R568) -/

/-- Whether a value is reserved for the field at a lowest bit (R12 and the register tables). -/
def Reg.reserves (r : Reg) (lo v : Nat) : Bool :=
  match r, lo with
  | .fltBktCfg, 8 => v == 0
  | .cmdAdmqCfg, 0 => decide (v < 6 ∨ 16 < v)
  | .prtEvtCfg, 0 => decide (v < 6 ∨ 16 < v)
  | .coreStagger, 0 => decide (32 < v)
  | .strParkCfg, _ => v == 0
  | .memRunnerCfg, 0 => v == 0
  | .memRunnerCfg, 40 => v == 0
  | .memFarCfg, 0 => v == 0
  | .cruCfg, _ => v == 0
  | .glCfg, 0 => v == 0
  | .glCfg, 16 => decide (v = 0 ∨ 0x57E4 < v)
  | .hstCfg, _ => v == 0
  | .fltScrubCfg, 0 => v == 0
  | .fltScrubCfg, 16 => v == 0
  | .pwrCfg, 0 => decide (v < 800 ∨ 1900 < v)
  | .pwrCfg, 48 => decide (v = 0 ∨ 8 < v)
  | .clkHcc, 0 => decide (v < 1000 ∨ 2400 < v ∨ v % 25 ≠ 0)
  | _, _ => false

/-- Whether a field takes no write now: a ring's BASE and SIZE_LOG2 while its ENABLE was 1 before the write (R568), a locked field (R10, R459). -/
def State.frozen (s : State) (r : Reg) (h : Nat) (f : RField) : Bool :=
  match r with
  | .cmdAdmqBase => s.field .cmdAdmqCfg 0 0 5 1 h == 1
  | .cmdAdmqCfg => f.lo == 0 && s.field .cmdAdmqCfg 0 0 5 1 h == 1
  | .prtEvtBase => s.field .prtEvtCfg 0 0 5 1 h == 1
  | .prtEvtCfg => f.lo == 0 && s.field .prtEvtCfg 0 0 5 1 h == 1
  | _ => f.acc == .rwl && s.boot.winLocked

/-- A write of one field: w holds the register's bits with the accessed half replaced, v what the write makes of it so far, e the W1C bits that hardware sets in the same cycle: where the write clears one, the hardware's event wins (R9). -/
def State.writeField (s : State) (r : Reg) (h : Nat) (a : Access) (w e v : Nat) (f : RField) : Nat :=
  let reach := if r.active then coversField a f.lo f.width else meetsField a f.lo f.width
  let x := (w >>> f.lo) % 2 ^ f.width
  if !reach ∨ s.frozen r h f then v else
  match f.acc with
  | .rw | .rwl => if r.reserves f.lo x then v else putBits v f.lo f.width x
  | .w1c => putBits v f.lo f.width ((((v >>> f.lo) % 2 ^ f.width) &&& (2 ^ f.width - 1 - x)) ||| (((e >>> f.lo) % 2 ^ f.width) &&& x))
  | .ro | .wo | .rc => v

/-- A write of the stored fields of a register. -/
def State.writePlain (s : State) (r : Reg) (i j h : Nat) (a : Access) (w e : Nat) : State :=
  s.setReg r i j (r.spec.fields.foldl (fun v f => s.writeField r h a w e v f) (s.reg r i j h)) h

/-! ### Registers whose write does more -/

/-- CMD_ADMQ_CFG: the queue follows STOP_ON_ERROR and VECTOR; raising ENABLE starts it from the BASE and SIZE_LOG2 then held, bound to the link of the write (R451, R568); clearing it ends its service. -/
def State.writeAdmq (s : State) (fn : Fin 33) (link : Nat) (a : Access) (w : Nat) : State :=
  let was := s.field .cmdAdmqCfg 0 0 5 1 fn
  let s1 := (s.writePlain .cmdAdmqCfg 0 0 fn a w 0).openAdmin (.admin fn)
  let cfg := s1.reg .cmdAdmqCfg 0 0 fn
  let s2 := s1.modQueue (.admin fn) (fun q => { q with stopOnError := bit cfg 6, vector := bits cfg 26 16 })
  if was = 0 ∧ bit cfg 5 then
    s2.modQueue (.admin fn) (fun q =>
      { q with sizeLog2 := bits cfg 4 0, base := s.reg .cmdAdmqBase 0 0 fn / 4096 * 4096, link := link, head := 0, tail := 0,
               state := .running, stopping := false, fetched := [], fetchWait := none, history := [] })
  else if was = 1 ∧ !bit cfg 5 then s2.modQueue (.admin fn) (fun q => { q with state := .absent })
  else s2

/-- Clear DB_OVERRUN of a queue where a write carries a 1 for it, unless hardware sets it in the same cycle (R8, R9, R48). -/
def State.clearOverrun (s : State) (q : QueueId) (a : Access) (w ev : Nat) : State :=
  if coversField a 35 1 ∧ bit w 35 then s.modQueue q (fun e => { e with overrun := bit ev 35 }) else s

/-- A write to a register instance that the function sees. -/
def State.writeInstance (s : State) (fn : Fin 33) (link : Nat) (r : Reg) (i j : Nat) (a : Access) (v e : Nat) : State :=
  let h := r.home fn
  let w := mergeHalf a (s.reg r i j h) v
  match r with
  | .cmdAdmqDb => if coversField a 0 32 then s.doorbell (.admin fn) (w % 2 ^ 32) else s
  | .cmdQDb => if h : i < 4096 then (if coversField a 0 32 ∧ s.seesQueue fn (.ctx ⟨i, h⟩) then s.doorbell (.ctx ⟨i, h⟩) (w % 2 ^ 32) else s) else s
  | .cmdAdmqStat => s.clearOverrun (.admin fn) a (mergeHalf a 0 v) e
  | .cmdQStat => if h : i < 4096 then s.clearOverrun (.ctx ⟨i, h⟩) a (mergeHalf a 0 v) e else s
  | .cmdAdmqCfg => s.writeAdmq fn link a w
  | .detCtx => if coversField a 3 1 ∧ bit (mergeHalf a 0 v) 3 then s.modCtx i (fun c => { c with timingVoid := bit e 3 }) else s
  | .glVcCfg => if 8192 < ((List.range 8).map (fun x => bits w (8 * x + 7) (8 * x) * 16)).foldl (· + ·) 0 then s else s.writePlain r i j h a w e
  | .colRing => if meetsField a 0 32 then s.writeRing fn i j w else s
  | .cruCampionHead => s.writeHead fn i w
  | .pwrGpioCfg => if meetsField a 0 32 then s.writePin i w else s
  | .clkCluster => if meetsField a 0 32 then s.writeClock fn i w else s
  | _ => s.writePlain r i j h a (if r.active then mergeHalf a 0 v else w) e

/-- A write at an offset of a function's control BAR (R5, R6): without effect where the access or the offset is not allowed, or shows no register. -/
def State.writeReg (s : State) (fn : Fin 33) (link off : Nat) (a : Access) (v e : Nat) : State :=
  match Reg.at off with
  | some (r, i, j) => if a = .bad ∨ !s.seesReg fn r i then s else s.writeInstance fn link r i j a v e
  | none => s

/-! ### Reading (R8, R9) -/

/-- Clear one RC field; the event of the same cycle is what it holds afterwards (R9). -/
def State.clearField (s : State) (r : Reg) (i j fn : Nat) (event : Nat) (f : RField) : State :=
  let e := (event >>> f.lo) % 2 ^ f.width
  match r with
  | .cmdAdmqStat => if h : fn < 33 then s.modQueue (.admin ⟨fn, h⟩) (fun q => { q with backward := e }) else s
  | .cmdQStat => if h : i < 4096 then s.modQueue (.ctx ⟨i, h⟩) (fun q => { q with backward := e }) else s
  | .cruCtxScale => s.modCtx i (fun c => { c with skipped := e })
  | .memXlatStat =>
    let t := s.memory.xlat
    { s with memory := { s.memory with xlat := if f.lo = 0 then { t with misses := mset t.misses i e } else { t with multi := mset t.multi i e } } }
  | _ => s.setField r i j f.lo f.width e (r.home fn)

/-- The RC fields that an access clears: those wholly within it. -/
def Reg.cleared (r : Reg) (a : Access) : List RField := r.spec.fields.filter (fun f => f.acc == .rc && coversField a f.lo f.width)

/-- A read at an offset: what it returns, and the state it leaves. -/
def State.readReg (s : State) (fn off : Nat) (a : Access) (event : Nat) : Nat × State :=
  match Reg.at off with
  | some (r, i, j) =>
    if a = .bad ∨ !s.seesReg fn r i then (0, s) else
    let s1 := (r.cleared a).foldl (fun st f => st.clearField r i j fn event f) s
    (readHalf a (s.view r i j fn), if r = .pwrGpioCfg then { s1 with free := s1.free + 1 } else s1)
  | none => (0, s)

/-! ### The rows -/

/-- The register that ADMIN_QUEUE_CFG_WRITE names. -/
def ringReg : RingReg → Reg
  | .admqBase => .cmdAdmqBase
  | .admqCfg => .cmdAdmqCfg
  | .evtBase => .prtEvtBase
  | .evtCfg => .prtEvtCfg

/-- ADMIN_QUEUE_CFG_WRITE (R568). -/
def execAdminQueueCfgWrite (fn : Fin 33) (link : Fin 2) (which : RingReg) (access : Access) (value : BitVec 64) (s : State) : Host.Outcome State Fault Refusal :=
  s.run (fun s => if access = .bad ∨ !s.fnOn fn then s else s.writeInstance fn link (ringReg which) 0 0 access value.toNat 0)

/-- REGISTER_WRITE (R8): a register with a row of its own is written as that row writes it; CMD_ADMQ_CFG is then bound to HL0. The event holds the W1C bits that hardware sets in the cycle of the write (R9). -/
def execRegisterWrite (fn : Fin 33) (off : BitVec 26) (access : Access) (value : BusWrite) (s : State) : Host.Outcome State Fault Refusal :=
  s.run (fun s => s.writeReg fn 0 off.toNat access value.value.toNat value.event.toNat)

/-- READ_CLEAR (R8, R9): the value read goes to the bus, the RC fields read are cleared. -/
def execReadClear (fn : Fin 33) (off : BitVec 26) (access : Access) (event : BitVec 64) (s : State) : Host.Outcome State Fault Refusal :=
  s.run (fun s =>
    let p := s.readReg fn off.toNat access event.toNat
    { p.2 with busRead := BitVec.ofNat 64 p.1 })

end Sys2Proof.Machine
end

