-- ==== Sys2Proof/Machine/Dispatch.lean ====
section
/-! DEFINITION. One arm a command: each a direct call of its meaning. -/

namespace Sys2Proof.Machine

/-- The command's effect on everything but the queue of waiting commands. -/
def exec (i : Instr) (s : State) : Host.Outcome State Fault Refusal :=
  match i with
  | .queueCreate q pkt => Sys2Proof.Machine.execQueueCreate q pkt s
  | .queueDestroy q pkt => Sys2Proof.Machine.execQueueDestroy q pkt s
  | .queueStart q pkt => Sys2Proof.Machine.execQueueStart q pkt s
  | .queueStop q pkt => Sys2Proof.Machine.execQueueStop q pkt s
  | .ctxCreate q pkt => Sys2Proof.Machine.execCtxCreate q pkt s
  | .ctxDestroy q pkt => Sys2Proof.Machine.execCtxDestroy q pkt s
  | .ctxPreempt q pkt => Sys2Proof.Machine.execCtxPreempt q pkt s
  | .ctxSetMode q pkt => Sys2Proof.Machine.execCtxSetMode q pkt s
  | .partCarve q pkt => Sys2Proof.Machine.execPartCarve q pkt s
  | .partReset q pkt => Sys2Proof.Machine.execPartReset q pkt s
  | .nop q pkt => Sys2Proof.Machine.execNop q pkt s
  | .ticketRelease q pkt => Sys2Proof.Machine.execTicketRelease q pkt s
  | .objCreate q pkt => Sys2Proof.Machine.execObjCreate q pkt s
  | .objFree q pkt => Sys2Proof.Machine.execObjFree q pkt s
  | .objSetPolicy q pkt => Sys2Proof.Machine.execObjSetPolicy q pkt s
  | .objQuery q pkt => Sys2Proof.Machine.execObjQuery q pkt s
  | .progLoad q pkt => Sys2Proof.Machine.execProgLoad q pkt s
  | .progLaunch q pkt => Sys2Proof.Machine.execProgLaunch q pkt s
  | .planLoad q pkt => Sys2Proof.Machine.execPlanLoad q pkt s
  | .planLaunch q pkt => Sys2Proof.Machine.execPlanLaunch q pkt s
  | .fillGroupCreate q pkt => Sys2Proof.Machine.execFillGroupCreate q pkt s
  | .fillSubmit q pkt => Sys2Proof.Machine.execFillSubmit q pkt s
  | .fillFlush q pkt => Sys2Proof.Machine.execFillFlush q pkt s
  | .fillGroupDestroy q pkt => Sys2Proof.Machine.execFillGroupDestroy q pkt s
  | .fillDeadlineExpiry p g => Sys2Proof.Machine.execFillDeadlineExpiry p g s
  | .stream q pkt => Sys2Proof.Machine.execStream q pkt s
  | .fused q pkt => Sys2Proof.Machine.execFused q pkt s
  | .fence q pkt => Sys2Proof.Machine.execFence q pkt s
  | .hostCopy q pkt => Sys2Proof.Machine.execHostCopy q pkt s
  | .fillConst q pkt => Sys2Proof.Machine.execFillConst q pkt s
  | .reduceScatter q pkt => Sys2Proof.Machine.execReduceScatter q pkt s
  | .allGather q pkt => Sys2Proof.Machine.execAllGather q pkt s
  | .allReduce q pkt => Sys2Proof.Machine.execAllReduce q pkt s
  | .broadcast q pkt => Sys2Proof.Machine.execBroadcast q pkt s
  | .barrier q pkt => Sys2Proof.Machine.execBarrier q pkt s
  | .scaleVote q pkt => Sys2Proof.Machine.execScaleVote q pkt s
  | .embTableCreate q pkt => Sys2Proof.Machine.execEmbTableCreate q pkt s
  | .embLookup q pkt => Sys2Proof.Machine.execEmbLookup q pkt s
  | .embUpdate q pkt => Sys2Proof.Machine.execEmbUpdate q pkt s
  | .yarrowLoad q pkt => Sys2Proof.Machine.execYarrowLoad q pkt s
  | .yarrowWriteback q pkt => Sys2Proof.Machine.execYarrowWriteback q pkt s
  | .cruGroupCreate q pkt => Sys2Proof.Machine.execCruGroupCreate q pkt s
  | .cruApply q pkt faults => Sys2Proof.Machine.execCruApply q pkt faults s
  | .cruSetScale q pkt => Sys2Proof.Machine.execCruSetScale q pkt s
  | .cruDeferredFlush q pkt => Sys2Proof.Machine.execCruDeferredFlush q pkt s
  | .detLedgerRead q pkt => Sys2Proof.Machine.execDetLedgerRead q pkt s
  | .digest q pkt => Sys2Proof.Machine.execDigest q pkt s
  | .matchPair q pkt => Sys2Proof.Machine.execMatchPair q pkt s
  | .matchUnpair q pkt => Sys2Proof.Machine.execMatchUnpair q pkt s
  | .repairRequest q pkt => Sys2Proof.Machine.execRepairRequest q pkt s
  | .unitQuery q pkt => Sys2Proof.Machine.execUnitQuery q pkt s
  | .scrub q pkt => Sys2Proof.Machine.execScrub q pkt s
  | .fwUpdate q pkt => Sys2Proof.Machine.execFwUpdate q pkt s
  | .cmpIndex q pkt => Sys2Proof.Machine.execCmpIndex q pkt s
  | .cmpVerify q pkt => Sys2Proof.Machine.execCmpVerify q pkt s
  | .exportShard q pkt => Sys2Proof.Machine.execExportShard q pkt s
  | .campionOpen q pkt => Sys2Proof.Machine.execCampionOpen q pkt s
  | .campionClose q pkt => Sys2Proof.Machine.execCampionClose q pkt s
  | .doorbellWrite fn q value => Sys2Proof.Machine.execDoorbellWrite fn q value s
  | .adminQueueCfgWrite fn link which access value => Sys2Proof.Machine.execAdminQueueCfgWrite fn link which access value s
  | .packetFetch q => Sys2Proof.Machine.execPacketFetch q s
  | .commandDispatch q => Sys2Proof.Machine.execCommandDispatch q s
  | .commandComplete uid => Sys2Proof.Machine.execCommandComplete uid s
  | .commandTimeout uid => Sys2Proof.Machine.execCommandTimeout uid s
  | .seqNop c => Sys2Proof.Machine.execSeqNop c s
  | .endProg c => Sys2Proof.Machine.execEndProg c s
  | .loopBegin c => Sys2Proof.Machine.execLoopBegin c s
  | .loopEnd c => Sys2Proof.Machine.execLoopEnd c s
  | .yield c => Sys2Proof.Machine.execYield c s
  | .bar c => Sys2Proof.Machine.execBar c s
  | .barrierRelease what => Sys2Proof.Machine.execBarrierRelease what s
  | .tile c a fault => Sys2Proof.Machine.execTile c a fault s
  | .conv c a fault => Sys2Proof.Machine.execConv c a fault s
  | .drain c a fault => Sys2Proof.Machine.execDrain c a fault s
  | .vec c => Sys2Proof.Machine.execVec c s
  | .streamOperation c out => Sys2Proof.Machine.execStreamOperation c out s
  | .ladle c fault => Sys2Proof.Machine.execLadle c fault s
  | .madd c => Sys2Proof.Machine.execMadd c s
  | .lookup c => Sys2Proof.Machine.execLookup c s
  | .update c => Sys2Proof.Machine.execUpdate c s
  | .hash c => Sys2Proof.Machine.execHash c s
  | .operationComplete c e => Sys2Proof.Machine.execOperationComplete c e s
  | .phaseSwitch c => Sys2Proof.Machine.execPhaseSwitch c s
  | .moveSlotGrant p => Sys2Proof.Machine.execMoveSlotGrant p s
  | .watchdogExpiry c e => Sys2Proof.Machine.execWatchdogExpiry c e s
  | .transferLanded id result => Sys2Proof.Machine.execTransferLanded id result s
  | .parkLimitExpiry id => Sys2Proof.Machine.execParkLimitExpiry id s
  | .farRetryReissue orig tag => Sys2Proof.Machine.execFarRetryReissue orig tag s
  | .runnerInterval => Sys2Proof.Machine.execRunnerInterval s
  | .refreshWindow => Sys2Proof.Machine.execRefreshWindow s
  | .farTimeout orig tag => Sys2Proof.Machine.execFarTimeout orig tag s
  | .rdData port fromCache orig tag poison data => Sys2Proof.Machine.execRdData port fromCache orig tag poison data s
  | .memAckReply port fromCache orig tag => Sys2Proof.Machine.execMemAckReply port fromCache orig tag s
  | .retryReply port orig tag us => Sys2Proof.Machine.execRetryReply port orig tag us s
  | .errorReply port orig tag code => Sys2Proof.Machine.execErrorReply port orig tag code s
  | .capsData port caps => Sys2Proof.Machine.execCapsData port caps s
  | .pong port orig tag => Sys2Proof.Machine.execPong port orig tag s
  | .xoState port orig tag answer => Sys2Proof.Machine.execXoState port orig tag answer s
  | .xoSlotTimeout orig slot => Sys2Proof.Machine.execXoSlotTimeout orig slot s
  | .dataFlit k wl fec flit => Sys2Proof.Machine.execDataFlit k wl fec flit s
  | .idleFlit k wl fec flit => Sys2Proof.Machine.execIdleFlit k wl fec flit s
  | .nak k wl fec flit => Sys2Proof.Machine.execNak k wl fec flit s
  | .nakResendTimer k => Sys2Proof.Machine.execNakResendTimer k s
  | .retrain k flit => Sys2Proof.Machine.execRetrain k flit s
  | .width k flit answer width => Sys2Proof.Machine.execWidth k flit answer width s
  | .train k wl fec flit => Sys2Proof.Machine.execTrain k wl fec flit s
  | .codewordLockLoss k wl => Sys2Proof.Machine.execCodewordLockLoss k wl s
  | .portTrained k => Sys2Proof.Machine.execPortTrained k s
  | .trainingLimitExpiry m => Sys2Proof.Machine.execTrainingLimitExpiry m s
  | .linkDrop k => Sys2Proof.Machine.execLinkDrop k s
  | .reqLifeExpiry k tag => Sys2Proof.Machine.execReqLifeExpiry k tag s
  | .cmdPacket k pkt => Sys2Proof.Machine.execCmdPacket k pkt s
  | .collPacket k pkt => Sys2Proof.Machine.execCollPacket k pkt s
  | .barPacket k pkt => Sys2Proof.Machine.execBarPacket k pkt s
  | .digestPacket k pkt => Sys2Proof.Machine.execDigestPacket k pkt s
  | .ackPacket k pkt => Sys2Proof.Machine.execAckPacket k pkt s
  | .completionCacheExpiry k tag => Sys2Proof.Machine.execCompletionCacheExpiry k tag s
  | .matchPairReceive k pkt => Sys2Proof.Machine.execMatchPairReceive k pkt s
  | .matchForward k pkt => Sys2Proof.Machine.execMatchForward k pkt s
  | .matchDigests k pkt => Sys2Proof.Machine.execMatchDigests k pkt s
  | .matchTiles k pkt => Sys2Proof.Machine.execMatchTiles k pkt s
  | .matchUnpairReceive k pkt => Sys2Proof.Machine.execMatchUnpairReceive k pkt s
  | .pageResponse l pasid page resp => Sys2Proof.Machine.execPageResponse l pasid page resp s
  | .atsInvalidation l pasid page => Sys2Proof.Machine.execAtsInvalidation l pasid page s
  | .hostWindowAccess l write off len data => Sys2Proof.Machine.execHostWindowAccess l write off len data s
  | .hostSnoop d pasid line kind newData => Sys2Proof.Machine.execHostSnoop d pasid line kind newData s
  | .hdmDecoderCommit l => Sys2Proof.Machine.execHdmDecoderCommit l s
  | .hostLinkDown l => Sys2Proof.Machine.execHostLinkDown l s
  | .hostLinkUp l rate width flit256 => Sys2Proof.Machine.execHostLinkUp l rate width flit256 s
  | .hostHoldExpiry l => Sys2Proof.Machine.execHostHoldExpiry l s
  | .bucketEvent cls what bits => Sys2Proof.Machine.execBucketEvent cls what bits s
  | .arrayRemapApply c a => Sys2Proof.Machine.execArrayRemapApply c a s
  | .localViewAck unit st gen => Sys2Proof.Machine.execLocalViewAck unit st gen s
  | .riserRewriteTimer unit => Sys2Proof.Machine.execRiserRewriteTimer unit s
  | .riserCompareTimer selfTestOk => Sys2Proof.Machine.execRiserCompareTimer selfTestOk s
  | .spareSelfTest failing => Sys2Proof.Machine.execSpareSelfTest failing s
  | .patrolScrub ctl finding => Sys2Proof.Machine.execPatrolScrub ctl finding s
  | .laserPowerSample laser power => Sys2Proof.Machine.execLaserPowerSample laser power s
  | .sensorReading kind index tenths => Sys2Proof.Machine.execSensorReading kind index tenths s
  | .limitStepDown cl => Sys2Proof.Machine.execLimitStepDown cl s
  | .overcurrentAlert vrAlert => Sys2Proof.Machine.execOvercurrentAlert vrAlert s
  | .overcurrentRelease => Sys2Proof.Machine.execOvercurrentRelease s
  | .powerLoopTick watts => Sys2Proof.Machine.execPowerLoopTick watts s
  | .widthIdleExpiry k => Sys2Proof.Machine.execWidthIdleExpiry k s
  | .coreGateIdle p => Sys2Proof.Machine.execCoreGateIdle p s
  | .pllLock cl ok => Sys2Proof.Machine.execPllLock cl ok s
  | .campionStallExpiry j => Sys2Proof.Machine.execCampionStallExpiry j s
  | .campionHeadWrite fn j value => Sys2Proof.Machine.execCampionHeadWrite fn j value s
  | .colRingWrite fn p axis value => Sys2Proof.Machine.execColRingWrite fn p axis value s
  | .gpioCfgWrite fn n value => Sys2Proof.Machine.execGpioCfgWrite fn n value s
  | .gpioParkEnd n => Sys2Proof.Machine.execGpioParkEnd n s
  | .clkClusterWrite fn k value => Sys2Proof.Machine.execClkClusterWrite fn k value s
  | .registerWrite fn off access value => Sys2Proof.Machine.execRegisterWrite fn off access value s
  | .readClear fn off access event => Sys2Proof.Machine.execReadClear fn off access event s
  | .tachWindowEnd k => Sys2Proof.Machine.execTachWindowEnd k s
  | .mpSyncPulse => Sys2Proof.Machine.execMpSyncPulse s
  | .mpSyncFall lowFor => Sys2Proof.Machine.execMpSyncFall lowFor s
  | .mpSyncLockTimeout => Sys2Proof.Machine.execMpSyncLockTimeout s
  | .fwRejoinTimeout h => Sys2Proof.Machine.execFwRejoinTimeout h s
  | .spdmRequest req => Sys2Proof.Machine.execSpdmRequest req s
  | .keySlotSet session slot key => Sys2Proof.Machine.execKeySlotSet session slot key s
  | .pldmFirmwareUpdate image => Sys2Proof.Machine.execPldmFirmwareUpdate image s
  | .mgmtRiserRequest action unit gen row => Sys2Proof.Machine.execMgmtRiserRequest action unit gen row s
  | .aoPwrgoodRise straps => Sys2Proof.Machine.execAoPwrgoodRise straps s
  | .coldReset => Sys2Proof.Machine.execColdReset s
  | .startup r => Sys2Proof.Machine.execStartup r s
  | .warmReset => Sys2Proof.Machine.execWarmReset s
  | .resetNRelease => Sys2Proof.Machine.execResetNRelease s
  | .mainPwrgoodLoss => Sys2Proof.Machine.execMainPwrgoodLoss s
  | .perstAssert l => Sys2Proof.Machine.execPerstAssert l s
  | .perstRelease l => Sys2Proof.Machine.execPerstRelease l s
  | .aoRefclkLoss => Sys2Proof.Machine.execAoRefclkLoss s
  | .glRefclkLoss => Sys2Proof.Machine.execGlRefclkLoss s
  | .hlRefclkLoss l => Sys2Proof.Machine.execHlRefclkLoss l s
  | .hostConfigurationRequest l what => Sys2Proof.Machine.execHostConfigurationRequest l what s
  | .atsTranslationCompletion l pasid page ok => Sys2Proof.Machine.execAtsTranslationCompletion l pasid page ok s
  | .birsp l line wb => Sys2Proof.Machine.execBirsp l line wb s
  | .hostLinkRecovery l => Sys2Proof.Machine.execHostLinkRecovery l s
  | .glRefclkReturn => Sys2Proof.Machine.execGlRefclkReturn s
  | .tachometerEdge k => Sys2Proof.Machine.execTachometerEdge k s
  | .tapOperation tms tdi trstN => Sys2Proof.Machine.execTapOperation tms tdi trstN s
  | .mpSyncHoldEnd => Sys2Proof.Machine.execMpSyncHoldEnd s

end Sys2Proof.Machine
end

