-- ==== Sys2Proof/Machine/Ticks.lean ====
section
/-! DEFINITION. The slow tick: the timeouts, requests to Riser and events of the tick that ends, then the passing of 40 ns (R80, R477, R509, R535). -/

namespace Sys2Proof.Machine
open Sys2Proof

/-- What a timeout does if what it awaited has not come (R80). -/
def State.timeout (s : State) : Expiry → State
  | .park t => s.parkExpired t
  | .far o t => s.farExpired o t
  | .reqLife k t => s.reqLifeExpired k t
  | .linkDrop k => s.linkDropped k
  | .training m => s.trainingExpired m
  | .cached k t => s.cacheExpired k t
  | .slot o n => s.slotExpired o n
  | .hostHold l => s.holdExpired l
  | .campion j => s.campionExpired j
  | .rejoin h => s.rejoinExpired h
  | .watchdog c e => s.watchdogExpired c e
  | .fill p g => s.fillExpired p g
  | .command u => s.timeoutCommand u
  | .rival k r f => s.rivalTaken k r f
  | .cool kind k => s.cooled kind k
  | .calm => s.calmed

/-- Where a timeout stands among those of its tick: park limits and what commands wait for first, then fill deadlines, then commands (R206, R241; DESIGN CHOICE, log entry 26). -/
def Expiry.rank : Expiry → Nat
  | .park _ => 0
  | .fill _ _ => 2
  | .command _ => 3
  | _ => 1

/-- Whether the always-on domain evaluates it, while power is stopped too. -/
def Expiry.alwaysOn : Expiry → Bool
  | .cool _ _ => true
  | .calm => true
  | _ => false

/-- The timeouts of a tick are evaluated after its arrivals (R80); while power is stopped only those of the always-on domain are. -/
def State.timeouts (s : State) : State :=
  (insSort Expiry.rank (s.due.filter (fun e => !s.power.stopped || e.alwaysOn))).foldl State.timeout { s with due := [] }

/-- One slow tick: 60 cc at 1.5 GHz (R378, R535, log entry 2). Votes dispatched in the tick that ends go out (R350), its timeouts are evaluated (R80), move slots are asked for and served (R94), Riser serves what reached it (R477), and the tick's events are written (R509); a sync pulse on MP_SYNC ends with its tick (R525). -/
def State.tick (s0 : State) : State :=
  let s := s0.damagesAtTick.votesAtTick.timeouts.slotsAtTick.movesAtTick.serveAsks.writeEvents
  let s1 := ({ s with now := s.now + 1, pins := { s.pins with mpLow := false } } : State).countRefresh.countPhases
  { s1 with tenants := { s1.tenants with ctxs := s1.tenants.ctxs.map (fun (x : Ctx) =>
    let y : Ctx := { x with inWindow := x.inWindow - 60 }
    if s1.chillRuns x.id then { y with run := satN 64 (x.run + 60), retry := satN 64 (x.retry + (if s1.retryHeld x.id then 60 - x.inWindow else 0)) } else y) } }

end Sys2Proof.Machine
end

