-- ==== Sys2Proof/WellFormed.lean ====
section
/-! DEFINITION. What makes a command well formed: an opcode row's packet is whole and of its opcode, a flit has 256 bytes, a packet payload, a cache line and a key have the lengths the spec gives. -/

namespace Sys2Proof
open Sys2Proof.Machine

/-- A whole packet of an opcode (R50, R59). -/
def opcodeWf (op : Nat) (p : Packet) : Bool := packetWhole p && packetOpcode p == op

/-- A flit has 256 bytes (R405). -/
def flitWf (f : List Byte) : Bool := f.length == 256

/-- A Gedralink packet carries at most 4,160 bytes after its header (R412). -/
def fabWf (p : FabPacket) : Bool := decide (p.payload.length ≤ 4160)

/-- A host line has 64 bytes. -/
def lineWf (l : List Byte) : Bool := l.length == 64

/-- A key slot holds an AES-256 key (R503). -/
def keyWf (k : List Byte) : Bool := k.length == 32

/-- A check of an operand that may be absent. -/
def optWf {α : Type} (p : α → Bool) : Option α → Bool
  | some x => p x
  | none => true

/-- Whether a command is well formed. -/
def Instr.wf : Instr → Bool
  | .queueCreate _ pkt => opcodeWf 0x0101 pkt
  | .queueDestroy _ pkt => opcodeWf 0x0102 pkt
  | .queueStart _ pkt => opcodeWf 0x0103 pkt
  | .queueStop _ pkt => opcodeWf 0x0104 pkt
  | .ctxCreate _ pkt => opcodeWf 0x0110 pkt
  | .ctxDestroy _ pkt => opcodeWf 0x0111 pkt
  | .ctxPreempt _ pkt => opcodeWf 0x0112 pkt
  | .ctxSetMode _ pkt => opcodeWf 0x0113 pkt
  | .partCarve _ pkt => opcodeWf 0x0120 pkt
  | .partReset _ pkt => opcodeWf 0x0121 pkt
  | .nop _ pkt => opcodeWf 0x0130 pkt
  | .ticketRelease _ pkt => opcodeWf 0x0131 pkt
  | .objCreate _ pkt => opcodeWf 0x0201 pkt
  | .objFree _ pkt => opcodeWf 0x0202 pkt
  | .objSetPolicy _ pkt => opcodeWf 0x0203 pkt
  | .objQuery _ pkt => opcodeWf 0x0204 pkt
  | .progLoad _ pkt => opcodeWf 0x0301 pkt
  | .progLaunch _ pkt => opcodeWf 0x0302 pkt
  | .planLoad _ pkt => opcodeWf 0x0303 pkt
  | .planLaunch _ pkt => opcodeWf 0x0304 pkt
  | .fillGroupCreate _ pkt => opcodeWf 0x0310 pkt
  | .fillSubmit _ pkt => opcodeWf 0x0311 pkt
  | .fillFlush _ pkt => opcodeWf 0x0312 pkt
  | .fillGroupDestroy _ pkt => opcodeWf 0x0313 pkt
  | .fillDeadlineExpiry _ _ => true
  | .stream _ pkt => opcodeWf 0x0401 pkt
  | .fused _ pkt => opcodeWf 0x0402 pkt
  | .fence _ pkt => opcodeWf 0x0403 pkt
  | .hostCopy _ pkt => opcodeWf 0x0404 pkt
  | .fillConst _ pkt => opcodeWf 0x0405 pkt
  | .reduceScatter _ pkt => opcodeWf 0x0501 pkt
  | .allGather _ pkt => opcodeWf 0x0502 pkt
  | .allReduce _ pkt => opcodeWf 0x0503 pkt
  | .broadcast _ pkt => opcodeWf 0x0504 pkt
  | .barrier _ pkt => opcodeWf 0x0505 pkt
  | .scaleVote _ pkt => opcodeWf 0x0506 pkt
  | .embTableCreate _ pkt => opcodeWf 0x0601 pkt
  | .embLookup _ pkt => opcodeWf 0x0602 pkt
  | .embUpdate _ pkt => opcodeWf 0x0603 pkt
  | .yarrowLoad _ pkt => opcodeWf 0x0604 pkt
  | .yarrowWriteback _ pkt => opcodeWf 0x0605 pkt
  | .cruGroupCreate _ pkt => opcodeWf 0x0701 pkt
  | .cruApply _ pkt _ => opcodeWf 0x0702 pkt
  | .cruSetScale _ pkt => opcodeWf 0x0703 pkt
  | .cruDeferredFlush _ pkt => opcodeWf 0x0704 pkt
  | .detLedgerRead _ pkt => opcodeWf 0x0801 pkt
  | .digest _ pkt => opcodeWf 0x0802 pkt
  | .matchPair _ pkt => opcodeWf 0x0803 pkt
  | .matchUnpair _ pkt => opcodeWf 0x0804 pkt
  | .repairRequest _ pkt => opcodeWf 0x0901 pkt
  | .unitQuery _ pkt => opcodeWf 0x0902 pkt
  | .scrub _ pkt => opcodeWf 0x0903 pkt
  | .fwUpdate _ pkt => opcodeWf 0x0904 pkt
  | .cmpIndex _ pkt => opcodeWf 0x0A01 pkt
  | .cmpVerify _ pkt => opcodeWf 0x0A02 pkt
  | .exportShard _ pkt => opcodeWf 0x0B01 pkt
  | .campionOpen _ pkt => opcodeWf 0x0B02 pkt
  | .campionClose _ pkt => opcodeWf 0x0B03 pkt
  | .doorbellWrite _ _ _ => true
  | .adminQueueCfgWrite _ _ _ _ _ => true
  | .packetFetch _ => true
  | .commandDispatch _ => true
  | .commandComplete _ => true
  | .commandTimeout _ => true
  | .seqNop _ => true
  | .endProg _ => true
  | .loopBegin _ => true
  | .loopEnd _ => true
  | .yield _ => true
  | .bar _ => true
  | .barrierRelease _ => true
  | .tile _ _ _ => true
  | .conv _ _ _ => true
  | .drain _ _ _ => true
  | .vec _ => true
  | .streamOperation _ _ => true
  | .ladle _ _ => true
  | .madd _ => true
  | .lookup _ => true
  | .update _ => true
  | .hash _ => true
  | .operationComplete _ _ => true
  | .phaseSwitch _ => true
  | .moveSlotGrant _ => true
  | .watchdogExpiry _ _ => true
  | .transferLanded _ _ => true
  | .parkLimitExpiry _ => true
  | .farRetryReissue _ _ => true
  | .runnerInterval => true
  | .refreshWindow => true
  | .farTimeout _ _ => true
  | .rdData _ _ _ _ _ data => decide (data.length ≤ 4096)
  | .memAckReply _ _ _ _ => true
  | .retryReply _ _ _ _ => true
  | .errorReply _ _ _ _ => true
  | .capsData _ _ => true
  | .pong _ _ _ => true
  | .xoState _ _ _ _ => true
  | .xoSlotTimeout _ _ => true
  | .dataFlit _ _ _ flit => flitWf flit
  | .idleFlit _ _ _ flit => flitWf flit
  | .nak _ _ _ flit => flitWf flit
  | .nakResendTimer _ => true
  | .retrain _ flit => optWf flitWf flit
  | .width _ flit _ _ => optWf flitWf flit
  | .train _ _ _ flit => flitWf flit
  | .codewordLockLoss _ _ => true
  | .portTrained _ => true
  | .trainingLimitExpiry _ => true
  | .linkDrop _ => true
  | .reqLifeExpiry _ _ => true
  | .cmdPacket _ pkt => fabWf pkt
  | .collPacket _ pkt => fabWf pkt
  | .barPacket _ pkt => fabWf pkt
  | .digestPacket _ pkt => fabWf pkt
  | .ackPacket _ pkt => fabWf pkt
  | .completionCacheExpiry _ _ => true
  | .matchPairReceive _ pkt => fabWf pkt
  | .matchForward _ pkt => fabWf pkt
  | .matchDigests _ pkt => fabWf pkt
  | .matchTiles _ pkt => fabWf pkt
  | .matchUnpairReceive _ pkt => fabWf pkt
  | .pageResponse _ _ _ _ => true
  | .atsInvalidation _ _ _ => true
  | .hostWindowAccess _ write _ len data => !write || data.length == len
  | .hostSnoop _ _ _ _ newData => optWf lineWf newData
  | .hdmDecoderCommit _ => true
  | .hostLinkDown _ => true
  | .hostLinkUp _ _ _ _ => true
  | .hostHoldExpiry _ => true
  | .bucketEvent _ _ _ => true
  | .arrayRemapApply _ _ => true
  | .localViewAck _ _ _ => true
  | .riserRewriteTimer _ => true
  | .riserCompareTimer _ => true
  | .spareSelfTest _ => true
  | .patrolScrub _ _ => true
  | .laserPowerSample _ _ => true
  | .sensorReading _ _ tenths => !tenths.isEmpty
  | .limitStepDown _ => true
  | .overcurrentAlert _ => true
  | .overcurrentRelease => true
  | .powerLoopTick _ => true
  | .widthIdleExpiry _ => true
  | .coreGateIdle _ => true
  | .pllLock _ _ => true
  | .campionStallExpiry _ => true
  | .campionHeadWrite _ _ _ => true
  | .colRingWrite _ _ _ _ => true
  | .gpioCfgWrite _ _ _ => true
  | .gpioParkEnd _ => true
  | .clkClusterWrite _ _ _ => true
  | .registerWrite _ _ _ _ => true
  | .readClear _ _ _ _ => true
  | .tachWindowEnd _ => true
  | .mpSyncPulse => true
  | .mpSyncFall _ => true
  | .mpSyncLockTimeout => true
  | .fwRejoinTimeout _ => true
  | .spdmRequest _ => true
  | .keySlotSet _ _ key => optWf keyWf key
  | .pldmFirmwareUpdate _ => true
  | .mgmtRiserRequest _ _ _ _ => true
  | .aoPwrgoodRise _ => true
  | .coldReset => true
  | .startup _ => true
  | .warmReset => true
  | .resetNRelease => true
  | .mainPwrgoodLoss => true
  | .perstAssert _ => true
  | .perstRelease _ => true
  | .aoRefclkLoss => true
  | .glRefclkLoss => true
  | .hlRefclkLoss _ => true
  | .hostConfigurationRequest _ _ => true
  | .atsTranslationCompletion _ _ _ _ => true
  | .birsp _ _ wb => optWf lineWf wb
  | .hostLinkRecovery _ => true
  | .glRefclkReturn => true
  | .tachometerEdge _ => true
  | .tapOperation _ _ _ => true
  | .mpSyncHoldEnd => true

end Sys2Proof
end

