-- ==== Sys2Proof/Laws/PerInstr.lean ====
section
/-! SUPPORT. For every command: a well-formed opcode row's opcode is one that COMMAND_DISPATCH runs (R59). -/

namespace Sys2Proof.Laws.Kind
open Sys2Proof Sys2Proof.Machine

/-- The packet an opcode row carries. -/
def packetOf : Instr → Option Packet
  | .queueCreate _ pkt => some pkt
  | .queueDestroy _ pkt => some pkt
  | .queueStart _ pkt => some pkt
  | .queueStop _ pkt => some pkt
  | .ctxCreate _ pkt => some pkt
  | .ctxDestroy _ pkt => some pkt
  | .ctxPreempt _ pkt => some pkt
  | .ctxSetMode _ pkt => some pkt
  | .partCarve _ pkt => some pkt
  | .partReset _ pkt => some pkt
  | .nop _ pkt => some pkt
  | .ticketRelease _ pkt => some pkt
  | .objCreate _ pkt => some pkt
  | .objFree _ pkt => some pkt
  | .objSetPolicy _ pkt => some pkt
  | .objQuery _ pkt => some pkt
  | .progLoad _ pkt => some pkt
  | .progLaunch _ pkt => some pkt
  | .planLoad _ pkt => some pkt
  | .planLaunch _ pkt => some pkt
  | .fillGroupCreate _ pkt => some pkt
  | .fillSubmit _ pkt => some pkt
  | .fillFlush _ pkt => some pkt
  | .fillGroupDestroy _ pkt => some pkt
  | .fillDeadlineExpiry _ _ => none
  | .stream _ pkt => some pkt
  | .fused _ pkt => some pkt
  | .fence _ pkt => some pkt
  | .hostCopy _ pkt => some pkt
  | .fillConst _ pkt => some pkt
  | .reduceScatter _ pkt => some pkt
  | .allGather _ pkt => some pkt
  | .allReduce _ pkt => some pkt
  | .broadcast _ pkt => some pkt
  | .barrier _ pkt => some pkt
  | .scaleVote _ pkt => some pkt
  | .embTableCreate _ pkt => some pkt
  | .embLookup _ pkt => some pkt
  | .embUpdate _ pkt => some pkt
  | .yarrowLoad _ pkt => some pkt
  | .yarrowWriteback _ pkt => some pkt
  | .cruGroupCreate _ pkt => some pkt
  | .cruApply _ pkt _ => some pkt
  | .cruSetScale _ pkt => some pkt
  | .cruDeferredFlush _ pkt => some pkt
  | .detLedgerRead _ pkt => some pkt
  | .digest _ pkt => some pkt
  | .matchPair _ pkt => some pkt
  | .matchUnpair _ pkt => some pkt
  | .repairRequest _ pkt => some pkt
  | .unitQuery _ pkt => some pkt
  | .scrub _ pkt => some pkt
  | .fwUpdate _ pkt => some pkt
  | .cmpIndex _ pkt => some pkt
  | .cmpVerify _ pkt => some pkt
  | .exportShard _ pkt => some pkt
  | .campionOpen _ pkt => some pkt
  | .campionClose _ pkt => some pkt
  | .doorbellWrite _ _ _ => none
  | .adminQueueCfgWrite _ _ _ _ _ => none
  | .packetFetch _ => none
  | .commandDispatch _ => none
  | .commandComplete _ => none
  | .commandTimeout _ => none
  | .seqNop _ => none
  | .endProg _ => none
  | .loopBegin _ => none
  | .loopEnd _ => none
  | .yield _ => none
  | .bar _ => none
  | .barrierRelease _ => none
  | .tile _ _ _ => none
  | .conv _ _ _ => none
  | .drain _ _ _ => none
  | .vec _ => none
  | .streamOperation _ _ => none
  | .ladle _ _ => none
  | .madd _ => none
  | .lookup _ => none
  | .update _ => none
  | .hash _ => none
  | .operationComplete _ _ => none
  | .phaseSwitch _ => none
  | .moveSlotGrant _ => none
  | .watchdogExpiry _ _ => none
  | .transferLanded _ _ => none
  | .parkLimitExpiry _ => none
  | .farRetryReissue _ _ => none
  | .runnerInterval => none
  | .refreshWindow => none
  | .farTimeout _ _ => none
  | .rdData _ _ _ _ _ _ => none
  | .memAckReply _ _ _ _ => none
  | .retryReply _ _ _ _ => none
  | .errorReply _ _ _ _ => none
  | .capsData _ _ => none
  | .pong _ _ _ => none
  | .xoState _ _ _ _ => none
  | .xoSlotTimeout _ _ => none
  | .dataFlit _ _ _ _ => none
  | .idleFlit _ _ _ _ => none
  | .nak _ _ _ _ => none
  | .nakResendTimer _ => none
  | .retrain _ _ => none
  | .width _ _ _ _ => none
  | .train _ _ _ _ => none
  | .codewordLockLoss _ _ => none
  | .portTrained _ => none
  | .trainingLimitExpiry _ => none
  | .linkDrop _ => none
  | .reqLifeExpiry _ _ => none
  | .cmdPacket _ _ => none
  | .collPacket _ _ => none
  | .barPacket _ _ => none
  | .digestPacket _ _ => none
  | .ackPacket _ _ => none
  | .completionCacheExpiry _ _ => none
  | .matchPairReceive _ _ => none
  | .matchForward _ _ => none
  | .matchDigests _ _ => none
  | .matchTiles _ _ => none
  | .matchUnpairReceive _ _ => none
  | .pageResponse _ _ _ _ => none
  | .atsInvalidation _ _ _ => none
  | .hostWindowAccess _ _ _ _ _ => none
  | .hostSnoop _ _ _ _ _ => none
  | .hdmDecoderCommit _ => none
  | .hostLinkDown _ => none
  | .hostLinkUp _ _ _ _ => none
  | .hostHoldExpiry _ => none
  | .bucketEvent _ _ _ => none
  | .arrayRemapApply _ _ => none
  | .localViewAck _ _ _ => none
  | .riserRewriteTimer _ => none
  | .riserCompareTimer _ => none
  | .spareSelfTest _ => none
  | .patrolScrub _ _ => none
  | .laserPowerSample _ _ => none
  | .sensorReading _ _ _ => none
  | .limitStepDown _ => none
  | .overcurrentAlert _ => none
  | .overcurrentRelease => none
  | .powerLoopTick _ => none
  | .widthIdleExpiry _ => none
  | .coreGateIdle _ => none
  | .pllLock _ _ => none
  | .campionStallExpiry _ => none
  | .campionHeadWrite _ _ _ => none
  | .colRingWrite _ _ _ _ => none
  | .gpioCfgWrite _ _ _ => none
  | .gpioParkEnd _ => none
  | .clkClusterWrite _ _ _ => none
  | .registerWrite _ _ _ _ => none
  | .readClear _ _ _ _ => none
  | .tachWindowEnd _ => none
  | .mpSyncPulse => none
  | .mpSyncFall _ => none
  | .mpSyncLockTimeout => none
  | .fwRejoinTimeout _ => none
  | .spdmRequest _ => none
  | .keySlotSet _ _ _ => none
  | .pldmFirmwareUpdate _ => none
  | .mgmtRiserRequest _ _ _ _ => none
  | .aoPwrgoodRise _ => none
  | .coldReset => none
  | .startup _ => none
  | .warmReset => none
  | .resetNRelease => none
  | .mainPwrgoodLoss => none
  | .perstAssert _ => none
  | .perstRelease _ => none
  | .aoRefclkLoss => none
  | .glRefclkLoss => none
  | .hlRefclkLoss _ => none
  | .hostConfigurationRequest _ _ => none
  | .atsTranslationCompletion _ _ _ _ => none
  | .birsp _ _ _ => none
  | .hostLinkRecovery _ => none
  | .glRefclkReturn => none
  | .tachometerEdge _ => none
  | .tapOperation _ _ _ => none
  | .mpSyncHoldEnd => none

/-- A well-formed opcode row carries an opcode that the dispatch table lists. -/
def Statement (i : Instr) : Prop :=
  ∀ pkt, packetOf i = some pkt → i.wf = true → (opcodes.map (·.1)).contains (packetOpcode pkt) = true

/-- One opcode of the table. -/
theorem listed (op : Nat) (pkt : Packet) (h : (opcodes.map (·.1)).contains op = true) :
    ∀ p, some pkt = some p → opcodeWf op pkt = true → (opcodes.map (·.1)).contains (packetOpcode p) = true := by
  intro p hp hw
  cases hp
  simp only [opcodeWf, Bool.and_eq_true, beq_iff_eq] at hw
  rw [hw.2]; exact h

theorem queueCreate (q : QueueId) (pkt : Packet) : Statement (.queueCreate q pkt) := listed _ _ (by decide)
theorem queueDestroy (q : QueueId) (pkt : Packet) : Statement (.queueDestroy q pkt) := listed _ _ (by decide)
theorem queueStart (q : QueueId) (pkt : Packet) : Statement (.queueStart q pkt) := listed _ _ (by decide)
theorem queueStop (q : QueueId) (pkt : Packet) : Statement (.queueStop q pkt) := listed _ _ (by decide)
theorem ctxCreate (q : QueueId) (pkt : Packet) : Statement (.ctxCreate q pkt) := listed _ _ (by decide)
theorem ctxDestroy (q : QueueId) (pkt : Packet) : Statement (.ctxDestroy q pkt) := listed _ _ (by decide)
theorem ctxPreempt (q : QueueId) (pkt : Packet) : Statement (.ctxPreempt q pkt) := listed _ _ (by decide)
theorem ctxSetMode (q : QueueId) (pkt : Packet) : Statement (.ctxSetMode q pkt) := listed _ _ (by decide)
theorem partCarve (q : QueueId) (pkt : Packet) : Statement (.partCarve q pkt) := listed _ _ (by decide)
theorem partReset (q : QueueId) (pkt : Packet) : Statement (.partReset q pkt) := listed _ _ (by decide)
theorem nop (q : QueueId) (pkt : Packet) : Statement (.nop q pkt) := listed _ _ (by decide)
theorem ticketRelease (q : QueueId) (pkt : Packet) : Statement (.ticketRelease q pkt) := listed _ _ (by decide)
theorem objCreate (q : QueueId) (pkt : Packet) : Statement (.objCreate q pkt) := listed _ _ (by decide)
theorem objFree (q : QueueId) (pkt : Packet) : Statement (.objFree q pkt) := listed _ _ (by decide)
theorem objSetPolicy (q : QueueId) (pkt : Packet) : Statement (.objSetPolicy q pkt) := listed _ _ (by decide)
theorem objQuery (q : QueueId) (pkt : Packet) : Statement (.objQuery q pkt) := listed _ _ (by decide)
theorem progLoad (q : QueueId) (pkt : Packet) : Statement (.progLoad q pkt) := listed _ _ (by decide)
theorem progLaunch (q : QueueId) (pkt : Packet) : Statement (.progLaunch q pkt) := listed _ _ (by decide)
theorem planLoad (q : QueueId) (pkt : Packet) : Statement (.planLoad q pkt) := listed _ _ (by decide)
theorem planLaunch (q : QueueId) (pkt : Packet) : Statement (.planLaunch q pkt) := listed _ _ (by decide)
theorem fillGroupCreate (q : QueueId) (pkt : Packet) : Statement (.fillGroupCreate q pkt) := listed _ _ (by decide)
theorem fillSubmit (q : QueueId) (pkt : Packet) : Statement (.fillSubmit q pkt) := listed _ _ (by decide)
theorem fillFlush (q : QueueId) (pkt : Packet) : Statement (.fillFlush q pkt) := listed _ _ (by decide)
theorem fillGroupDestroy (q : QueueId) (pkt : Packet) : Statement (.fillGroupDestroy q pkt) := listed _ _ (by decide)
theorem fillDeadlineExpiry (p : Fin 32) (g : Fin 64) : Statement (.fillDeadlineExpiry p g) := fun _ h => by cases h
theorem stream (q : QueueId) (pkt : Packet) : Statement (.stream q pkt) := listed _ _ (by decide)
theorem fused (q : QueueId) (pkt : Packet) : Statement (.fused q pkt) := listed _ _ (by decide)
theorem fence (q : QueueId) (pkt : Packet) : Statement (.fence q pkt) := listed _ _ (by decide)
theorem hostCopy (q : QueueId) (pkt : Packet) : Statement (.hostCopy q pkt) := listed _ _ (by decide)
theorem fillConst (q : QueueId) (pkt : Packet) : Statement (.fillConst q pkt) := listed _ _ (by decide)
theorem reduceScatter (q : QueueId) (pkt : Packet) : Statement (.reduceScatter q pkt) := listed _ _ (by decide)
theorem allGather (q : QueueId) (pkt : Packet) : Statement (.allGather q pkt) := listed _ _ (by decide)
theorem allReduce (q : QueueId) (pkt : Packet) : Statement (.allReduce q pkt) := listed _ _ (by decide)
theorem broadcast (q : QueueId) (pkt : Packet) : Statement (.broadcast q pkt) := listed _ _ (by decide)
theorem barrier (q : QueueId) (pkt : Packet) : Statement (.barrier q pkt) := listed _ _ (by decide)
theorem scaleVote (q : QueueId) (pkt : Packet) : Statement (.scaleVote q pkt) := listed _ _ (by decide)
theorem embTableCreate (q : QueueId) (pkt : Packet) : Statement (.embTableCreate q pkt) := listed _ _ (by decide)
theorem embLookup (q : QueueId) (pkt : Packet) : Statement (.embLookup q pkt) := listed _ _ (by decide)
theorem embUpdate (q : QueueId) (pkt : Packet) : Statement (.embUpdate q pkt) := listed _ _ (by decide)
theorem yarrowLoad (q : QueueId) (pkt : Packet) : Statement (.yarrowLoad q pkt) := listed _ _ (by decide)
theorem yarrowWriteback (q : QueueId) (pkt : Packet) : Statement (.yarrowWriteback q pkt) := listed _ _ (by decide)
theorem cruGroupCreate (q : QueueId) (pkt : Packet) : Statement (.cruGroupCreate q pkt) := listed _ _ (by decide)
theorem cruApply (q : QueueId) (pkt : Packet) (faults : List Nat) : Statement (.cruApply q pkt faults) := listed _ _ (by decide)
theorem cruSetScale (q : QueueId) (pkt : Packet) : Statement (.cruSetScale q pkt) := listed _ _ (by decide)
theorem cruDeferredFlush (q : QueueId) (pkt : Packet) : Statement (.cruDeferredFlush q pkt) := listed _ _ (by decide)
theorem detLedgerRead (q : QueueId) (pkt : Packet) : Statement (.detLedgerRead q pkt) := listed _ _ (by decide)
theorem digest (q : QueueId) (pkt : Packet) : Statement (.digest q pkt) := listed _ _ (by decide)
theorem matchPair (q : QueueId) (pkt : Packet) : Statement (.matchPair q pkt) := listed _ _ (by decide)
theorem matchUnpair (q : QueueId) (pkt : Packet) : Statement (.matchUnpair q pkt) := listed _ _ (by decide)
theorem repairRequest (q : QueueId) (pkt : Packet) : Statement (.repairRequest q pkt) := listed _ _ (by decide)
theorem unitQuery (q : QueueId) (pkt : Packet) : Statement (.unitQuery q pkt) := listed _ _ (by decide)
theorem scrub (q : QueueId) (pkt : Packet) : Statement (.scrub q pkt) := listed _ _ (by decide)
theorem fwUpdate (q : QueueId) (pkt : Packet) : Statement (.fwUpdate q pkt) := listed _ _ (by decide)
theorem cmpIndex (q : QueueId) (pkt : Packet) : Statement (.cmpIndex q pkt) := listed _ _ (by decide)
theorem cmpVerify (q : QueueId) (pkt : Packet) : Statement (.cmpVerify q pkt) := listed _ _ (by decide)
theorem exportShard (q : QueueId) (pkt : Packet) : Statement (.exportShard q pkt) := listed _ _ (by decide)
theorem campionOpen (q : QueueId) (pkt : Packet) : Statement (.campionOpen q pkt) := listed _ _ (by decide)
theorem campionClose (q : QueueId) (pkt : Packet) : Statement (.campionClose q pkt) := listed _ _ (by decide)
theorem doorbellWrite (fn : Fin 33) (q : QueueId) (value : BitVec 32) : Statement (.doorbellWrite fn q value) := fun _ h => by cases h
theorem adminQueueCfgWrite (fn : Fin 33) (link : Fin 2) (which : RingReg) (access : Access) (value : BitVec 64) : Statement (.adminQueueCfgWrite fn link which access value) := fun _ h => by cases h
theorem packetFetch (q : FetchRead) : Statement (.packetFetch q) := fun _ h => by cases h
theorem commandDispatch (q : QueueId) : Statement (.commandDispatch q) := fun _ h => by cases h
theorem commandComplete (uid : Nat) : Statement (.commandComplete uid) := fun _ h => by cases h
theorem commandTimeout (uid : Nat) : Statement (.commandTimeout uid) := fun _ h => by cases h
theorem seqNop (c : Fin 40) : Statement (.seqNop c) := fun _ h => by cases h
theorem endProg (c : Fin 40) : Statement (.endProg c) := fun _ h => by cases h
theorem loopBegin (c : Fin 40) : Statement (.loopBegin c) := fun _ h => by cases h
theorem loopEnd (c : Fin 40) : Statement (.loopEnd c) := fun _ h => by cases h
theorem yield (c : Fin 40) : Statement (.yield c) := fun _ h => by cases h
theorem bar (c : Fin 40) : Statement (.bar c) := fun _ h => by cases h
theorem barrierRelease (what : BarKey) : Statement (.barrierRelease what) := fun _ h => by cases h
theorem tile (c : Fin 40) (a : Fin 4) (fault : Option Residue) : Statement (.tile c a fault) := fun _ h => by cases h
theorem conv (c : Fin 40) (a : Fin 4) (fault : Option Residue) : Statement (.conv c a fault) := fun _ h => by cases h
theorem drain (c : Fin 40) (a : Fin 4) (fault : Option Residue) : Statement (.drain c a fault) := fun _ h => by cases h
theorem vec (c : Fin 40) : Statement (.vec c) := fun _ h => by cases h
theorem streamOperation (c : Fin 40) (out : Bool) : Statement (.streamOperation c out) := fun _ h => by cases h
theorem ladle (c : Fin 40) (fault : Option Nat) : Statement (.ladle c fault) := fun _ h => by cases h
theorem madd (c : Fin 40) : Statement (.madd c) := fun _ h => by cases h
theorem lookup (c : Fin 40) : Statement (.lookup c) := fun _ h => by cases h
theorem update (c : Fin 40) : Statement (.update c) := fun _ h => by cases h
theorem hash (c : Fin 40) : Statement (.hash c) := fun _ h => by cases h
theorem operationComplete (c : Fin 40) (e : Fin 9) : Statement (.operationComplete c e) := fun _ h => by cases h
theorem phaseSwitch (c : Fin 40) : Statement (.phaseSwitch c) := fun _ h => by cases h
theorem moveSlotGrant (p : Fin 32) : Statement (.moveSlotGrant p) := fun _ h => by cases h
theorem watchdogExpiry (c : Fin 40) (e : Fin 9) : Statement (.watchdogExpiry c e) := fun _ h => by cases h
theorem transferLanded (id : Nat) (result : Landing) : Statement (.transferLanded id result) := fun _ h => by cases h
theorem parkLimitExpiry (id : Nat) : Statement (.parkLimitExpiry id) := fun _ h => by cases h
theorem farRetryReissue (orig : Fin 8) (tag : Fin 1048576) : Statement (.farRetryReissue orig tag) := fun _ h => by cases h
theorem runnerInterval : Statement (.runnerInterval) := fun _ h => by cases h
theorem refreshWindow : Statement (.refreshWindow) := fun _ h => by cases h
theorem farTimeout (orig : Fin 8) (tag : Fin 1048576) : Statement (.farTimeout orig tag) := fun _ h => by cases h
theorem rdData (port : Fin 8) (fromCache : Bool) (orig : Fin 8) (tag : Fin 1048576) (poison : BitVec 64) (data : List Byte) : Statement (.rdData port fromCache orig tag poison data) := fun _ h => by cases h
theorem memAckReply (port : Fin 8) (fromCache : Bool) (orig : Fin 8) (tag : Fin 1048576) : Statement (.memAckReply port fromCache orig tag) := fun _ h => by cases h
theorem retryReply (port : Fin 8) (orig : Fin 8) (tag : Fin 1048576) (us : BitVec 16) : Statement (.retryReply port orig tag us) := fun _ h => by cases h
theorem errorReply (port : Fin 8) (orig : Fin 8) (tag : Fin 1048576) (code : BitVec 16) : Statement (.errorReply port orig tag code) := fun _ h => by cases h
theorem capsData (port : Fin 8) (caps : Caps) : Statement (.capsData port caps) := fun _ h => by cases h
theorem pong (port : Fin 8) (orig : Fin 8) (tag : Fin 1048576) : Statement (.pong port orig tag) := fun _ h => by cases h
theorem xoState (port : Fin 8) (orig : Fin 8) (tag : Fin 1048576) (answer : XoAnswer) : Statement (.xoState port orig tag answer) := fun _ h => by cases h
theorem xoSlotTimeout (orig : Fin 8) (slot : Fin 4096) : Statement (.xoSlotTimeout orig slot) := fun _ h => by cases h
theorem dataFlit (k : Fin 36) (wl : Fin 9) (fec : Option (Fin 31)) (flit : List Byte) : Statement (.dataFlit k wl fec flit) := fun _ h => by cases h
theorem idleFlit (k : Fin 36) (wl : Fin 9) (fec : Option (Fin 31)) (flit : List Byte) : Statement (.idleFlit k wl fec flit) := fun _ h => by cases h
theorem nak (k : Fin 36) (wl : Fin 9) (fec : Option (Fin 31)) (flit : List Byte) : Statement (.nak k wl fec flit) := fun _ h => by cases h
theorem nakResendTimer (k : Fin 36) : Statement (.nakResendTimer k) := fun _ h => by cases h
theorem retrain (k : Fin 36) (flit : Option (List Byte)) : Statement (.retrain k flit) := fun _ h => by cases h
theorem width (k : Fin 36) (flit : Option (List Byte)) (answer : Bool) (width : Fin 9) : Statement (.width k flit answer width) := fun _ h => by cases h
theorem train (k : Fin 36) (wl : Fin 9) (fec : TrainRead) (flit : List Byte) : Statement (.train k wl fec flit) := fun _ h => by cases h
theorem codewordLockLoss (k : Fin 36) (wl : Fin 9) : Statement (.codewordLockLoss k wl) := fun _ h => by cases h
theorem portTrained (k : Fin 36) : Statement (.portTrained k) := fun _ h => by cases h
theorem trainingLimitExpiry (m : Fin 8) : Statement (.trainingLimitExpiry m) := fun _ h => by cases h
theorem linkDrop (k : Fin 36) : Statement (.linkDrop k) := fun _ h => by cases h
theorem reqLifeExpiry (k : Fin 36) (tag : Fin 4096) : Statement (.reqLifeExpiry k tag) := fun _ h => by cases h
theorem cmdPacket (k : Fin 36) (pkt : FabPacket) : Statement (.cmdPacket k pkt) := fun _ h => by cases h
theorem collPacket (k : Fin 36) (pkt : FabPacket) : Statement (.collPacket k pkt) := fun _ h => by cases h
theorem barPacket (k : Fin 36) (pkt : FabPacket) : Statement (.barPacket k pkt) := fun _ h => by cases h
theorem digestPacket (k : Fin 36) (pkt : FabPacket) : Statement (.digestPacket k pkt) := fun _ h => by cases h
theorem ackPacket (k : Fin 36) (pkt : FabPacket) : Statement (.ackPacket k pkt) := fun _ h => by cases h
theorem completionCacheExpiry (k : Fin 36) (tag : Fin 4096) : Statement (.completionCacheExpiry k tag) := fun _ h => by cases h
theorem matchPairReceive (k : Fin 36) (pkt : FabPacket) : Statement (.matchPairReceive k pkt) := fun _ h => by cases h
theorem matchForward (k : Fin 36) (pkt : FabPacket) : Statement (.matchForward k pkt) := fun _ h => by cases h
theorem matchDigests (k : Fin 36) (pkt : FabPacket) : Statement (.matchDigests k pkt) := fun _ h => by cases h
theorem matchTiles (k : Fin 36) (pkt : FabPacket) : Statement (.matchTiles k pkt) := fun _ h => by cases h
theorem matchUnpairReceive (k : Fin 36) (pkt : FabPacket) : Statement (.matchUnpairReceive k pkt) := fun _ h => by cases h
theorem pageResponse (l : Fin 2) (pasid : Option (BitVec 20)) (page : Nat) (resp : PageResp) : Statement (.pageResponse l pasid page resp) := fun _ h => by cases h
theorem atsInvalidation (l : Fin 2) (pasid : Option (BitVec 20)) (page : Nat) : Statement (.atsInvalidation l pasid page) := fun _ h => by cases h
theorem hostWindowAccess (l : Fin 2) (write : Bool) (off : Nat) (len : Nat) (data : List Byte) : Statement (.hostWindowAccess l write off len data) := fun _ h => by cases h
theorem hostSnoop (d : Fin 2) (pasid : Option (BitVec 20)) (line : Nat) (kind : Snoop) (newData : Option (List Byte)) : Statement (.hostSnoop d pasid line kind newData) := fun _ h => by cases h
theorem hdmDecoderCommit (l : Fin 2) : Statement (.hdmDecoderCommit l) := fun _ h => by cases h
theorem hostLinkDown (l : Fin 2) : Statement (.hostLinkDown l) := fun _ h => by cases h
theorem hostLinkUp (l : Fin 2) (rate : Fin 7) (width : Fin 17) (flit256 : Bool) : Statement (.hostLinkUp l rate width flit256) := fun _ h => by cases h
theorem hostHoldExpiry (l : Fin 2) : Statement (.hostHoldExpiry l) := fun _ h => by cases h
theorem bucketEvent (cls : Fin 16) (what : FaultSite) (bits : Nat) : Statement (.bucketEvent cls what bits) := fun _ h => by cases h
theorem arrayRemapApply (c : Fin 40) (a : Fin 4) : Statement (.arrayRemapApply c a) := fun _ h => by cases h
theorem localViewAck (unit : BitVec 32) (st : UnitState) (gen : BitVec 32) : Statement (.localViewAck unit st gen) := fun _ h => by cases h
theorem riserRewriteTimer (unit : BitVec 32) : Statement (.riserRewriteTimer unit) := fun _ h => by cases h
theorem riserCompareTimer (selfTestOk : Bool) : Statement (.riserCompareTimer selfTestOk) := fun _ h => by cases h
theorem spareSelfTest (failing : List (BitVec 32)) : Statement (.spareSelfTest failing) := fun _ h => by cases h
theorem patrolScrub (ctl : Fin 16) (finding : ScrubFinding) : Statement (.patrolScrub ctl finding) := fun _ h => by cases h
theorem laserPowerSample (i : Fin 14) (power : BitVec 16) : Statement (.laserPowerSample i power) := fun _ h => by cases h
theorem sensorReading (kind : SensorKind) (index : Fin 8) (tenths : List Int) : Statement (.sensorReading kind index tenths) := fun _ h => by cases h
theorem limitStepDown (cl : Fin 8) : Statement (.limitStepDown cl) := fun _ h => by cases h
theorem overcurrentAlert (vrAlert : Bool) : Statement (.overcurrentAlert vrAlert) := fun _ h => by cases h
theorem overcurrentRelease : Statement (.overcurrentRelease) := fun _ h => by cases h
theorem powerLoopTick (watts : Nat) : Statement (.powerLoopTick watts) := fun _ h => by cases h
theorem widthIdleExpiry (k : Fin 36) : Statement (.widthIdleExpiry k) := fun _ h => by cases h
theorem coreGateIdle (p : Fin 32) : Statement (.coreGateIdle p) := fun _ h => by cases h
theorem pllLock (cl : Fin 8) (ok : Bool) : Statement (.pllLock cl ok) := fun _ h => by cases h
theorem campionStallExpiry (j : Fin 16) : Statement (.campionStallExpiry j) := fun _ h => by cases h
theorem campionHeadWrite (fn : Fin 33) (j : Fin 16) (value : BitVec 64) : Statement (.campionHeadWrite fn j value) := fun _ h => by cases h
theorem colRingWrite (fn : Fin 33) (p : Fin 32) (axis : Fin 3) (value : BitVec 64) : Statement (.colRingWrite fn p axis value) := fun _ h => by cases h
theorem gpioCfgWrite (fn : Fin 33) (n : Fin 16) (value : BitVec 64) : Statement (.gpioCfgWrite fn n value) := fun _ h => by cases h
theorem gpioParkEnd (n : Fin 16) : Statement (.gpioParkEnd n) := fun _ h => by cases h
theorem clkClusterWrite (fn : Fin 33) (k : Fin 8) (value : BitVec 64) : Statement (.clkClusterWrite fn k value) := fun _ h => by cases h
theorem registerWrite (fn : Fin 33) (off : BitVec 26) (access : Access) (value : BusWrite) : Statement (.registerWrite fn off access value) := fun _ h => by cases h
theorem readClear (fn : Fin 33) (off : BitVec 26) (access : Access) (event : BitVec 64) : Statement (.readClear fn off access event) := fun _ h => by cases h
theorem tachWindowEnd (k : Fin 8) : Statement (.tachWindowEnd k) := fun _ h => by cases h
theorem mpSyncPulse : Statement (.mpSyncPulse) := fun _ h => by cases h
theorem mpSyncFall (lowFor : Nat) : Statement (.mpSyncFall lowFor) := fun _ h => by cases h
theorem mpSyncLockTimeout : Statement (.mpSyncLockTimeout) := fun _ h => by cases h
theorem fwRejoinTimeout (h : Fin 18) : Statement (.fwRejoinTimeout h) := fun _ h => by cases h
theorem spdmRequest (req : SpdmReq) : Statement (.spdmRequest req) := fun _ h => by cases h
theorem keySlotSet (session : Fin 4) (slot : Fin 64) (key : Option (List Byte)) : Statement (.keySlotSet session slot key) := fun _ h => by cases h
theorem pldmFirmwareUpdate (image : List Byte) : Statement (.pldmFirmwareUpdate image) := fun _ h => by cases h
theorem mgmtRiserRequest (action : RiserAction) (unit : BitVec 32) (gen : BitVec 32) (row : BitVec 64) : Statement (.mgmtRiserRequest action unit gen row) := fun _ h => by cases h
theorem aoPwrgoodRise (straps : Fin 8) : Statement (.aoPwrgoodRise straps) := fun _ h => by cases h
theorem coldReset : Statement (.coldReset) := fun _ h => by cases h
theorem startup (r : StartupResults) : Statement (.startup r) := fun _ h => by cases h
theorem warmReset : Statement (.warmReset) := fun _ h => by cases h
theorem resetNRelease : Statement (.resetNRelease) := fun _ h => by cases h
theorem mainPwrgoodLoss : Statement (.mainPwrgoodLoss) := fun _ h => by cases h
theorem perstAssert (l : Fin 2) : Statement (.perstAssert l) := fun _ h => by cases h
theorem perstRelease (l : Fin 2) : Statement (.perstRelease l) := fun _ h => by cases h
theorem aoRefclkLoss : Statement (.aoRefclkLoss) := fun _ h => by cases h
theorem glRefclkLoss : Statement (.glRefclkLoss) := fun _ h => by cases h
theorem hlRefclkLoss (l : Fin 2) : Statement (.hlRefclkLoss l) := fun _ h => by cases h
theorem hostConfigurationRequest (l : Fin 2) (what : CfgReq) : Statement (.hostConfigurationRequest l what) := fun _ h => by cases h
theorem atsTranslationCompletion (l : Fin 2) (pasid : Option (BitVec 20)) (page : Nat) (ok : Bool) : Statement (.atsTranslationCompletion l pasid page ok) := fun _ h => by cases h
theorem birsp (l : Fin 2) (line : Nat) (wb : Option (List Byte)) : Statement (.birsp l line wb) := fun _ h => by cases h
theorem hostLinkRecovery (l : Fin 2) : Statement (.hostLinkRecovery l) := fun _ h => by cases h
theorem glRefclkReturn : Statement (.glRefclkReturn) := fun _ h => by cases h
theorem tachometerEdge (k : Fin 8) : Statement (.tachometerEdge k) := fun _ h => by cases h
theorem tapOperation (tms tdi trstN : Bool) : Statement (.tapOperation tms tdi trstN) := fun _ h => by cases h
theorem mpSyncHoldEnd : Statement (.mpSyncHoldEnd) := fun _ h => by cases h

end Sys2Proof.Laws.Kind
end

