-- ==== Sys2Proof/Safety.lean ====
section
/-! DEFINITION. What counts as a safe run, and the conditions that the claims are stated under. -/

namespace Sys2Proof.Machine
open Sys2Proof

/-- Every memory of the state is in its canonical form. -/
def State.memOk (s : State) : Bool :=
  s.memory.objs.all (fun o => o.mem.wf) &&
  s.cores.cores.all (fun c => c.store.wf && c.saved.all (fun v => v.store.wf)) &&
  s.host.mem.all (fun p => p.2.wf)

/-- Every waiting command is well formed. -/
def State.pendingOk (s : State) : Bool := s.pending.all Instr.wf

/-- A run of n steps that neither faults nor is refused. -/
def SafeRun (n : Nat) (s : State) : Prop := ∃ t, Host.Core.run Sys2Proof.core n s = .next t

/-- Nothing is held for the end of the tick: no timeout, event, request to Riser, failed block, page move, vote, translation report or move slot. -/
def State.calmTick (s : State) : Bool :=
  s.due.isEmpty && s.fresh.isEmpty && s.riser.asks.isEmpty && s.moves.damages.isEmpty && s.memory.pageMoves.isEmpty && s.memory.xlat.found.isEmpty &&
  (s.queues.flatMap (·.running)).all (fun c => c.ballot.isNone) && s.tenants.parts.all (fun p => s.moveSlots p.id == 0 && p.slotWait.isEmpty)

/-- The fast clocks run, and the packet is a whole packet of its row's opcode on a queue that exists: the conditions under which an opcode row starts a command. -/
def Starts (s : State) (op : Nat) (q : QueueId) (pkt : Packet) : Prop :=
  s.power.stopped = false ∧ opcodeWf op pkt = true ∧ (s.findQueue q).isSome = true

/-- A command that starts passes the checks of its header, its acting context and its pair (R51, R66, R388, R569). -/
def Passes (s : State) (q : QueueId) (pkt : Packet) (adminOnly pfOnly : Bool) : Prop :=
  guardCheck (s.enter q pkt).1 (s.enter q pkt).2 adminOnly pfOnly = .ok ()

/-- Every byte of a range of a packet is 0 (R12). -/
def Zero (c : Running) (off n : Nat) : Prop := ∀ i < n, c.u (off + i) 1 = 0

/-- No host link tracks a line of the window or awaits a snoop's answer (R461). -/
def Unsnooped (s : State) : Prop :=
  s.host.links.1.snoop = [] ∧ s.host.links.1.biPending = [] ∧ s.host.links.2.snoop = [] ∧ s.host.links.2.biPending = []

/-- An opcode row has its effect: for every state, queue and packet with which it starts, passes its checks and meets H, its next state is what `out` says of the command c and of the state in which its body runs. -/
def Effect (mk : QueueId → Packet → Instr) (op : Nat) (adminOnly pfOnly : Bool) (H : Running → State → Prop) (out : Running → State → State) : Prop :=
  ∀ s q pkt, Starts s op q pkt → Passes s q pkt adminOnly pfOnly → H (s.enter q pkt).1 (s.enter q pkt).2 →
    exec (mk q pkt) s = .next (s.after (out (s.enter q pkt).1 (s.enter q pkt).2))

/-- A reply is discarded and counted (R81); the queues with their commands are as before. -/
def Discarded (c : Instr) (s : State) : Prop :=
  ∃ t : State, exec c s = .next (s.after (t.count .cmdLateDiscardCnt 0 0 0 32)) ∧ t.queues = s.queues ∧ t.regs = s.regs

/-- The opcode rows, each with its opcode, and whether it is an admin command and the physical function's alone; faults are the machine's own of CRU_APPLY. -/
def opcodeRows (faults : List Nat) : List ((QueueId → Packet → Instr) × Nat × Bool × Bool) :=
  [(.queueCreate, 0x0101, true, false),
   (.queueDestroy, 0x0102, true, false),
   (.queueStart, 0x0103, false, false),
   (.queueStop, 0x0104, false, false),
   (.ctxCreate, 0x0110, true, false),
   (.ctxDestroy, 0x0111, true, false),
   (.ctxPreempt, 0x0112, true, false),
   (.ctxSetMode, 0x0113, true, false),
   (.partCarve, 0x0120, true, true),
   (.partReset, 0x0121, true, true),
   (.nop, 0x0130, false, false),
   (.ticketRelease, 0x0131, false, false),
   (.objCreate, 0x0201, false, false),
   (.objFree, 0x0202, false, false),
   (.objSetPolicy, 0x0203, false, false),
   (.objQuery, 0x0204, false, false),
   (.progLoad, 0x0301, false, false),
   (.progLaunch, 0x0302, false, false),
   (.planLoad, 0x0303, false, false),
   (.planLaunch, 0x0304, false, false),
   (.fillGroupCreate, 0x0310, false, false),
   (.fillSubmit, 0x0311, false, false),
   (.fillFlush, 0x0312, false, false),
   (.fillGroupDestroy, 0x0313, false, false),
   (.stream, 0x0401, false, false),
   (.fused, 0x0402, false, false),
   (.fence, 0x0403, false, false),
   (.hostCopy, 0x0404, false, false),
   (.fillConst, 0x0405, false, false),
   (.reduceScatter, 0x0501, false, false),
   (.allGather, 0x0502, false, false),
   (.allReduce, 0x0503, false, false),
   (.broadcast, 0x0504, false, false),
   (.barrier, 0x0505, false, false),
   (.scaleVote, 0x0506, false, false),
   (.embTableCreate, 0x0601, false, false),
   (.embLookup, 0x0602, false, false),
   (.embUpdate, 0x0603, false, false),
   (.yarrowLoad, 0x0604, false, false),
   (.yarrowWriteback, 0x0605, false, false),
   (.cruGroupCreate, 0x0701, false, false),
   (fun q p => .cruApply q p faults, 0x0702, false, false),
   (.cruSetScale, 0x0703, false, false),
   (.cruDeferredFlush, 0x0704, false, false),
   (.detLedgerRead, 0x0801, false, false),
   (.digest, 0x0802, false, false),
   (.matchPair, 0x0803, true, true),
   (.matchUnpair, 0x0804, true, true),
   (.repairRequest, 0x0901, true, true),
   (.unitQuery, 0x0902, true, false),
   (.scrub, 0x0903, true, true),
   (.fwUpdate, 0x0904, true, true),
   (.cmpIndex, 0x0A01, false, false),
   (.cmpVerify, 0x0A02, false, false),
   (.exportShard, 0x0B01, false, false),
   (.campionOpen, 0x0B02, false, false),
   (.campionClose, 0x0B03, false, false)]

/-- The rows of the always-on domain, which act while the fast clocks are stopped (R519). -/
def alwaysOn : Instr → Bool
  | .gpioParkEnd _ => true
  | .tachometerEdge _ => true
  | .tachWindowEnd _ => true
  | .mpSyncPulse => true
  | .mpSyncFall _ => true
  | .mpSyncLockTimeout => true
  | .mpSyncHoldEnd => true
  | .aoRefclkLoss => true
  | .tapOperation _ _ _ => true
  | .sensorReading _ _ _ => true
  | .overcurrentAlert _ => true
  | .overcurrentRelease => true
  | .bucketEvent _ _ _ => true
  | .localViewAck _ _ _ => true
  | .riserRewriteTimer _ => true
  | .riserCompareTimer _ => true
  | .spareSelfTest _ => true
  | .mgmtRiserRequest _ _ _ _ => true
  | .spdmRequest _ => true
  | .keySlotSet _ _ _ => true
  | .pldmFirmwareUpdate _ => true
  | .startup _ => true
  | .warmReset => true
  | .resetNRelease => true
  | .mainPwrgoodLoss => true
  | .coldReset => true
  | .aoPwrgoodRise _ => true
  | _ => false

end Sys2Proof.Machine
end

