-- ==== Sys2Proof/Certificates/Slice0/Obligations.lean ====
section
/-! DEFINITION. The statements for the provers: the block's step and queue, its memories, each family's effects and frames. In the statements of the opcode rows, c is the command that a packet becomes and s the state in which its body runs. -/

open Sys2Proof Sys2Proof.Machine Sys2Proof.Laws.Kind


/-! ### The block: steps, queue, outcomes, memories -/

/-- A step runs the command at the front of the queue with the queue's rest. -/
def Obligations.StepRunsFront : Prop :=
  ∀ (s : State) (c : Instr) (rest : List Instr), s.pending = c :: rest → step s = exec c { s with pending := rest }

/-- With no command waiting one slow tick passes (the model's choice, log entry 2). Where nothing is held for the tick's end, the count of R535 rises by one, and the queues, the memories, the ports and Riser are as before; a transfer's park limit and a command's timeout that end in one tick are evaluated in that order, whichever came first (the model's choice, log entry 26). -/
def Obligations.IdleTick : Prop :=
  (∀ s : State, s.memOk = true → s.pending = [] → s.calmTick = true → ∃ t, step s = .next t ∧ t.now = s.now + 1 ∧ t.pending = [] ∧ t.queues = s.queues ∧ t.memory.objs = s.memory.objs ∧ t.memory.far = s.memory.far ∧ t.host = s.host ∧
    t.fabric = s.fabric ∧ t.riser = s.riser ∧ t.moves = s.moves ∧ ∀ c : Nat, (t.core c).store = (s.core c).store) ∧
  (∀ s : State, s.pending = [] → step s = .next (s.after s.tick)) ∧
  (∀ (s : State) (u x : Nat), s.power.stopped = false → s.due = [.command u, .park x] ∨ s.due = [.park x, .command u] →
    s.timeouts = (({ s with due := [] } : State).parkExpired x).timeoutCommand u)

/-- No command changes the queue of waiting commands. -/
def Obligations.QueueKept : Prop :=
  ∀ (c : Instr) (s t : State), exec c s = .next t → t.pending = s.pending

/-- No command is refused, a command faults only where it is ill formed, and a well-formed command has a next state: an opcode row faults exactly where its packet is not whole (R50) or carries another opcode (R59). -/
def Obligations.FaultsAreIllFormed : Prop :=
  (∀ (c : Instr) (s : State), (∀ r : Refusal, exec c s ≠ .refused r) ∧ (∀ f : Fault, exec c s = .fault f → c.wf = false ∧ f = .illFormed) ∧ (c.wf = true → ∃ t, exec c s = .next t)) ∧
  ∀ (faults : List Nat), ∀ e ∈ opcodeRows faults, ∀ (s : State) (q : QueueId) (pkt : Packet), exec (e.1 q pkt) s = .fault .illFormed ↔ ¬(packetWhole pkt = true ∧ packetOpcode pkt = e.2.1)

/-- Every step keeps the canonical form of every memory: the objects of device memory, the core stores with those saved, and host memory. -/
def Obligations.MemoryCanonical : Prop :=
  ∀ s t : State, s.memOk = true → step s = .next t → t.memOk = true

/-- The memories are canonical at reset, and no command waits. -/
def Obligations.ResetCanonical : Prop :=
  State.reset.memOk = true ∧ State.reset.pending = []

/-- From every state whose waiting commands are well formed, a run of any length stops at no fault and no refusal, and empties the queue in as many steps as commands wait. -/
def Obligations.WellFormedRun : Prop :=
  ∀ (s : State) (n : Nat), s.pendingOk = true → SafeRun n s ∧
    ∃ t, Host.Core.run Sys2Proof.core s.pending.length s = .next t ∧ t.pending = []

/-- With the fast clocks stopped (R519), a command outside the always-on domain leaves the state as it is. -/
def Obligations.StoppedClocks : Prop :=
  ∀ (c : Instr) (s t : State), s.memOk = true → s.power.stopped = true → alwaysOn c = false → exec c s = .next t → t = s

/-- Decode of encode is the operation (R97), for every operation with every field at every value; an encoded operation has 16 bytes. -/
def Obligations.OperationRoundTrip : Prop :=
  ∀ o : Op, (Op.encode o).length = 16 ∧ Op.decode (Op.encode o) = o

/-- Every register holds its reset value at reset, for every function; the block holds no queue, context, object, program, fault bucket or event, and the slow tick is 0. -/
def Obligations.ResetValues : Prop :=
  (∀ (r : Reg) (i j fn : Nat), State.reset.reg r i j fn = r.reset i) ∧ State.reset.queues = [] ∧ State.reset.tenants.ctxs = [] ∧ State.reset.memory.objs = [] ∧
    State.reset.cores.launches = [] ∧ State.reset.riser.buckets = [] ∧ State.reset.events = [] ∧ State.reset.now = 0 ∧ State.reset.power.stopped = false

/-! ### Rules of the spec -/

/-- R6: an access of another width or alignment has no effect, and such a read returns 0; a 32-bit read reaches one half of what the 64-bit read returns, and a 32-bit write replaces one half of a register's bits. -/
def Obligations.AccessWidths : Prop :=
  (∀ (s : State) (fn : Fin 33) (off : BitVec 26) (v : BitVec 64), s.power.stopped = false →
    (∀ e, exec (.registerWrite fn off .bad ⟨v, e⟩) s = .next (s.after s)) ∧ exec (.readClear fn off .bad v) s = .next (s.after { s with busRead := 0 })) ∧
  (∀ (s : State) (fn off : Nat) (v : Nat), (s.readReg fn off .low v).1 = (s.readReg fn off .full v).1 % 2 ^ 32 ∧ (s.readReg fn off .high v).1 = (s.readReg fn off .full v).1 / 2 ^ 32) ∧
  (∀ old v : Nat, mergeHalf .low old v % 2 ^ 32 = v % 2 ^ 32 ∧ mergeHalf .low old v / 2 ^ 32 = old / 2 ^ 32 ∧
    mergeHalf .high old v % 2 ^ 32 = old % 2 ^ 32 ∧ mergeHalf .high old v / 2 ^ 32 = v % 2 ^ 32)

/-- R24 to R26: a bucket that counts an event trips exactly when it keeps T − 1 stamps and the oldest is no more than W before the event at the resolution of W ÷ 256; the new stamp is kept in units of W ÷ 256; one that does not trip keeps it and at most T − 1 stamps, the oldest dropped first. -/
def Obligations.BucketTrips : Prop :=
  ∀ (s : State) (cls : Nat) (f : Fault1) (time keep w : Nat) (b : Bucket), keep = bits (s.reg .fltBktCfg cls 0) 3 0 → w = bits (s.reg .fltBktCfg cls 0) 51 8 → w ≠ 0 →
    bit (s.reg .fltBktCfg cls 0) 52 = true → (4 ≤ cls → cls ≠ 7 → (s.unit f.unit).state = .active) →
    (cls = 7 → ∀ u ∈ [coreUnit (bits f.key 23 16), arrUnit 2 (bits f.key 23 16) (bits f.key 9 8) f.row, arrUnit 3 (bits f.key 23 16) (bits f.key 9 8) f.col], (s.unit u).state = .active) →
    s.riser.buckets.find? (fun b => b.cls == cls && b.key == f.key && b.table == f.table) = some b → b.stamps.length ≤ keep →
    ((s.tally cls f time).2.isSome = true ↔ keep = 0 ∨ ∃ o l, b.stamps = o :: l ∧ l.length + 1 = keep ∧ time * 256 / w - o.in_ w ≤ 256) ∧
    ((s.tally cls f time).2 = none → ∃ b', (s.tally cls f time).1.riser.buckets.find? (fun b => b.cls == cls && b.key == f.key && b.table == f.table) = some b' ∧
      b'.stamps = (b.stamps ++ [({ at_ := time * 256 / w, win := w, row := f.row, col := f.col } : Stamp)]).drop (b.stamps.length + 1 - keep))

/-- R46: a doorbell value at or behind the tail is ignored and counted, one that would leave more than 2^s slots sets DB_OVERRUN and puts the queue into ERROR, any other becomes the tail; of two writes the later is evaluated on what the earlier left. -/
def Obligations.DoorbellRule : Prop :=
  (∀ (s : State) (fn : Fin 33) (q : QueueId) (e : Queue) (v : BitVec 32), s.memOk = true → s.power.stopped = false → s.seesQueue fn q = true → s.queue? q = some e → e.state ≠ .absent →
    ((v.toNat + 2 ^ 32 - e.tail) % 2 ^ 32 = 0 ∨ 2 ^ 31 ≤ (v.toNat + 2 ^ 32 - e.tail) % 2 ^ 32 →
      ∃ t, exec (.doorbellWrite fn q v) s = .next t ∧ t.queue? q = some { e with backward := satN 16 (e.backward + 1) }) ∧
    ((v.toNat + 2 ^ 32 - e.tail) % 2 ^ 32 ≠ 0 → (v.toNat + 2 ^ 32 - e.tail) % 2 ^ 32 < 2 ^ 31 → 2 ^ e.sizeLog2 < (v.toNat + 2 ^ 32 - e.head) % 2 ^ 32 →
      ∃ t, exec (.doorbellWrite fn q v) s = .next t ∧ t.queue? q = some { e with overrun := true, state := .error }) ∧
    ((v.toNat + 2 ^ 32 - e.tail) % 2 ^ 32 ≠ 0 → (v.toNat + 2 ^ 32 - e.tail) % 2 ^ 32 < 2 ^ 31 → (v.toNat + 2 ^ 32 - e.head) % 2 ^ 32 ≤ 2 ^ e.sizeLog2 →
      ∃ t, exec (.doorbellWrite fn q v) s = .next t ∧ t.queue? q = some { e with tail := v.toNat })) ∧
  (∀ (s t : State) (fn : Fin 33) (q : QueueId) (v w : BitVec 32) (rest : List Instr), s.pending = .doorbellWrite fn q v :: .doorbellWrite fn q w :: rest → step s = .next t →
    step t = exec (.doorbellWrite fn q w) { t with pending := rest })

/-- R52: a command runs in Chill mode exactly when its CHILL flag is set or its context is in Chill mode. -/
def Obligations.ChillCommands : Prop :=
  ∀ (s : State) (q : QueueId) (pkt : Packet),
    (s.enter q pkt).1.chill = true ↔ (fld pkt.bytes 2 1).testBit 2 = true ∨ ∃ x, s.ctx? (s.enter q pkt).1.ctx = some x ∧ x.chill = true

/-- R65: a command that ends with a code of 0x0010 or above, other than PREEMPTED, puts its queue into ERROR if the queue has STOP_ON_ERROR set; the commands already started go on. -/
def Obligations.StopOnError : Prop :=
  ∀ (s : State) (c : Running) (r : Reply) (e : Queue), s.queue? c.queue = some e → e.stopOnError = true → e.state = .running →
    0x10 ≤ (c.outcome r).status → (c.outcome r).status ≠ 0x40 →
    ∃ e', (s.finish c r).queue? c.queue = some e' ∧ e'.state = .error ∧ e'.running = e.running.filter (fun k => k.uid ≠ c.uid)

/-- R81: a reply to no request is discarded and counted, whichever reply it is; the queues and their commands are as before. -/
def Obligations.LateReplies : Prop :=
  ∀ (s : State) (port orig : Fin 8) (tag : Fin 1048576), s.power.stopped = false → (∀ f ∈ s.memory.far, f.orig = orig.val → f.tag ≠ tag.val) →
    (∀ u ∈ s.memory.unresolved, u.far.orig = orig.val → u.far.tag ≠ tag.val) →
    (∀ (fc : Bool) (p : BitVec 64) (d : List Byte), Discarded (.rdData port fc orig tag p d) s) ∧
    (∀ fc : Bool, Discarded (.memAckReply port fc orig tag) s) ∧
    (∀ us : BitVec 16, Discarded (.retryReply port orig tag us) s) ∧
    (∀ code : BitVec 16, Discarded (.errorReply port orig tag code) s) ∧
    (Discarded (.pong port orig tag) s) ∧
    (∀ a : XoAnswer, Discarded (.xoState port orig tag a) s)

/-- R374: a CTX_SET_MODE with CHILL 0 whose context lies in a paired partition ends with ERR_FORMAT, DETAIL 41, and has no other effect. -/
def Obligations.PairedPartitionsStayChill : Prop :=
  Effect .ctxSetMode 0x0113 true false
    (fun c s => c.ticket = 0 ∧ ∃ x, s.liveCtx (c.u 40 1) 40 = .ok x ∧ serves c.fn x.part = true ∧ bit (c.u 41 1) 0 = false ∧ s.pairedPart x.part = true)
    (fun c s => s.reply c.uid (errFormat 41))

/-- R417: the agreed width is the least of the two WIDTHs and the number of wavelengths set in both MASKs; the data wavelengths are the lowest-numbered of those; a port of width 0 stays down; GL_WL_k_w.STATE shows Riser's view of the wavelength. -/
def Obligations.AgreedWidth : Prop :=
  (∀ (own : Nat) (p : Port) (mask : Nat), (agreed own p mask).1 = min (min own p.peerWidth) (popcount 9 (mask &&& p.peerMask)) ∧
    ∀ w < 9, (agreed own p mask).2.testBit w = true ↔
      mask.testBit w = true ∧ p.peerMask.testBit w = true ∧ popcount w (mask &&& p.peerMask) < (agreed own p mask).1) ∧
  (∀ (s : State) (k : Fin 36) (p : Port), s.power.stopped = false → p = s.port k → s.pins.glPresent = true → p.heard = true → p.state = .training → p.proposal = none →
    (agreed (s.ownWidth k) p (s.wlUsable k)).1 = 0 → exec (.portTrained k) s = .next (s.after (s.putPort { p with state := .down, proposal := none, heard := false }))) ∧
  (∀ (s : State) (k w fn : Nat), k < 36 → w < 9 → (s.view .glWl k w fn >>> 48) % 2 ^ 3 = stateCode (s.unit (wlUnit k w)).state)

/-- R460: an access at offset a of the window reaches BASE + a of the object; a read at or beyond its size returns poisoned data, a write there is dropped, and both are counted. -/
def Obligations.WindowAccesses : Prop :=
  ∀ (s : State) (l : Fin 2) (o : Obj) (off : Nat), s.power.stopped = false → (s.link l).committed = true → (s.link l).cxlMem = true → s.window = some o →
    (∀ data : List Byte, off + data.length ≤ o.size → exec (.hostWindowAccess l true off data.length data) s =
      .next (s.after ((((lineRange off data.length).foldl (fun st i => st.track l i) s).vaTouch o.ctx (o.base + off) data.length).vaWrite o.ctx (o.base + off) data))) ∧
    (∀ (len : Nat) (s1 : State) (bs : List Byte) (bad : Bool), off + len ≤ o.size → s1 = ((lineRange off len).foldl (fun st i => st.track l i) s).vaTouch o.ctx (o.base + off) len →
      s1.vaRead o.ctx (o.base + off) len = some (bs, bad) → ∃ t, exec (.hostWindowAccess l false off len []) s = .next (s.after t) ∧ t.host.answer = bs ∧ t.host.answerBad = bad) ∧
    (∀ data : List Byte, o.size < off + data.length → exec (.hostWindowAccess l true off data.length data) s = .next (s.after (s.count .hstWinStat l 0 16 16))) ∧
    (∀ len : Nat, o.size < off + len → ∃ t, exec (.hostWindowAccess l false off len []) s = .next (s.after t) ∧ t.host.answerBad = true ∧ t.memory = s.memory ∧
      t.regs = (s.count .hstWinStat l 0 16 16).regs)

/-- R303, R306: row r of a table lies in page r ÷ RPP, no row crosses a page boundary, two rows share no byte, and the row that an id hashes to lies in the table. -/
def Obligations.TableRows : Prop :=
  ∀ (t : Table) (r r' : Nat), t.base % pageBytes = 0 → t.stride ≤ pageBytes →
    t.stride = 32 * ((8 + t.width * t.bits / 8 + 31) / 32) ∧ t.rpp = pageBytes / t.stride ∧ t.rowAddr r = t.base + r / t.rpp * pageBytes + r % t.rpp * t.stride ∧
    t.rowAddr r % pageBytes + t.stride ≤ pageBytes ∧ (r < r' → t.rowAddr r + t.stride ≤ t.rowAddr r') ∧ ∀ id : Nat, 0 < t.rows → t.hash id < t.rows

/-- R520, R535: AO_PWRGOOD's rise samples the straps into the address, which lies from 0x60 to 0x67, and starts the slow tick at 0; a later rise changes neither until a cold reset; a warm reset keeps both. -/
def Obligations.StrapsAndTick : Prop :=
  ∀ (s : State) (x y : Fin 8), s.pins.aoGood = false →
    ∃ t, exec (.aoPwrgoodRise x) s = .next t ∧ t.pins.smbAddr = 0x60 + x.val ∧ 0x60 ≤ t.pins.smbAddr ∧ t.pins.smbAddr ≤ 0x67 ∧ t.now = 0 ∧
      (∃ u, exec (.aoPwrgoodRise y) t = .next u ∧ u.pins.smbAddr = t.pins.smbAddr ∧ u.now = t.now) ∧
      (∃ u, exec .coldReset t = .next u ∧ u.pins.aoGood = false ∧ ∃ v, exec (.aoPwrgoodRise y) u = .next v ∧ v.pins.smbAddr = 0x60 + y.val)

/-! ### Frames -/

/-- Pin rows change pins, the pins' registers and the free counter alone. -/
def Obligations.PinFrame : Prop :=
  ∀ (c : Instr) (s t : State), s.memOk = true → exec c s = .next t →
    ((c = .mpSyncPulse ∨ c = .mpSyncHoldEnd ∨ c = .resetNRelease ∨ (∃ n, c = .gpioParkEnd n) ∨ ∃ k, c = .tachometerEdge k) → t = { s with pins := t.pins }) ∧
    ((c = .mpSyncLockTimeout ∨ ∃ n, c = .mpSyncFall n) → t = { s with regs := t.regs }) ∧
    ((∃ a b d, c = .tapOperation a b d) → t = { s with pins := t.pins, free := t.free }) ∧
    ((∃ fn n v, c = .gpioCfgWrite fn n v) → t = { s with pins := t.pins, regs := t.regs }) ∧
    ((∃ fn k v, c = .clkClusterWrite fn k v) → t = { s with power := t.power, regs := t.regs })

/-- Link rows change the ports and their counters alone; the expiry of a cached completion waits for the end of its tick. -/
def Obligations.LinkFrame : Prop :=
  ∀ (c : Instr) (s t : State) (k : Fin 36), s.memOk = true → exec c s = .next t →
    ((∃ g, c = .completionCacheExpiry k g) → t = { s with due := t.due }) ∧
    ((c = .nakResendTimer k ∨ c = .retrain k none ∨ (∃ w, c = .codewordLockLoss k w) ∨ (∃ a w, c = .width k none a w) ∨
      ∃ w n f, flitOk false f = true ∧ c = .idleFlit k w (some n) f) →
      t = { s with fabric := t.fabric, regs := t.regs } ∧ ∀ j : Fin 36, j ≠ k → t.port j = s.port j)

/-- Sequencer rows change no byte of device memory, of a core store or of a queue, and no other core; the host's memory and links are as before, and an event is raised only by a program that deadlocks there (R107). -/
def Obligations.SequencerFrame : Prop :=
  ∀ (c : Instr) (k : Fin 40) (s t : State), s.memOk = true → c = .seqNop k ∨ c = .loopBegin k ∨ c = .loopEnd k → exec c s = .next t →
    t.memory = s.memory ∧ t.queues = s.queues ∧ t.embed = s.embed ∧ t.cru = s.cru ∧ t.moves = s.moves ∧ (∀ j : Nat, (t.core j).store = (s.core j).store) ∧
    (∀ j : Nat, j ≠ k.val → t.core j = s.core j) ∧ t.host = s.host ∧ ((∀ r, (t.core k).run = some r → r.deadlock = false) → t.events = s.events ∧ t.fresh = s.fresh)

/-- Management rows: SPDM_REQUEST and KEY_SLOT_SET change the security state alone; a lagging view is noted in Riser alone; a refresh window and a link's recovery count alone. -/
def Obligations.ManagementFrame : Prop :=
  ∀ (c : Instr) (s t : State), s.memOk = true → exec c s = .next t →
    (((∃ r, c = .spdmRequest r) ∨ ∃ n i key, c = .keySlotSet n i key) → t = { s with sec := t.sec }) ∧
    ((∃ u, c = .riserRewriteTimer u) → t = { s with riser := t.riser }) ∧
    (c = .refreshWindow → t = { s with tenants := t.tenants }) ∧
    ((∃ l, c = .hostLinkRecovery l) → t = { s with regs := t.regs }) ∧
    ((∃ l, c = .perstRelease l) → t = { s with host := t.host } ∧ t.host.mem = s.host.mem)

/-- R460's stores: a host write to the window changes the bytes it stores in the object it reaches, and no other byte of any object. -/
def Obligations.WindowStoreFrame : Prop :=
  ∀ (s : State) (l : Fin 2) (o : Obj) (off : Nat) (data : List Byte), s.memOk = true → s.power.stopped = false → (s.link l).committed = true → (s.link l).cxlMem = true → s.window = some o →
    off + data.length ≤ o.size → (∀ i < data.length, s.objAt o.ctx (o.base + off + i) = some o) →
    ∃ t, exec (.hostWindowAccess l true off data.length data) s = .next t ∧
      ∀ (n : Nat) (p : Obj), s.memory.objs[n]? = some p → ∃ p', t.memory.objs[n]? = some p' ∧ p'.ctx = p.ctx ∧ p'.handle = p.handle ∧ p'.base = p.base ∧ p'.size = p.size ∧
        ∀ a, p'.mem.get a = if p.ctx = o.ctx ∧ p.handle = o.handle ∧ off ≤ a ∧ a < off + data.length then (data[a - off]?).getD 0 else p.mem.get a

/-- A register read changes no memory but the counts of the translation caches, no core, no object and no port: only read-clear fields, the value read and the free counter. -/
def Obligations.ReadFrame : Prop :=
  ∀ (s t : State) (fn : Fin 33) (off : BitVec 26) (a : Access) (v : BitVec 64), s.memOk = true → exec (.readClear fn off a v) s = .next t →
    (∃ m u, t.memory = { s.memory with xlat := { s.memory.xlat with misses := m, multi := u } }) ∧ t.cores = s.cores ∧ t.host = s.host ∧ t.fabric = s.fabric ∧ t.riser = s.riser ∧ t.pins = s.pins ∧ t.power = s.power ∧ t.events = s.events ∧ t.now = s.now ∧
    (∀ q e, s.queue? q = some e → ∃ e', t.queue? q = some e' ∧ e'.running = e.running ∧ e'.fetched = e.fetched ∧ e'.head = e.head ∧ e'.tail = e.tail ∧ e'.state = e.state)

/-- A doorbell write changes its own queue alone, but for the run-ahead buffers that a queue in ERROR gives up (R444): the state's other parts and every other queue are as before where the queue does not enter ERROR. -/
def Obligations.DoorbellFrame : Prop :=
  ∀ (s t : State) (fn : Fin 33) (q : QueueId) (e : Queue) (v : BitVec 32), s.memOk = true → s.queue? q = some e → (v.toNat + 2 ^ 32 - e.head) % 2 ^ 32 ≤ 2 ^ e.sizeLog2 →
    exec (.doorbellWrite fn q v) s = .next t → t = { s with queues := t.queues } ∧ ∀ q', q' ≠ q → t.queue? q' = s.queue? q'

/-- NOP, FENCE, CTX_SET_MODE and CRU_SET_SCALE store nothing: every byte of device memory, of the core stores and of host memory is as before, whatever comes of the command, outside a pair. -/
def Obligations.NoStoreFrame : Prop :=
  ∀ (s t : State) (q : QueueId) (pkt : Packet), s.memOk = true → s.pairedPart ((s.openAdmin q).newCmd q pkt).part = false →
    exec (.nop q pkt) s = .next t ∨ exec (.fence q pkt) s = .next t ∨ exec (.ctxSetMode q pkt) s = .next t ∨ exec (.cruSetScale q pkt) s = .next t →
    t.memory = s.memory ∧ t.cores = s.cores ∧ t.host = s.host ∧ t.fabric = s.fabric ∧ t.regs = s.regs ∧ t.embed = s.embed ∧ t.moves = s.moves ∧ t.events = s.events ∧ t.fresh = s.fresh

/-- A command whose header checks, acting context or pair refuse it has no effect: its state is the one it entered, with its outcome (R51, R66, R388, R569); outside a pair nothing but the queues and the command count differs from before. -/
def Obligations.RefusedCommandsHaveNoEffect : Prop :=
  ∀ (faults : List Nat), ∀ e ∈ opcodeRows faults, ∀ (s : State) (q : QueueId) (pkt : Packet) (r : Reply), s.memOk = true → Starts s e.2.1 q pkt →
    guardCheck (s.enter q pkt).1 (s.enter q pkt).2 e.2.2.1 e.2.2.2 = .error (.done r) →
    exec (e.1 q pkt) s = .next (s.after ((s.enter q pkt).2.reply (s.enter q pkt).1.uid r)) ∧
    (s.pairedPart ((s.openAdmin q).newCmd q pkt).part = false → ∃ t, exec (e.1 q pkt) s = .next t ∧ t = { s with queues := t.queues, nextUid := s.nextUid + 1 })

/-! ### The opcode rows: the effect of each -/

/-- Queues (R43, R49, R570), NOP (R59) and FENCE (R203): a queue is made RUNNING and empty with the packet's fields; destroyed with its commands aborted; returned to RUNNING with DB_OVERRUN clear; halted once no other command of it runs. -/
def Obligations.QueueCommandsComplete : Prop :=
  (∀ x p, Effect .queueCreate 0x0101 true false
    (fun c s => c.ticket = 0 ∧ c.u 40 1 < 16 ∧ s.namedCtx c.fn (c.u 41 1) 41 = .ok x ∧ 6 ≤ c.u 42 1 ∧ c.u 42 1 ≤ 16 ∧ c.u 43 1 < 4 ∧
      c.u 44 2 < (if c.fn = 0 then 2048 else 512) ∧ Zero c 46 2 ∧ c.u 48 8 % 4096 = 0 ∧
      (c.u 43 1 % 2 = 1 → ∃ o, s.objAt x.id (c.u 48 8) = some o ∧ (o.policy = 1 ∨ o.policy = 2) ∧ c.u 48 8 + 2 ^ c.u 42 1 * 64 ≤ o.base + o.size) ∧
      Zero c 59 5 ∧ s.queue? (.ctx (Fin.ofNat 4096 (x.id * 16 + c.u 40 1))) = none ∧ s.part? x.part = some p ∧ (s.partQueues x.part).length < p.carve.queues)
    (fun c s => ({ s with queues := s.queues ++ [{
      id := .ctx (Fin.ofNat 4096 (x.id * 16 + c.u 40 1)), sizeLog2 := c.u 42 1, inDevice := bit (c.u 43 1) 0, stopOnError := bit (c.u 43 1) 1,
      vector := c.u 44 2, base := c.u 48 8, peerMask := c.u 56 3, link := s.linkOf c.queue }] } : State).reply c.uid ok)) ∧
  (∀ n, Effect .queueDestroy 0x0102 true false (fun c s => c.ticket = 0 ∧ queueArg c s = .ok n ∧ Zero c 42 22)
    (fun c s => ({ s.abortQueue n with queues := (s.abortQueue n).queues.filter (fun e => e.id ≠ n) } : State).reply c.uid ok)) ∧
  (∀ n, Effect .queueStart 0x0103 false false (fun c s => c.ticket = 0 ∧ queueArg c s = .ok n ∧ Zero c 42 22)
    (fun c s => ((List.range 40).foldl State.resumeCore (s.modQueue n (fun e =>
      { e with state := .running, stopping := false, overrun := false, running := e.running.map (fun k => { k with interim := false, halt := false }) }))).pumpJobs.cruPumpAll.reply c.uid ok)) ∧
  (∀ n e, Effect .queueStop 0x0104 false false
    (fun c s => c.ticket = 0 ∧ queueArg c s = .ok n ∧ Zero c 42 22 ∧ s.queue? n = some e ∧ ∀ k ∈ e.running, k.uid = c.uid)
    (fun c s => (s.modQueue n Queue.halted).reply c.uid ok)) ∧
  Effect .nop 0x0130 false false (fun c _ => c.ticket = 0) (fun c s => s.reply c.uid ok) ∧
  Effect .fence 0x0403 false false (fun c s => c.ticket = 0 ∧ ∀ e, s.queue? c.queue = some e → ∀ k ∈ e.running, c.order ≤ k.order) (fun c s => s.reply c.uid ok)

/-- Contexts and partitions (R77, R78, R373, R493 to R499): a context is made with its PASID, a new key and its save area, and begins in Chill mode in a paired partition. -/
def Obligations.TenantCommandsComplete : Prop :=
  (∀ p, Effect .ctxCreate 0x0110 true false
    (fun c s => c.ticket = 0 ∧ s.ctx? (c.u 40 1) = none ∧ c.u 41 1 < 32 ∧ serves c.fn (c.u 41 1) = true ∧ Zero c 42 2 ∧ c.u 44 4 < 2 ^ 20 ∧
      (∀ k ∈ s.tenants.ctxs, k.pasid.toNat ≠ c.u 44 4) ∧ Zero c 48 16 ∧ s.part? (c.u 41 1) = some p ∧ (s.partCtxs (c.u 41 1)).length < p.carve.contexts ∧
      12 * 2 ^ 20 * p.inService + 2 * 2 ^ 20 ≤ (s.leftOf p).t1)
    (fun c s =>
      let r := s.resetRegs (fun r i => ctxReg r && i == c.u 40 1)
      let e : Ctx := { id := c.u 40 1, part := c.u 41 1, pasid := BitVec.ofNat 20 (c.u 44 4), keyWord := Config.drbg s.free,
                       saveBytes := 12 * 2 ^ 20 * p.inService + 2 * 2 ^ 20, chill := s.pairedPart (c.u 41 1) }
      ({ r with free := r.free + 1, tenants := { r.tenants with ctxs := r.tenants.ctxs ++ [e] } } : State).reply c.uid ok)) ∧
  (∀ x, Effect .ctxDestroy 0x0111 true false (fun c s => c.ticket = 0 ∧ s.namedCtx c.fn (c.u 40 1) 40 = .ok x ∧ Zero c 41 23)
    (fun c s => (s.destroyCtx x.id).reply c.uid ok)) ∧
  (∀ x, Effect .ctxPreempt 0x0112 true false
    (fun c s => c.ticket = 0 ∧ s.namedCtx c.fn (c.u 40 1) 40 = .ok x ∧ c.u 41 1 = 1 ∧ Zero c 42 22 ∧ (s.evict (· == x.id)).quiet c.order (· == x.id) true = true)
    (fun c s => (s.evict (· == x.id)).reply c.uid ok)) ∧
  (∀ x, Effect .ctxPreempt 0x0112 true false
    (fun c s => c.ticket = 0 ∧ s.namedCtx c.fn (c.u 40 1) 40 = .ok x ∧ c.u 41 1 = 1 ∧ Zero c 42 22 ∧ (s.evict (· == x.id)).quiet c.order (· == x.id) true = false)
    (fun c s => (s.evict (· == x.id)).modCmd c.uid (fun k => { k with work := .preempt x.id true }))) ∧
  (∀ x, Effect .ctxSetMode 0x0113 true false
    (fun c s => c.ticket = 0 ∧ s.namedCtx c.fn (c.u 40 1) 40 = .ok x ∧ c.u 41 1 < 4 ∧ (c.u 41 1 % 2 = 1 ∨ s.pairedPart x.part = false) ∧ Zero c 42 6 ∧ Zero c 56 8 ∧
      ∀ k ∈ s.queues.flatMap (·.running), k.uid = c.uid ∨ k.ctx ≠ x.id ∨ c.order ≤ k.order)
    (fun c s => (s.modCtx x.id (fun k => { k with
      chill := bit (c.u 41 1) 0, seed := if bit (c.u 41 1) 1 then c.u 48 8 else k.seed, seedSet := k.seedSet || bit (c.u 41 1) 1 })).reply c.uid ok)) ∧
  Effect .partCarve 0x0120 true true
    (fun c s => c.u 26 2 = 64 ∧ c.ticket = 0 ∧ c.u 40 1 < 32 ∧ Zero c 41 23 ∧
      (∀ o ∈ s.tenants.parts, o.id = c.u 40 1 ∨ ∀ q ∈ setBits 32 (c.u 64 4), o.carve.coreMask.testBit q = false) ∧ (c.u 64 4 = 0 → s.partCtxs (c.u 40 1) = []) ∧
      c.u 68 2 ≤ 1024 ∧ c.u 70 2 ≤ 16384 ∧ c.u 72 8 % pageBytes = 0 ∧ c.u 80 8 % pageBytes = 0 ∧ c.u 88 8 % pageBytes = 0 ∧ c.u 96 2 ≤ 4096 ∧ c.u 98 2 ≤ 256 ∧
      c.u 101 1 < 64 ∧ (c.u 102 1 = 0 ∨ c.u 102 1 < 64 ∧ (mget s.sec.keys (c.u 102 1)).isSome) ∧ Zero c 103 1 ∧ Zero c 108 20 ∧
      s.carveFits (c.u 40 1) (carveAt c) ((setBits 32 (c.u 64 4)).filter (fun q => (s.posCore q).isSome)).length = .ok () ∧
      ∀ p, s.part? (c.u 40 1) = some p → ∀ q ∈ p.positions, (c.u 64 4).testBit q = true)
    (fun c s => ((s.recarve (c.u 40 1) (carveAt c)).resizeSaves (c.u 40 1)).reply c.uid (okProgress 0)) ∧
  Effect .partReset 0x0121 true true
    (fun c s => c.ticket = 0 ∧ c.u 40 1 < 32 ∧ Zero c 41 23 ∧ ∀ k ∈ s.queues.flatMap (·.running), k.work = .carve (c.u 40 1) → k.reply.isSome)
    (fun c s => (s.resetPart (c.u 40 1)).reply c.uid ok)

/-- Tickets and objects (R70 to R72, R223 to R227). -/
def Obligations.ObjectCommandsComplete : Prop :=
  (∀ k, Effect .ticketRelease 0x0131 false false
    (fun c s => Zero c 40 24 ∧ c.ticket ≠ 0 ∧ bits c.ticket 23 17 = 0 ∧ bits c.ticket 16 12 = c.part ∧ bits c.ticket 31 24 = c.ctx ∧
      (s.slot? c.part (bits c.ticket 11 0)).bind (·.live) = some k ∧ k.issuedGen = bits c.ticket 63 32 ∧ k.ctx = c.ctx ∧ s.ticketHeld c.uid c.ticket = false)
    (fun c s => (s.release c.part (bits c.ticket 11 0)).reply c.uid ok)) ∧
  (∀ t base h s3, Effect .objCreate 0x0201 false false
    (fun c s => s.useTicket c .any = .ok t ∧ c.u 40 8 % pageBytes = 0 ∧ pageBytes ≤ c.u 40 8 ∧ c.u 40 8 ≤ 2 ^ 46 ∧ c.u 48 8 % pageBytes = 0 ∧ c.u 48 8 + c.u 40 8 ≤ 2 ^ 52 ∧
      c.u 56 1 < 16 ∧ c.u 56 1 % 8 ≤ 5 ∧ c.u 57 1 < 8 ∧ c.u 60 1 < 2 ∧ Zero c 61 3 ∧
      (if c.u 48 8 = 0 then s.chooseBase c.ctx (c.u 40 8) = some base else base = c.u 48 8 ∧ s.overlayOk c.ctx base (c.u 40 8) (c.u 57 1) = true) ∧
      (({ s with free := s.free + 1 } : State).pick (2 ^ 32) ((s.memory.objs.filter (fun o => o.ctx == c.ctx)).map (·.handle))).1 = some h ∧
      (({ s with free := s.free + 2, memory := { s.memory with objs := s.memory.objs ++ [{
          ctx := c.ctx, handle := h, base := base, size := c.u 40 8, policy := c.u 56 1 % 8, prio := c.u 57 1, affinity := c.u 58 1, farMask := c.u 59 1,
          prot := bit (c.u 56 1) 3, slot := t.1, groups := s.farSet (c.u 59 1) }] } } : State).xlatDrop c.ctx base (c.u 40 8)).placePages s c.ctx h (c.u 40 8 / pageBytes) 0 = .ok s3)
    (fun c _ => s3.reply c.uid (okProgress base h))) ∧
  (∀ o, Effect .objFree 0x0202 false false
    (fun c s => c.ticket = 0 ∧ s.fenced c = false ∧ objArg c s = .ok o ∧ Zero c 44 20 ∧ ∀ h ∈ s.objTree o, s.windowObj c.ctx h = false)
    (fun c s => (s.freeObjs c.ctx (s.objTree o)).reply c.uid ok)) ∧
  (∀ o s1, Effect .objSetPolicy 0x0203 false false
    (fun c s => c.ticket = 0 ∧ objArg c s = .ok o ∧ c.u 44 1 < 16 ∧ c.u 44 1 % 8 ≤ 5 ∧ bit (c.u 44 1) 3 = o.prot ∧ Zero c 47 17 ∧ isPin (c.u 44 1 % 8) = isPin o.policy ∧
      s1 = s.modObj c.ctx o.handle (fun o => { o with policy := c.u 44 1 % 8, affinity := c.u 45 1, farMask := c.u 46 1, groups := s.farSet (c.u 46 1) }) ∧
      s1.fits c.ctx o.handle (isPin (c.u 44 1 % 8)) o.pages.length 0 = .ok () ∧ (s1.migrate c.uid c.ctx o.handle o.pages.length 0).2.2 = false)
    (fun c _ => (s1.migrate c.uid c.ctx o.handle o.pages.length 0).1.reply c.uid (okProgress (s1.migrate c.uid c.ctx o.handle o.pages.length 0).2.1))) ∧
  (∀ o host addr s1, Effect .objQuery 0x0204 false false
    (fun c s => c.ticket = 0 ∧ objArg c s = .ok o ∧ Zero c 44 4 ∧ recordField c 48 = .ok (host, addr) ∧ addr % 64 = 0 ∧ Zero c 56 8 ∧ c.u 48 8 ≠ 0 ∧ s.output c host addr o.record = .ok s1)
    (fun c _ => s1.reply c.uid ok))

/-- Programs, plans and fill groups (R82, R89, R97 to R100, R197 to R199, R574, R575). -/
def Obligations.ProgramCommandsComplete : Prop :=
  (∀ ops g, Effect .progLoad 0x0301 false false
    (fun c s => c.u 26 2 = 64 ∧ c.ticket = 0 ∧ imageFormat c 40 48 = .ok () ∧ s.progImage c (declAt c 64) 40 48 = .ok ops ∧ (s.pairedPart c.part = false ∨ ringBars ops = false) ∧ Zero c 52 12 ∧
      declFormat c 64 64 = .ok () ∧ s.admission c 64 = .ok g)
    (fun c s => ((s.sawImage c (c.u 40 8) (c.u 48 4)).issue c g (.prog ops)).1.reply c.uid (okProgress ((s.sawImage c (c.u 40 8) (c.u 48 4)).issue c g (.prog ops)).2))) ∧
  (∀ n t ops args phys, Effect .progLaunch 0x0302 false false
    (fun c s => argsField c 40 48 4096 = .ok () ∧ Zero c 50 14 ∧ s.useTicket c .prog = .ok (n, t) ∧ t.payload = .prog ops ∧
      s.input c (bit (c.u 40 8) 0) (c.u 40 8 / 64 * 64) (c.u 48 2) = .ok args ∧ s.freeCores t.ctx t.cores = some phys)
    (fun c s => ((s.sawImage c (c.u 40 8) (c.u 48 2)).startLaunch (.cmd c.uid) t c.part ops phys args c.chill c.step).modCmd c.uid (fun k => { k with work := .launch s.cores.nextLaunch }))) ∧
  (∀ es g, Effect .planLoad 0x0303 false false
    (fun c s => c.u 26 2 = 64 ∧ c.ticket = 0 ∧ imageFormat c 40 48 = .ok () ∧ s.planImage c (declAt c 64) = .ok es ∧ (s.pairedPart c.part = false ∨ ∀ e ∈ es, s.ringEntry c e = false) ∧ Zero c 52 12 ∧
      declFormat c 64 64 = .ok () ∧ s.admission c 64 = .ok g)
    (fun c s => ((s.sawPlan c es).issue c g (.plan es)).1.reply c.uid (okProgress ((s.sawPlan c es).issue c g (.plan es)).2))) ∧
  (∀ n t es phys, Effect .planLaunch 0x0304 false false
    (fun c s => s.useTicket c .plan = .ok (n, t) ∧ Zero c 40 24 ∧ t.payload = .plan es ∧ (∀ e ∈ es, e.kind = 3 → (s.entryTicket c e.ticket).isSome) ∧ s.freeCores t.ctx t.cores = some phys)
    (fun c s => (((s.holdCores c.uid c.ctx phys).modCmd c.uid (fun k => { k with work := .plan 0 })).pumpPlan c 0).settleJobs)) ∧
  (∀ ops a, Effect .fillGroupCreate 0x0310 false false
    (fun c s => c.u 26 2 = 80 ∧ c.ticket = 0 ∧ c.u 40 2 < 64 ∧ s.fill? c.part (c.u 40 2) = none ∧ 1 ≤ c.u 42 1 ∧ c.u 42 1 ≤ 64 ∧ Zero c 43 1 ∧ argsField c 48 56 2048 = .ok () ∧
      Zero c 58 6 ∧ declFormat c 64 64 = .ok () ∧ imageFormat c 128 136 = .ok () ∧ s.progImage c (declAt c 64) 128 136 = .ok ops ∧ Zero c 140 4 ∧ s.admission c 64 = .ok a)
    (fun c s =>
      let r := (s.sawImage c (c.u 128 8) (c.u 136 4)).issue c a (.fill (c.u 40 2))
      ({ r.1 with cores := { r.1.cores with fills := r.1.cores.fills ++ [{
        part := c.part, group := c.u 40 2, slot := a.slot, maxRows := c.u 42 1, deadline := c.u 44 4, args := c.u 48 8, argsBytes := c.u 56 2, ops := ops }] } } : State).reply c.uid (okProgress r.2))) ∧
  (∀ n k, Effect .fillSubmit 0x0311 false false
    (fun c s => s.useTicket c .fill = .ok n ∧ n.2.payload = .fill (c.u 40 2) ∧ s.fill? c.part (c.u 40 2) = some k ∧ k.destroying = false ∧ 1 ≤ c.u 42 1 ∧ c.u 42 1 ≤ k.maxRows ∧ Zero c 43 5 ∧ bits (c.u 48 8) 5 1 = 0 ∧ bits (c.u 56 8) 5 1 = 0)
    (fun c s => (s.modCmd c.uid (fun r => { r with work := .fill k.part k.group })).joinBatch k { uid := c.uid, rows := c.u 42 1, inAddr := c.u 48 8, outAddr := c.u 56 8 } c.chill)) ∧
  (∀ n k, Effect .fillFlush 0x0312 false false (fun c s => s.useTicket c .fill = .ok n ∧ n.2.payload = .fill (c.u 40 2) ∧ s.fill? c.part (c.u 40 2) = some k ∧ k.destroying = false ∧ Zero c 42 22)
    (fun c s => (s.issueBatch k.part k.group 48 16).reply c.uid ok)) ∧
  (∀ n k, Effect .fillGroupDestroy 0x0313 false false (fun c s => s.useTicket c .fill = .ok n ∧ n.2.payload = .fill (c.u 40 2) ∧ s.fill? c.part (c.u 40 2) = some k ∧ k.destroying = false ∧ Zero c 42 22 ∧ k.issued = [])
    (fun c s => (((((k.openBatch.map (·.reqs)).getD []).foldl (fun st q => st.reply q.uid errAborted) s).modFill k.part k.group
      (fun k => { k with openBatch := none, destroying := true })).release k.part k.slot).reply c.uid ok))

/-- Streams and copies (R190 to R196): a stream is split over cores of its ticket; a fused chain starts its tiles; a copy runs on the copy engine of its link's die. -/
def Obligations.StreamCommandsComplete : Prop :=
  (∀ n t cores phys s1, Effect .stream 0x0401 false false
    (fun c s =>
      let d := (c.pkt.bytes.drop 64).take 128
      c.u 26 2 = 128 ∧ s.useTicket c .progOrPlan = .ok (n, t) ∧ c.u 40 1 ≤ 5 ∧ coreRange t (c.u 41 1) (c.u 42 1) 41 = .ok cores ∧ Zero c 43 21 ∧
      streamErrors d (streamDesc d [0, 0, 0, 0]) = none ∧ s.physCores cores = some phys ∧ c.u 40 1 < fld d 115 1 ∧ (∀ k ∈ phys, s.coreFree c.ctx k = true) ∧
      (s.holdCores c.uid c.ctx phys).startSplit c 0 c.pkt.bytes phys t.decl.dense = .ok s1)
    (fun c _ => (s1.modCmd c.uid (fun k => if k.reply.isSome then k else { k with work := .jobs })).settleJobs)) ∧
  (∀ n t gs cores phys s1, Effect .fused 0x0402 false false
    (fun c s => s.useTicket c .progOrPlan = .ok (n, t) ∧ fusedFields c.pkt.bytes = .ok gs ∧ coreRange t (c.u 41 1) (c.u 42 1) 41 = .ok cores ∧ (∀ g ∈ gs, g.bad = none) ∧
      s.physCores cores = some phys ∧ (∀ k ∈ phys, s.coreFree c.ctx k = true) ∧
      ((s.holdCores c.uid c.ctx phys).modCmd c.uid (fun k => { k with work := .jobs })).startFused c 0 c.pkt.bytes gs phys = .ok s1)
    (fun _ _ => s1.settleJobs)) ∧
  Effect .hostCopy 0x0404 false false
    (fun c _ => c.u 26 2 = 8 ∧ c.ticket = 0 ∧ c.u 40 1 ≤ 1 ∧ Zero c 41 7 ∧ c.u 48 8 % 64 = 0 ∧ c.u 56 8 % 64 = 0 ∧ c.u 56 8 < 2 ^ 52 ∧ c.u 64 8 % 64 = 0 ∧ 64 ≤ c.u 64 8 ∧
      c.u 64 8 ≤ 2 ^ 40 ∧ c.u 56 8 + c.u 64 8 ≤ 2 ^ 52 ∧ c.u 48 8 + c.u 64 8 ≤ 2 ^ 64)
    (fun c s => s.startCopy c (if c.u 40 1 = 0 then copyDesc 2 1 (c.u 48 8) (c.u 56 8) (c.u 64 8) else copyDesc 1 2 (c.u 56 8) (c.u 48 8) (c.u 64 8)) none) ∧
  Effect .fillConst 0x0405 false false
    (fun c _ => c.ticket = 0 ∧ c.u 40 8 % 8 = 0 ∧ c.u 40 8 < 2 ^ 52 ∧ c.u 48 8 % 8 = 0 ∧ 8 ≤ c.u 48 8 ∧ c.u 48 8 ≤ 2 ^ 48 ∧ c.u 40 8 + c.u 48 8 ≤ 2 ^ 52)
    (fun c s => s.startCopy c (copyDesc 1 1 (c.u 40 8) (c.u 40 8) (c.u 48 8)) (some (BitVec.ofNat 64 (c.u 56 8))))

/-- Collectives, barriers and scale votes (R117, R350, R351, R429, R431 to R435): a collective starts on its ring, a barrier of one device is released at once; a vote takes the scale's rule at its dispatch and goes out at its tick's end with the overflow bit, which it clears. -/
def Obligations.CollectiveCommandsComplete : Prop :=
  (∀ k, Effect .reduceScatter 0x0501 false false (fun c s => s.collFields c 1 = .ok k ∧ k.compress = false ∧ k.toCru = false ∧ s.refuseAxis c = .ok () ∧ s.waitLines c k.lines = none) (fun _ s => s.collStart k)) ∧
  (∀ k s1, Effect .reduceScatter 0x0501 false false (fun c s => s.collFields c 1 = .ok k ∧ k.compress = false ∧ k.toCru = true ∧ s.refuseAxis c = .ok () ∧ s.waitLines c k.lines = none ∧ s.collGroup c k = .ok (some s1))
    (fun c _ => (s1.collStart k).collLogged c.uid)) ∧
  (∀ k, Effect .allGather 0x0502 false false (fun c s => s.collFields c 2 = .ok k ∧ k.compress = false ∧ k.toCru = false ∧ s.refuseAxis c = .ok () ∧ s.waitLines c k.lines = none) (fun _ s => s.collStart k)) ∧
  (∀ k, Effect .allReduce 0x0503 false false (fun c s => s.collFields c 3 = .ok k ∧ k.compress = false ∧ k.toCru = false ∧ s.refuseAxis c = .ok () ∧ s.waitLines c k.lines = none) (fun _ s => s.collStart k)) ∧
  (∀ k, Effect .broadcast 0x0504 false false (fun c s => s.collFields c 4 = .ok k ∧ k.compress = false ∧ k.toCru = false ∧ s.refuseAxis c = .ok () ∧ s.waitLines c k.lines = none) (fun _ s => s.collStart k)) ∧
  (∀ n t b, Effect .barrier 0x0505 false false
    (fun c s => s.useTicket c .any = .ok (n, t) ∧ t.barIds[c.u 40 2]? = some b ∧ 1 ≤ c.u 42 1 ∧ c.u 42 1 ≤ 3 ∧ s.field .colRing c.part (c.u 42 1 - 1) 0 16 = 1 ∧ Zero c 43 21 ∧ s.refuseAxis c = .ok ())
    (fun c s => ((s.useEpoch c.part b).barCount c.part false).reply c.uid ok)) ∧
  (∀ n t b, Effect .barrier 0x0505 false false
    (fun c s => s.useTicket c .any = .ok (n, t) ∧ t.barIds[c.u 40 2]? = some b ∧ 1 ≤ c.u 42 1 ∧ c.u 42 1 ≤ 3 ∧ 1 < s.field .colRing c.part (c.u 42 1 - 1) 0 16 ∧ Zero c 43 21 ∧ s.refuseAxis c = .ok ())
    (fun c s => (s.modCmd c.uid (fun q => { q with work := .coll c.uid })).barJoin
      { part := c.part, axis := c.u 42 1, id := b, epoch := 0, uid := some c.uid, n := s.field .colRing c.part (c.u 42 1 - 1) 0 16, pos := s.field .colRing c.part (c.u 42 1 - 1) 16 16 } b)) ∧
  (∀ x l, Effect .scaleVote 0x0506 false false
    (fun c s => c.ticket = 0 ∧ s.ctx? c.ctx = some x ∧ c.step ≠ 0 ∧ (∀ v ∈ x.votes, v.step ≠ c.step) ∧ c.step ∉ x.pendingVotes ∧ c.u 40 1 < 8 ∧
      (∀ r ∈ s.ringsOf c.part (c.u 40 1), r.2.1 ≠ 0) ∧ Zero c 41 7 ∧ c.u 48 8 % 4 = 0 ∧ Zero c 56 8 ∧ s.refuseAxis c = .ok () ∧
      (if c.u 48 8 = 0 then l = [] else s.input c false (c.u 48 8) 4 = .ok l))
    (fun c s => ((if c.u 48 8 = 0 then s else s.sawInput c false (c.u 48 8) 4).modCtx c.ctx (fun k => { k with pendingVotes := k.pendingVotes ++ [c.step] })).modCmd c.uid (fun q =>
      { q with scale := { k := x.k, dec := x.dec, kMin := x.kMin, kMax := x.kMax, incEvery := x.incEvery }, ballot := some { word := leNat l, rings := s.ringsOf c.part (c.u 40 1) }, work := .vote }))) ∧
  (∀ (s : State) (c : Running) (v : Ballot) (x : Ctx) (s1 : State) (w : Nat), c.ballot = some v → s.ctx? c.ctx = some x → w = v.word ||| (if x.overflow then 1 else 0) →
    s1 = (s.modCtx c.ctx (fun k => { k with overflow := false })).modCmd c.uid (fun q => { q with ballot := none }) →
    ((∀ r ∈ v.rings, r.2.1 ≤ 1) → s.castVote c = s1.resolveVote c.uid w) ∧
    (∀ r rest, v.rings.filter (fun r => decide (1 < r.2.1)) = r :: rest → s.castVote c =
      s1.barJoin { part := c.part, axis := r.1, id := 0, epoch := 0, vote := true, step := c.step, word := w, uid := some c.uid, left := rest, n := r.2.1, pos := r.2.2 } (voteKey r.1)))


/-- Table sets, lookups, updates and Yarrow (R304, R305, R311 to R325): in normal mode an update issues its row adds and ends once none is outstanding; in Chill mode its entries wait for the command's barrier. -/
def Obligations.EmbeddingCommandsComplete : Prop :=
  (∀ bs g id s0, Effect .embTableCreate 0x0601 false false
    (fun c s => c.u 26 2 = 64 ∧ c.ticket = 0 ∧ c.u 40 8 % 64 = 0 ∧ c.u 40 8 < 2 ^ 52 ∧ 1 ≤ c.u 48 2 ∧ c.u 48 2 ≤ 4096 ∧ Zero c 50 14 ∧ declFormat c 64 64 = .ok () ∧
      s.input c false (c.u 40 8) (64 * c.u 48 2) = .ok bs ∧ (∀ p ∈ (chunks 64 4097 bs).zipIdx, s.tableErrors c.ctx p.1 = none) ∧ s.admission c 64 = .ok g ∧
      (s.sawInput c false (c.u 40 8) (64 * c.u 48 2)).pick 65536 ((s.embed.tsets.filter (·.ctx == c.ctx)).map (·.id)) = (some id, s0))
    (fun c _ =>
      let r := s0.issue c g (.tables id)
      ({ r.1 with embed := { r.1.embed with tsets := r.1.embed.tsets ++ [{
        ctx := c.ctx, id := id, part := c.part, slot := g.slot, tables := (chunks 64 4097 bs).map tableOf }] } } : State).reply c.uid (okProgress r.2 id))) ∧
  (∀ d tbl phys tk s2, Effect .embLookup 0x0602 false false
    (fun c s =>
      let t := embDesc d
      s.embCommand c 1 = .ok (.ok (d, tbl, phys, tk)) ∧ (∀ k ∈ phys, s.coreFree c.ctx k = true) ∧ s.yarrowWaits c.ctx t.tset t.table = false ∧ s.provHeld none (s.embPlaces t tbl 1 0 c.ctx 0 t.bags) = false ∧
      s.waitLines c [(t.data, (t.bags - 1) * t.stride + dataBytes 1 t tbl.width, true)] = none ∧
      ((s.holdCores c.uid c.ctx phys).modCmd c.uid (fun k => { k with work := .jobs })).lookupShares c d tk.decl.sparse phys = .ok s2)
    (fun c _ => if s2.embed.gathers.any (·.uid == c.uid) then s2 else s2.reply c.uid (okProgress (embDesc d).bags))) ∧
  (∀ d tbl phys tk parts, Effect .embUpdate 0x0603 false false
    (fun c s =>
      let t := embDesc d
      let p := ((s.ctx? c.ctx).map (·.part)).getD 0
      let all : List Contribution := parts.flatMap (fun q => q.2.2.2)
      let rows := all.map (fun k => (s.authority p c.ctx (tbl.rowAddr k.row), rowLen tbl.width tbl.bits))
      s.stepWaits c.ctx c.step = false ∧ s.embCommand c 2 = .ok (.ok (d, tbl, phys, tk)) ∧ s.stepSkipped c.ctx c.step = false ∧
      (∀ k ∈ phys, s.coreFree c.ctx k = true) ∧ s.yarrowWaits c.ctx t.tset t.table = false ∧ s.provHeld none (s.embPlaces t tbl 2 0 c.ctx 0 t.bags) = false ∧
      firstUnmapped s c.ctx ([dataRange 2 t tbl.width 0 t.bags] ++ (if c.chill = true ∨ t.coalesce = true then [(true, t.scratch, t.scratchBytes)] else [])) = none ∧
      s.idsUnmapped 0 c.ctx t 2 0 t.bags = none ∧
      parts = phys.zipIdx.map (fun q => (q.1, q.2, bagShare t.bags phys.length q.2,
        s.contributions q.1 c.ctx t tbl (bagShare t.bags phys.length q.2).1 (bagShare t.bags phys.length q.2).2)) ∧
      firstUnmapped s c.ctx (rows.map (fun r => (true, r.1, r.2))) = none ∧ s.farProtected p c.ctx tbl all = false ∧
      (c.chill = true → entryBytes tbl.width * sumOf (fun q => (distinct (q.2.2.2.map (fun (k : Contribution) => k.row))).length) parts ≤ t.scratchBytes) ∧
      s.waitLines c (rows.map (fun r => (r.1, r.2, true))) = none)
    (fun c s =>
      let s2 := parts.foldl (fun st q => st.runUpdate (.job c.uid) c.uid q.1 q.2.1 0 c.ctx d tbl q.2.2.1.1 q.2.2.1.2 ((embDesc d).scratchBytes / phys.length) c.step tk.decl.sparse c.chill q.2.2.2)
        ((s.holdCores c.uid c.ctx phys).modCmd c.uid (fun k => { k with work := .jobs }))
      if c.chill = true then s2.modCmd c.uid (fun k => { k with work := .barrier })
      else if s2.embed.adds.any (fun r => r.uid == c.uid) then s2 else (s2.dropCores c.uid).reply c.uid (okProgress (embDesc d).bags))) ∧
  (∀ tbl rows k, Effect .yarrowLoad 0x0604 false false
    (fun c s => s.yarrowArgs c true = .ok (tbl, rows) ∧ s.part? c.part = some k ∧ c.u 44 1 = 1)
    (fun c s => ((s.sawInput c false (c.u 48 8) (8 * c.u 56 4)).yarrowLoadRows c tbl k rows).1.reply c.uid
      (okProgress rows.length ((s.sawInput c false (c.u 48 8) (8 * c.u 56 4)).yarrowLoadRows c tbl k rows).2))) ∧
  (∀ tbl rows, Effect .yarrowWriteback 0x0605 false false
    (fun c s => s.yarrowArgs c false = .ok (tbl, rows) ∧ c.u 44 1 ≠ 2)
    (fun c s => ((s.residents c tbl).foldl (fun st a => st.yarrowBack c tbl (c.u 44 1 == 1) a) s).reply c.uid (okProgress (s.residents c tbl).length)))

/-- Parameter groups, applies, scales, flushes, exports and checkpoint streams (R331 to R333, R343 to R347, R354, R361 to R363, R368): each for a STEP that no scale vote skips or holds. -/
def Obligations.CrucibleCommandsComplete : Prop :=
  (∀ g id, Effect .cruGroupCreate 0x0701 false false
    (fun c s => s.stepSkipped c.ctx c.step = false ∧ s.stepWaits c.ctx c.step = false ∧ c.u 26 2 = 192 ∧ c.ticket = 0 ∧ Zero c 40 24 ∧ declFormat c 64 0 = .ok () ∧
      leastOf (s.groupErrors c.ctx (fun o n => c.u (128 + o) n)) = none ∧ s.cru.groups.length < 1024 ∧ s.admission c 64 = .ok g ∧
      (({ s with free := s.free + g.decl.cores + g.decl.barriers + 1 } : State).pick 1024 (s.cru.groups.map (·.id))).1 = some id)
    (fun c s =>
      let r := s.issue c g (.group id)
      ({ r.1 with free := r.1.free + 1, cru := { r.1.cru with groups := r.1.cru.groups ++ [{
        ctx := c.ctx, id := id, part := c.part, slot := g.slot, tensor := c.u 128 4, shard := c.u 132 4, elemBase := c.u 136 8, elems := c.u 144 8, kind := c.u 152 1,
        pfmt := c.u 153 1 % 16, mfmt := c.u 153 1 / 16, deferN := c.u 154 1 % 8, vote := bit (c.u 154 1) 3, digestState := bit (c.u 154 1) 4, repAxes := c.u 155 1,
        digestEvery := c.u 156 4, pAddr := c.u 160 8, mAddr := c.u 168 8, fAddr := c.u 176 8, rows := c.u 184 4, cols := c.u 188 4, hAddr := c.u 192 8, dAddr := c.u 200 8,
        tag := c.u 208 4 }] } } : State).reply c.uid (okProgress r.2 id))) ∧
  (∀ faults g k h, Effect (fun q pkt => .cruApply q pkt faults) 0x0702 false false
    (fun c s => c.u 26 2 = 16 ∧ s.groupArg c 40 false = .ok g ∧ (c.u 42 1 = 4 ∨ c.u 42 1 = 5) ∧ Zero c 43 5 ∧ c.u 48 8 % 64 = 0 ∧ Zero c 56 8 ∧ c.u 64 8 % g.gpe = 0 ∧ c.u 64 8 < g.elems ∧
      c.u 64 8 + c.u 72 8 ≤ g.elems ∧ (c.u 72 8 % g.gpe = 0 ∨ c.u 64 8 + c.u 72 8 = g.elems) ∧ s.quiesced c = false ∧ s.stepSkipped c.ctx c.step = false ∧
      s.applyScale c g = some k ∧ (c.u 72 8 = 0 ∨ s.stepOk c g (c.u 64 8 / g.gpe) (cdiv (c.u 64 8 + c.u 72 8) g.gpe) = true) ∧
      s.waitLines c ((c.u 48 8, c.u 72 8 * (es2 (c.u 42 1) / 2), false) :: g.stateRanges (c.u 64 8) (c.u 72 8)) = none ∧ s.hyperWords g = .ok h)
    (fun c s =>
      let q : CruJob := { uid := c.uid, ctx := c.ctx, part := c.part, gid := g.id, src := some (c.u 48 8, c.u 42 1), step := c.step, k := k, first := c.u 64 8, next := c.u 64 8 / g.gpe,
                          last := cdiv (c.u 64 8 + c.u 72 8) g.gpe, hyper := h, rings := s.ringsOf c.part g.repAxes, faults := faults }
      let s1 := ((s.vaTouch c.ctx g.hAddr 64).modGroup c.ctx g.id (fun g => if c.u 72 8 = 0 then g else { g with openStep := some c.step })).modCmd c.uid (fun r => { r with work := .apply })
      ({ s1 with cru := { s1.cru with jobs := s1.cru.jobs ++ [q] } } : State).rewriteStale.cruPump c.uid)) ∧
  Effect .cruSetScale 0x0703 false false
    (fun c s => s.stepSkipped c.ctx c.step = false ∧ s.stepWaits c.ctx c.step = false ∧ c.ticket = 0 ∧ -24 ≤ sgn 8 (c.u 40 1) ∧ sgn 8 (c.u 40 1) ≤ 40 ∧ c.u 41 1 ≤ 15 ∧
      -24 ≤ sgn 8 (c.u 42 1) ∧ sgn 8 (c.u 42 1) ≤ sgn 8 (c.u 40 1) ∧ sgn 8 (c.u 40 1) ≤ sgn 8 (c.u 43 1) ∧ sgn 8 (c.u 43 1) ≤ 40 ∧ Zero c 48 16)
    (fun c s => (s.modCtx c.ctx (fun x => { x with
      k := sgn 8 (c.u 40 1), dec := (c.u 41 1 : Nat), kMin := sgn 8 (c.u 42 1), kMax := sgn 8 (c.u 43 1), incEvery := c.u 44 4, clean := 0 })).reply c.uid ok) ∧
  (∀ g h, Effect .cruDeferredFlush 0x0704 false false
    (fun c s => s.groupArg c 40 true = .ok g ∧ Zero c 42 22 ∧ g.deferN ≠ 0 ∧ s.quiesced c = false ∧ s.stepSkipped c.ctx c.step = false ∧ s.stepWaits c.ctx c.step = false ∧ s.waitLines c (g.stateRanges 0 g.elems) = none ∧
      s.hyperWords g = .ok h)
    (fun c s =>
      let q : CruJob := { uid := c.uid, ctx := c.ctx, part := c.part, gid := g.id, flush := true, step := c.step, first := 0, next := 0, last := g.granules, hyper := h }
      let s1 := (s.vaTouch c.ctx g.hAddr 64).modCmd c.uid (fun r => { r with work := .apply })
      ({ s1 with cru := { s1.cru with jobs := s1.cru.jobs ++ [q] } } : State).rewriteStale.cruPump c.uid)) ∧
  (∀ g, Effect .cruDeferredFlush 0x0704 false false (fun c s => s.groupArg c 40 true = .ok g ∧ Zero c 42 22 ∧ g.deferN = 0) (fun c s => s.reply c.uid ok)) ∧
  (∀ g body n s1, Effect .exportShard 0x0B01 false false
    (fun c s => s.stepSkipped c.ctx c.step = false ∧ s.stepWaits c.ctx c.step = false ∧ c.u 26 2 = 16 ∧ s.groupArg c 40 false = .ok g ∧ c.u 42 1 < 4 ∧ Zero c 43 5 ∧ c.u 48 8 % 64 = 0 ∧ Zero c 56 8 ∧
      c.u 64 8 < g.elems ∧ n = (if c.u 72 8 = 0 then g.elems - c.u 64 8 else c.u 72 8) ∧ c.u 64 8 + n ≤ g.elems ∧
      ((∀ o, s.objAt g.ctx g.pAddr = some o → o.prot = false) ∨ (c.u 42 1 / 2 = 0 ∧ ∃ o, s.objAt c.ctx (c.u 48 8) = some o ∧ o.prot = true)) ∧ s.groupBusy c g = false ∧
      body = s.canonical g (bit (c.u 42 1) 0) (c.u 64 8) n ∧ s.badRuns g.ctx 64 (g.canonicalRanges (bit (c.u 42 1) 0) (c.u 64 8) n) = [] ∧
      s.waitLines c ((g.canonicalRanges (bit (c.u 42 1) 0) (c.u 64 8) n).map (fun r => (r.1, r.2, false)) ++ (if bit (c.u 42 1) 1 then [] else [(c.u 48 8, 64 + body.length, true)])) = none ∧
      s.output c (bit (c.u 42 1) 1) (c.u 48 8) (exportHeader g (c.u 42 1) (c.u 64 8) n body.length (crc64 body) ++ body) (g.tensor % 2 ^ 16) = .ok s1)
    (fun c _ => (s1.sawCanonical g c.uid 0x0C (bit (c.u 42 1) 0) (c.u 64 8) n).reply c.uid (okProgress body.length))) ∧
  (∀ bs far s1, Effect .campionOpen 0x0B02 false false
    (fun c s => s.stepSkipped c.ctx c.step = false ∧ s.stepWaits c.ctx c.step = false ∧ c.u 26 2 = 16 ∧ c.ticket = 0 ∧ c.u 40 1 < 16 ∧ c.u 41 1 < 4 ∧ far = bit (c.u 41 1) 0 ∧ c.u 42 1 < 8 ∧
      16 ≤ c.u 43 1 ∧ c.u 43 1 ≤ 40 ∧ Zero c 44 4 ∧ c.u 48 8 % 4096 = 0 ∧ c.u 56 8 % 8 = 0 ∧ s.campion? (c.u 40 1) = none ∧ 1 ≤ c.u 72 2 ∧ c.u 72 2 ≤ 1024 ∧ Zero c 74 6 ∧
      s.input c false (c.u 64 8) (2 * c.u 72 2) = .ok bs ∧ (∀ i < c.u 72 2, s.mayStream c.ctx (fld bs (2 * i) 2) = true) ∧
      (far = true → ∃ x, s.rawFar (.tail (c.u 40 1)) c.uid (c.u 42 1) (c.u 56 8) (toLe 8 0) = some x ∧ s1 = x.1.sawInput c false (c.u 64 8) (2 * c.u 72 2)) ∧
      (far = false → s.hostMiss (s.linkOf c.queue) (s.pasidOf c) (c.u 56 8) 8 = none ∧
        s1 = (s.sawInput c false (c.u 64 8) (2 * c.u 72 2)).hostStore (s.linkOf c.queue) (s.pasidOf c) c.uid (c.u 56 8) (toLe 8 0)))
    (fun c s =>
      let k : Campion := { j := c.u 40 1, ctx := c.ctx, far := far, state := bit (c.u 41 1) 1, egroup := c.u 42 1, ringLog2 := c.u 43 1, ring := c.u 48 8, tailAddr := c.u 56 8,
                           groups := (List.range (c.u 72 2)).map (fun i => fld bs (2 * i) 2), link := s.linkOf c.queue }
      ((({ s1 with cru := { s1.cru with streams := s1.cru.streams ++ [k] } } : State).setReg .cruCampionHead k.j 0 0).setField .cruCampionStat k.j 0 1 1 0).reply c.uid ok)) ∧
  (∀ k, Effect .campionClose 0x0B03 false false
    (fun c s => s.stepSkipped c.ctx c.step = false ∧ s.stepWaits c.ctx c.step = false ∧ c.ticket = 0 ∧ Zero c 41 23 ∧ s.campion? (c.u 40 1) = some k ∧ k.ctx = c.ctx ∧ k.sent = [] ∧
      (∀ f ∈ s.memory.far, f.use ≠ .tail k.j) ∧ ∀ q ∈ s.cru.jobs, (∃ f ∈ q.frames, f.1 = k.j) → ∀ r, s.cmd? q.uid = some r → r.reply = none)
    (fun c s => ({ s with cru := { s.cru with streams := s.cru.streams.filter (fun e => e.j != k.j) } } : State).reply c.uid (okProgress k.tail)))

/-- The determinism ledger, digests and pairs (R380, R384 to R386, R394). -/
def Obligations.ChillCommandsComplete : Prop :=
  (∀ x s1, Effect .detLedgerRead 0x0801 false false
    (fun c s => c.ticket = 0 ∧ s.ctx? (c.u 40 1) = some x ∧ (if c.admin then serves c.fn x.part = true else x.id = c.ctx) ∧ c.u 41 1 < 4 ∧ Zero c 42 6 ∧ c.u 48 8 % 32 = 0 ∧ Zero c 56 8 ∧
      s.output c (bit (c.u 41 1) 1) (c.u 48 8) (toLe 8 x.run ++ toLe 8 x.refresh ++ toLe 8 x.retry ++ toLe 8 x.chillCmds) = .ok s1)
    (fun c _ => (if bit (c.u 41 1) 0 then s1.modCtx x.id (fun k => { k with run := 0, refresh := 0, retry := 0, chillCmds := 0 }) else s1).reply c.uid ok)) ∧
  (∀ bs s1, Effect .digest 0x0802 false false
    (fun c s => c.u 26 2 = 8 ∧ c.ticket = 0 ∧ c.u 40 1 = 0 ∧ c.u 41 1 < 4 ∧ Zero c 44 4 ∧ c.u 56 8 % 8 = 0 ∧ 1 ≤ c.u 64 8 ∧ c.u 64 8 ≤ 2 ^ 46 ∧
      s.waitLines c [(c.u 48 8, c.u 64 8, false)] = none ∧ s.vaRead c.space (c.u 48 8) (c.u 64 8) = some (bs, false) ∧
      (if c.u 56 8 = 0 then s1 = s.vaTouch c.space (c.u 48 8) (c.u 64 8)
       else (s.vaTouch c.space (c.u 48 8) (c.u 64 8)).output c (bit (c.u 41 1) 1) (c.u 56 8) (toLe 8 (crc64 bs).toNat) = .ok s1))
    (fun c _ => s1.reply c.uid (okProgress bs.length ((crc64 bs).toNat % 2 ^ 32)))) ∧
  (∀ g bs s1, Effect .digest 0x0802 false false
    (fun c s => c.u 26 2 = 8 ∧ c.u 40 1 = 1 ∧ c.u 41 1 < 4 ∧ s.groupArg c 42 false = .ok g ∧ Zero c 44 4 ∧ c.u 56 8 % 8 = 0 ∧ s.groupBusy c g = false ∧
      s.waitLines c ((g.canonicalRanges (bit (c.u 41 1) 0) 0 g.elems).map (fun r => (r.1, r.2, false))) = none ∧
      bs = s.canonical g (bit (c.u 41 1) 0) 0 g.elems ∧ s.badRuns g.ctx 0 (g.canonicalRanges (bit (c.u 41 1) 0) 0 g.elems) = [] ∧
      (if c.u 56 8 = 0 then s1 = s.sawCanonical g c.uid 1 (bit (c.u 41 1) 0) 0 g.elems
       else (s.sawCanonical g c.uid 1 (bit (c.u 41 1) 0) 0 g.elems).output c (bit (c.u 41 1) 1) (c.u 56 8) (toLe 8 (crc64 bs).toNat) = .ok s1))
    (fun c _ => s1.reply c.uid (okProgress bs.length ((crc64 bs).toNat % 2 ^ 32)))) ∧
  Effect .matchPair 0x0803 true true
    (fun c s => c.ticket = 0 ∧ c.u 40 1 ≤ 31 ∧ (s.part? (c.u 40 1)).isSome ∧ s.pair.active = false ∧ s.pair.pending = none ∧ c.u 41 1 ≤ 23 ∧ c.u 42 1 ≤ 1 ∧ c.u 43 1 ≤ 1 ∧
      1 ≤ c.u 44 1 ∧ c.u 44 1 ≤ 64 ∧ c.u 45 1 < 2 ∧ Zero c 46 18)
    (fun c s =>
      let p : Pair := { pending := some c.uid, peer := s.pair.peer, part := c.u 40 1, port := c.u 41 1, lead := c.u 42 1 == 0, tileGrain := c.u 43 1 == 1, t0 := bit (c.u 45 1) 0, window := c.u 44 1 }
      let s1 := ({ s with pair := p } : State).modPort (c.u 41 1) (fun q => { q with pairLink := true })
      ((s1.modCmd c.uid (fun q => { q with work := .pair })).sendMatch 0 0 (s1.pairBytes c)).pairUp) ∧
  Effect .matchUnpair 0x0804 true true
    (fun c s => c.ticket = 0 ∧ s.pair.active = true ∧ c.u 40 1 = s.pair.part ∧ s.pair.unpairing = none ∧ Zero c 41 23)
    (fun c s => ((({ s with pair := { s.pair with unpairing := some c.uid } } : State).modCmd c.uid (fun q => { q with work := .unpair })).sendMatch 4 0 []).pairDown)

/-- Service commands (R285 to R288, R486, R488 to R490): a repair waits for Riser, which serves it at its tick's end; unit records, patrol passes, firmware rolls, factor indexes. -/
def Obligations.ServiceCommandsComplete : Prop :=
  Effect .repairRequest 0x0901 true true
    (fun c _ => c.ticket = 0 ∧ Zero c 49 7 ∧ (c.u 48 1 ≤ 2 ∧ unitValid (c.u 40 4) = true ∨ c.u 48 1 = 3 ∧ c.u 40 4 = 0 ∧ c.u 44 4 = 0 ∧ rowValid (BitVec.ofNat 64 (c.u 56 8)) = true))
    (fun c s => (s.ask (c.u 40 4) (.repair c.uid (actionOf (c.u 48 1)) (c.u 44 4) (BitVec.ofNat 64 (c.u 56 8)))).modCmd c.uid (fun k => { k with work := .unit (c.u 40 4) })) ∧
  (∀ (s s1 : State) (k : Running) (u uid gen : Nat) (act : RiserAction) (loc : BitVec 64) (r : Reply), s.cmd? uid = some k → k.reply = none → s.riserAct act u gen loc = (s1, some r) →
    s.serveAsk { unit := u, kind := .repair uid act gen loc } = s1.riserReply u uid r) ∧
  (∀ host addr s1, Effect .unitQuery 0x0902 true false
    (fun c s => c.ticket = 0 ∧ unitValid (c.u 40 4) = true ∧ c.fn = 0 ∧ Zero c 44 4 ∧ recordField c 48 = .ok (host, addr) ∧ (host = false → (s.ctx? (c.u 3 1)).isSome) ∧ Zero c 56 8 ∧
      s.output c host addr (s.unitBytes (c.u 40 4)) = .ok s1)
    (fun c _ => s1.reply c.uid ok)) ∧
  Effect .scrub 0x0903 true true (fun c _ => c.ticket = 0 ∧ c.u 40 2 ≠ 0 ∧ Zero c 42 22) (fun c s => s.modCmd c.uid (fun k => { k with work := .scrub (c.u 40 2) })) ∧
  (∀ host addr, Effect .fwUpdate 0x0904 true true
    (fun c s => c.ticket = 0 ∧ imageField c 40 = .ok (host, addr) ∧ c.u 52 1 = 2 ∧ s.fw.rollUid = none ∧ s.fw.staged.isSome ∧ Zero c 53 11)
    (fun c s => ({ s with fw := { s.fw with rollUid := some c.uid, stat := 2, rollNext := 0, failures := 0, prior := s.fw.versions, coresNew := 0 } } : State).modCmd c.uid (fun k => { k with work := .roll }))) ∧
  (∀ host addr bs, Effect .fwUpdate 0x0904 true true
    (fun c s => c.ticket = 0 ∧ imageField c 40 = .ok (host, addr) ∧ 64 ≤ c.u 48 4 ∧ c.u 48 4 ≤ 8388608 ∧ c.u 52 1 ≤ 1 ∧ s.fw.rollUid = none ∧ Zero c 53 11 ∧ s.input c host addr (c.u 48 4) = .ok bs)
    (fun c s =>
      let t := (s.sawInput c host addr (c.u 48 4)).stageImage bs
      if Config.imageOk bs = true ∧ s.imageTaken bs = true then
        ({ t with fw := { t.fw with rollUid := some c.uid, stat := if c.u 52 1 = 0 then 1 else 2, rollNext := 0, failures := 0, prior := t.fw.versions, coresNew := 0 } } : State).modCmd c.uid (fun k => { k with work := .roll })
      else if Config.imageOk bs = true then s.reply c.uid (errFormat 40)
      else ((s.sawInput c host addr (c.u 48 4)).count .prtSecStat 0 0 16 16).reply c.uid (errFormat 40))) ∧
  (∀ es pos, Effect .cmpIndex 0x0A01 false false
    (fun c s =>
      let n := c.u 72 2 * c.u 74 2
      c.u 26 2 = 16 ∧ c.ticket = 0 ∧ c.u 40 8 % 64 = 0 ∧ c.u 40 8 < 2 ^ 52 ∧ c.u 48 8 % 64 = 0 ∧ c.u 48 8 < 2 ^ 52 ∧ Zero c 56 8 ∧ 64 ≤ c.u 64 8 ∧ c.u 64 8 ≤ 2 ^ 46 ∧
      c.u 72 2 ≠ 0 ∧ c.u 74 2 ≠ 0 ∧ Zero c 76 4 ∧ s.protectedIn c.space (c.u 40 8) (c.u 64 8) = false ∧ s.protectedIn c.space (c.u 48 8) (64 + 8 * (n + 1)) = false ∧
      s.waitLines c [(c.u 40 8, c.u 64 8, false), (c.u 48 8, 64 + 8 * (n + 1), true)] = none ∧
      s.walkBlocks c.space (c.u 40 8) (c.u 48 8) (c.u 64 8) (c.u 74 2) n n 0 0 [] = (es, pos, none) ∧ s.unmapped c.space (c.u 48 8) 64 = none)
    (fun c s =>
      let n := c.u 72 2 * c.u 74 2
      let bs := es.flatMap (toLe 8)
      let h0 := toLe 2 0xF7C2 ++ toLe 2 0 ++ toLe 4 n ++ toLe 2 (c.u 72 2) ++ toLe 2 (c.u 74 2) ++ toLe 4 (((s.objAt c.space (c.u 40 8)).map (·.handle)).getD 0) ++
        toLe 8 (c.u 40 8) ++ toLe 8 (c.u 64 8) ++ List.replicate 30 0
      let h := h0 ++ toLe 2 (crc16 (h0 ++ bs))
      let s1 := ((s.vaWrite c.space (c.u 48 8 + 64) bs).vaTouch c.space (c.u 48 8 + 64) bs.length).digestWrite c.uid 0 0 9 bs
      ((((s1.vaWrite c.space (c.u 48 8) h).vaTouch c.space (c.u 48 8) 64).digestWrite c.uid 0 0 9 h).vaTouch c.space (c.u 40 8) (c.u 64 8)).reply c.uid (okProgress n))) ∧
  (∀ h es, Effect .cmpVerify 0x0A02 false false
    (fun c s =>
      let n := fld h 4 4
      let k := if c.u 52 4 = 0 then n - c.u 48 4 else c.u 52 4
      c.ticket = 0 ∧ c.u 40 8 % 64 = 0 ∧ c.u 40 8 < 2 ^ 52 ∧ Zero c 56 8 ∧ s.protectedIn c.space (c.u 40 8) 64 = false ∧ s.vaRead c.space (c.u 40 8) 64 = some (h, false) ∧ fld h 0 2 = 0xF7C2 ∧
      s.vaRead c.space (c.u 40 8 + 64) (8 * (n + 1)) = some (es, false) ∧ fld h 62 2 = crc16 (h.take 62 ++ es) ∧ c.u 48 4 ≤ n ∧ c.u 48 4 + c.u 52 4 ≤ n ∧
      s.waitLines c [(c.u 40 8, 64 + 8 * (n + 1), false), (fld h 16 8, fld h 24 8, false)] = none ∧
      s.verifyBlocks c.space (c.u 40 8) (max 1 (fld h 10 2)) n (fld h 16 8 + fld h 24 8) k (c.u 48 4) = none)
    (fun c s =>
      let k := if c.u 52 4 = 0 then fld h 4 4 - c.u 48 4 else c.u 52 4
      (s.sawBlocks c.space (c.u 40 8) (c.u 48 4) k).reply c.uid (okProgress k)))


/-! ### The event rows: the effect of each -/

/-- Doorbells, fetching, dispatch and completion (R44 to R47, R53 to R61, R79, R82): a packet whose slots have all been written leaves its ring; the next ready packet that no other queue outranks starts; a command that has its outcome completes; a timeout is evaluated at its tick's end, when a command without its outcome ends with ERR_TIMEOUT and a batch at its deadline issues. -/
def Obligations.QueueEventsComplete : Prop :=
  (∀ (s : State) (fn : Fin 33) (q : QueueId) (e : Queue) (v : BitVec 32), s.power.stopped = false → s.seesQueue fn q = true → s.queue? q = some e → e.state ≠ .absent →
    1 ≤ (v.toNat + 2 ^ 32 - e.tail) % 2 ^ 32 → (v.toNat + 2 ^ 32 - e.tail) % 2 ^ 32 < 2 ^ 31 → (v.toNat + 2 ^ 32 - e.head) % 2 ^ 32 ≤ 2 ^ e.sizeLog2 →
    exec (.doorbellWrite fn q v) s = .next (s.after (s.modQueue q (fun e => { e with tail := v.toNat })))) ∧
  (∀ (s : State) (q : QueueId) (bad : Option (Fin 8)) (e : Queue) (h bs : List Byte), s.power.stopped = false → s.findQueue q = some e → e.state = .running → e.stopping = false → e.fetchWait = none →
    (s.pair.lead = true ∨ s.pairedPart (((s.ctx? q.owner).map (·.part)).getD 32) = false) → (e.inDevice = true ∨ (s.link e.link).state ≠ .down) →
    s.ringRead e (ringAddrs e 1) (bad.map (·.val)) = .ok h → fld h 26 2 % 8 = 0 → fld h 26 2 ≤ 448 →
    1 + cdiv (fld h 26 2) 64 ≤ (e.tail + 2 ^ 32 - e.head) % 2 ^ 32 → s.ringRead e (ringAddrs e (1 + cdiv (fld h 26 2) 64)) (bad.map (·.val)) = .ok bs →
    exec (.packetFetch ⟨q, bad⟩) s = .next (s.after ((s.sawSlots e (ringAddrs e (1 + cdiv (fld h 26 2) 64))).modQueue q (fun e =>
      { e with head := (e.head + 1 + cdiv (fld h 26 2) 64) % 2 ^ 32, fetched := e.fetched ++ [{ bytes := bs.take (64 + fld h 26 2) }] })))) ∧
  (∀ (s s0 : State) (q : QueueId) (e : Queue) (p : Packet) (rest : List Packet), s.power.stopped = false → (∀ k ∈ s.queues.flatMap (·.running), k.work ≠ .held) → s.findQueue q = some e →
    e.fetched = p :: rest → (q.key < 64 ∨ s.silent (s.queuePart q) = false) → e.ready = true → s.outranked e = false → s.ctxHeld q = false → (fld p.bytes 2 1).testBit 5 = false →
    (e.fenceNeed = none ∧ s0 = s ∨ ∃ sys, e.fenceNeed = some sys ∧ s0 = s.flushQueue q sys) → s0.fenceHeld e = false →
    exec (.commandDispatch q) s = .next (s.after ((s0.modQueue q (fun e => { e with fetched := rest, fenceAfter := none })).start q p (bodyOf p)))) ∧
  (∀ (s s1 : State) (uid : Nat) (c : Running) (r : Reply), s.power.stopped = false → s1 = s.settleColls → s1.cmd? uid = some c → c.reply = some r → (s1.cmdAdds uid = false ∨ 0x10 ≤ r.status) →
    c.matchIndex = 0 → exec (.commandComplete uid) s = .next (s.after (s1.finish c r).resumeAll)) ∧
  (∀ (s : State) (uid : Nat), s.power.stopped = false → exec (.commandTimeout uid) s = .next (s.after (s.expire (.command uid)))) ∧
  (∀ (s s1 : State) (uid : Nat) (c : Running), s1 = s.settleColls → s1.cmd? uid = some c → c.reply = none → c.work = .apply → s1.parkedHost uid = none → s1.inLadle uid = false → c.timeout ≠ 0 →
    c.resolvedAt ≠ some s1.now → s.timeout (.command uid) = (s1.failAt uid errTimeout).resumeAll) ∧
  (∀ (s : State) (p : Fin 32) (g : Fin 64), s.power.stopped = false → exec (.fillDeadlineExpiry p g) s = .next (s.after (s.expire (.fill p g)))) ∧
  (∀ (s : State) (p g : Nat) (k : FillGroup) (b : Batch), s.fill? p g = some k → k.openBatch = some b → k.deadline ≠ 0 → b.noDeadline = false → b.openedAt + k.deadline ≤ s.now →
    s.timeout (.fill p g) = s.issueBatch p g 24 24)

/-- The sequencer of a core (R98, R100, R107 to R109, R112 to R114): NOP goes on, LOOP_BEGIN sets its register to 0, LOOP_END goes back while the count is not reached, YIELD clears signals, banks and tags, BAR arrives, END ends the program on its core; a barrier releases once all have arrived and the adds of its members have been answered. -/
def Obligations.SequencerRowsComplete : Prop :=
  (∀ (s : State) (c : Fin 40) (r : Run) (o : Op), s.power.stopped = false → s.seqOp c 0 = some (r, o) → exec (.seqNop c) s = .next (s.after (s.seqNext c (r.pc + 1) o.post))) ∧
  (∀ (s : State) (c : Fin 40) (r : Run) (o : Op), s.power.stopped = false → s.seqOp c 2 = some (r, o) →
    exec (.loopBegin c) s = .next (s.after ((s.modRun c (fun r => { r with loops := setAt r.loops (o.desc.toNat % 4) 0 })).seqNext c (r.pc + 1) o.post))) ∧
  (∀ (s : State) (c : Fin 40) (r : Run) (o b : Op) (l : Launch) (n : Nat), s.power.stopped = false → s.seqOp c 3 = some (r, o) → s.launch? r.launch = some l →
    l.ops[o.imm.toNat % 2 ^ 16]? = some b → n = ((r.loops[o.desc.toNat % 4]?).getD 0) + 1 →
    exec (.loopEnd c) s = .next (s.after ((s.modRun c (fun r => { r with loops := setAt r.loops (o.desc.toNat % 4) n })).seqNext c
      (if n < b.imm.toNat % 2 ^ 32 then o.imm.toNat % 2 ^ 16 + 1 else r.pc + 1) o.post))) ∧
  (∀ (s s1 : State) (c : Fin 40) (r : Run) (o : Op), s.power.stopped = false → s.seqOp c 4 = some (r, o) → r.drained = true →
    s1 = ((s.yieldClear c).modRun c (fun r => r.pastYield o.post)).yieldProgress r.launch →
    s1.lapsedCmd r.launch = none → (s1.unit (coreUnit c)).state = .active → (s1.core c).switchPending = false → s1.contended c = false → exec (.yield c) s = .next (s.after (s1.settle c))) ∧
  (∀ (s : State) (c : Fin 40) (r : Run) (o : Op) (l : Launch) (id : Nat), s.power.stopped = false → s.seqOp c 5 = some (r, o) → s.launch? r.launch = some l → r.drained = true →
    id = (l.barIds[bits o.desc.toNat 9 0]?).getD 0 → bits o.desc.toNat 13 12 = 0 →
    exec (.bar c) s = .next (s.after ((s.modRun c (fun r => { r with seq := .barrier id })).modLaunch l.id (fun l => { l with arrived := l.arrived ++ [(id, r.logical)] })))) ∧
  (∀ (s s2 : State) (c : Fin 40) (r : Run) (o : Op) (l : Launch) (u : Nat), s.power.stopped = false → s.seqOp c 1 = some (r, o) → r.drained = true →
    s2 = (((s.modCore c (fun k => { k.clearArrays.leave with switchPending := false, slot := false })).coreDrained c).modPart r.part (fun p => { p with slotWait := p.slotWait.filter (· != c.val) })).modLaunch
      r.launch (fun l => l.endedOn r c) →
    s2.launch? r.launch = some l → s2.lapsedCmd l.id = none → l.by_ = .cmd u → l.cores.length ≤ l.ended.length →
    exec (.endProg c) s = .next (s.after ((((s2.reply u (l.outcome r.yields)).endLaunch l.id).resumeCore c).pumpFills))) ∧
  (∀ (s : State) (n : Fin 1024) (l : Launch), s.power.stopped = false →
    s.cores.launches.find? (fun l => l.arrived.any (fun a => a.1 == n.val) && l.allArrived n && !s.fabric.bars.any (fun b => b.launch == some (l.id, n.val))) = some l →
    s.launchAdds l.id (s.launchCmds l.id) = false → s.stagedBarred (fun g => g.launch == some l.id) = false →
    exec (.barrierRelease (.id n)) s = .next (s.after ((s.useEpoch l.part n).releaseLaunch l n true))) ∧
  (∀ (s : State) (uid : Nat) (c : Running), s.power.stopped = false → s.cmd? uid = some c → c.reply = none → c.work = .barrier → s.cmdAdds uid = false →
    s.stagedBarred (fun g => s.cmdLaunch uid g.launch g.uid) = false →
    exec (.barrierRelease (.cmd uid)) s = .next (s.after (s.releaseCmd c)))

/-- The engines of a core (R103, R121, R148, R156, R189, R255, R270, R308, R576): the operation at an engine's head starts, its descriptor is read, and where nothing holds it its work is done; loads and lookups that go on mark the engine as streaming. -/
def Obligations.EngineRowsComplete : Prop :=
  (∀ (s : State) (c : Fin 40) (a : Fin 4) (f : Option Residue) (r : Run) (q : Queued) (d : List Byte), s.power.stopped = false → s.startable c (a + 1) = some (r, q) → q.op.op = 1 → q.descBeyond 64 = false →
    (s.begin c (a + 1) q).opDesc c q 64 5 = .ok d → tileErrors d (tileDesc false d q.loops) = none →
    (s.begin c (a + 1) q).provHeld none ((tileDesc false d q.loops).places c false) = false →
    exec (.tile c a f) s = .next (s.after (((s.begin c (a + 1) q).runTile c a false f false q.loops q.op.desc.toNat d).feedVec c))) ∧
  (∀ (s : State) (c : Fin 40) (a : Fin 4) (f : Option Residue) (r : Run) (q : Queued) (d : List Byte), s.power.stopped = false → s.startable c (a + 1) = some (r, q) → q.op.op = 2 → q.descBeyond 128 = false →
    (s.begin c (a + 1) q).opDesc c q 128 5 = .ok d → tileErrors d (tileDesc true d q.loops) = none →
    (s.begin c (a + 1) q).provHeld none ((tileDesc true d q.loops).places c false) = false →
    exec (.conv c a f) s = .next (s.after (((s.begin c (a + 1) q).runTile c a true f false q.loops q.op.desc.toNat d).feedVec c))) ∧
  (∀ (s : State) (c : Fin 40) (a : Fin 4) (f : Option Residue) (r : Run) (q : Queued) (d : List Byte), s.power.stopped = false → s.startable c (a + 1) = some (r, q) → q.op.op = 3 → q.descBeyond 64 = false →
    (s.begin c (a + 1) q).opDesc c q 64 5 = .ok d → drainOpErrors d (drainDesc d q.loops) = none →
    (s.begin c (a + 1) q).provHeld none ((drainDesc d q.loops).places c true) = false →
    exec (.drain c a f) s = .next (s.after (((s.begin c (a + 1) q).runDrain c a f false q.loops q.op.desc.toNat d).feedVec c))) ∧
  (∀ (s s1 : State) (c : Fin 40) (r : Run) (q : Queued) (d : List Byte) (t : VecDesc), s.power.stopped = false → s.startable c 5 = some (r, q) → q.descBeyond 64 = false → s1 = s.begin c 5 q →
    s1.opDesc c q 64 6 = .ok d → t = vecDesc d q.loops q.op.imm.toNat → vecErrors d t = none → s1.provHeld none (t.places c) = false →
    exec (.vec c) s = .next (s.after ((s1.modRun c (fun r => { r with vec := some { desc := d, loops := q.loops, imm := q.op.imm.toNat } })).feedVec c))) ∧
  (∀ (s : State) (c : Fin 40) (out : Bool) (r : Run) (q : Queued) (e : Nat) (d : List Byte) (k : Running), s.power.stopped = false → e = (if out then 7 else 6) → s.startable c e = some (r, q) → q.descBeyond 192 = false →
    (s.begin c e q).opDesc c q 192 1 = .ok d → streamBad e d (streamDesc d q.loops) = none → (streamDesc d q.loops).cmp % 4 = 0 →
    (s.begin c e q).cmd? ((((s.begin c e q).coreWork c).map (·.1)).getD 0) = some k →
    exec (.streamOperation c out) s =
      .next (s.after (((s.begin c e q).modRun c (fun r => r.setEngine e { r.engine e with streaming := true })).openStream
        { (streamDesc d q.loops).stream (.engine c e) ((((s.begin c e q).coreWork c).map (·.1)).getD 0) (some c) e r.logical ((s.begin c e q).tensorOf c e)
            ((((s.begin c e q).launch? r.launch).map (·.dense)).getD 0)
            ((s.begin c e q).share (streamDesc d q.loops) { ((s.begin c e q).endsOf k c) with ctx := r.ctx } 0 0 ((streamDesc d q.loops).count 0)) with descOff := some q.op.desc.toNat }))) ∧
  (∀ (s s1 : State) (c : Fin 40) (f : Option Nat) (r : Run) (q : Queued) (d : List Byte), s.power.stopped = false → s.gatherOp c 0x20 64 = some (r, q, .ok d) → s1 = s.begin c 8 q → Unsnooped s1 →
    s1.ladleErrors r.ctx d (ladleDesc d) = none → s1.provHeld none ((ladleDesc d).places c r.ctx) = false →
    exec (.ladle c f) s = .next (s.after (s1.runLadle c r.ctx (ladleDesc d) f false))) ∧
  (∀ (s s1 s2 : State) (c : Fin 40) (r : Run) (q : Queued) (d : List Byte) (u e n : Nat), s.power.stopped = false → s.gatherOp c 0x21 64 = some (r, q, .ok d) → s1 = s.begin c 8 q → Unsnooped s1 →
    n = fld d 12 4 * addEs (fld d 16 1) → maddErrors d = none → s1.unmapped r.ctx (fld d 0 8) n = none → (∀ p ∈ pieces (fld d 0 8) n, ∀ o, s1.pageAt r.ctx p.1 = some o → o.2.tier = .t3 → o.1.prot = false ∧ (s1.farPort o.2.place).isSome = true) →
    s1.provHeld none [(.core c (fld d 8 4), n), (.dev r.ctx (fld d 0 8), n)] = false → s1.coreWork c = some (u, e) →
    ((s1.digestCore c 8 11 ((s1.core c).store.read (fld d 8 4) n)).translate (some c) r.ctx (fld d 0 8) n).maddAll c u r.ctx (fld d 16 1) (s1.coreChill c) (maddGranules (s1.core c) (fld d 0 8) (fld d 8 4) (fld d 12 4) (fld d 16 1)) = .ok s2 →
    exec (.madd c) s = .next (s.after s2)) ∧
  (∀ (s s1 s2 : State) (c : Fin 40) (r : Run) (q : Queued) (d : List Byte) (t : EmbDesc) (tbl : Table), s.power.stopped = false → s.gatherOp c 1 128 = some (r, q, .ok d) →
    s1 = s.begin c 8 q → t = embDesc d → Unsnooped s1 → s1.provHeld none (t.offsAt 1 c r.ctx 0 t.bags) = false → s1.embErrors 1 c r.ctx d false = none → s1.table? r.ctx t.tset t.table = some tbl →
    s1.yarrowWaits r.ctx t.tset t.table = false → s1.provHeld none (s1.embPlaces t tbl 1 c r.ctx 0 t.bags) = false →
    (s1.streamingOn (.engine c 8)).startLookup (.engine c 8) (((s1.coreWork c).map (·.1)).getD 0) c r.logical r.ctx d 0 t.bags (((s1.launch? r.launch).map (·.sparse)).getD 0) = .ok s2 →
    exec (.lookup c) s = .next (s.after s2)) ∧
  (∀ (s s1 s2 : State) (c : Fin 40) (r : Run) (q : Queued) (d : List Byte) (t : EmbDesc) (tbl : Table) (p : Nat) (cs : List Contribution), s.power.stopped = false → s.gatherOp c 2 128 = some (r, q, .ok d) →
    s1 = s.begin c 8 q → t = embDesc d → p = ((s1.ctx? r.ctx).map (·.part)).getD 0 → Unsnooped s1 → s1.provHeld none (t.offsAt 2 c r.ctx 0 t.bags) = false →
    s1.embErrors 2 c r.ctx d (s1.coreChill c || t.coalesce) = none → s1.table? r.ctx t.tset t.table = some tbl → s1.yarrowWaits r.ctx t.tset t.table = false →
    s1.provHeld none (s1.embPlaces t tbl 2 c r.ctx 0 t.bags) = false →
    firstUnmapped s1 r.ctx ([dataRange 2 t tbl.width 0 t.bags] ++ (if s1.coreChill c = true ∨ t.coalesce = true then [(true, t.scratch, t.scratchBytes)] else [])) = none →
    s1.idsUnmapped c r.ctx t 2 0 t.bags = none → cs = s1.contributions c r.ctx t tbl 0 t.bags →
    firstUnmapped s1 r.ctx (cs.map (fun k => (true, s1.authority p r.ctx (tbl.rowAddr k.row), rowLen tbl.width tbl.bits))) = none → s1.farProtected p r.ctx tbl cs = false →
    (s1.coreChill c = true → entryBytes tbl.width * (distinct (cs.map (fun k => k.row))).length ≤ t.scratchBytes) →
    s2 = (s1.streamingOn (.engine c 8)).runUpdate (.engine c 8) (((s1.coreWork c).map (·.1)).getD 0) c r.logical q.index r.ctx d tbl 0 t.bags t.scratchBytes (s1.coreStep c)
      (((s1.launch? r.launch).map (·.sparse)).getD 0) (s1.coreChill c) cs →
    exec (.update c) s = .next (s.after (if s2.embed.adds.any (fun r => r.owner == some (.engine c 8) && r.core == some c.val) then s2 else s2.streamingOff (.engine c 8)))) ∧
  (∀ (s s1 : State) (c : Fin 40) (r : Run) (q : Queued) (d : List Byte) (t : EmbDesc) (tbl : Table), s.power.stopped = false → s.gatherOp c 3 128 = some (r, q, .ok d) → s1 = s.begin c 8 q → t = embDesc d →
    Unsnooped s1 → s1.embErrors 3 c r.ctx d false = none → s1.table? r.ctx t.tset t.table = some tbl → s1.provHeld none (s1.embPlaces t tbl 3 c r.ctx 0 t.bags) = false →
    s1.outReady r.ctx (t.dataDev, t.data, 8 * t.bags) = true → firstUnmapped s1 r.ctx [(t.dev, t.ids, 8 * t.bags), (t.dataDev, t.data, 8 * t.bags)] = none →
    exec (.hash c) s = .next (s.after (((List.range t.bags).map (fun j => s1.embRead c r.ctx t.dev (t.ids + 8 * j) 8)).zipIdx.foldl (fun st p =>
      let st1 := (st.embWrite 0 0 c r.ctx t.dataDev (t.data + 8 * p.2) (toLe 8 (if leNat p.1.1 = padId then padId else tbl.hash (leNat p.1.1))) p.1.2).1
      if p.1.2 then st1.taintCore c 0xB (coreUnit c) else st1) (s1.embAccess c (s1.idsAt t 3 c r.ctx 0 t.bags)))))

/-- Operations, phases and slots (R91 to R94, R102 to R105): an operation completes and posts; a phase ends once its operations have; a waiting core takes a free move slot; a watchdog sets CORE_STAT.WDOG and counts. -/
def Obligations.CoreEventsComplete : Prop :=
  (∀ (s : State) (c : Fin 40) (e : Fin 9) (r : Run) (q : Queued), s.power.stopped = false → e.val ≠ 0 → s.opDone c e = true → (s.core c).run = some r → (r.engine e).cur = some q →
    exec (.operationComplete c e) s = .next (s.after (
      let s1 := s.modRun c (fun r => r.setEngine e { r.engine e with cur := none })
      let s2 := if 1 ≤ e.val ∧ e.val ≤ 4 then s1.count .arrOps c (e - 1) 0 32 else if e.val = 5 then s1.count .vecOps c 0 0 32 else s1
      (s2.post c q.op.post).settle c))) ∧
  (∀ (s : State) (c : Fin 40) (r : Run), s.power.stopped = false → (s.core c).run = some r → r.wantsSwitch = true → (∀ k ∈ r.engines, k.cur = none ∧ k.go = false) →
    exec (.phaseSwitch c) s = .next (s.after ((s.modCore c (fun k => { k with slot := false })).modRun c (fun r => { r with
      compute := !r.compute,
      engines := r.engines.zipIdx.map (fun p => if p.2 ≠ 0 ∧ computeEngine p.2 ≠ r.compute ∧ p.1.taken then { p.1 with go := true } else p.1) })))) ∧
  (∀ (s : State) (p : Fin 32) (k : Part) (c : Nat) (rest : List Nat), s.power.stopped = false → s.part? p = some k → k.slotWait = c :: rest → s.slotHolders k < s.moveSlots p →
    exec (.moveSlotGrant p) s = .next (s.after ((s.modPart p (fun k => { k with slotWait := rest })).takeSlot c).pumpJobs)) ∧
  (∀ (s : State) (c : Fin 40) (e : Fin 9), s.power.stopped = false → exec (.watchdogExpiry c e) s = .next (s.after (s.expire (.watchdog c e)))) ∧
  (∀ (s : State) (c e : Nat) (r : Run) (k : Engine), (s.core c).run = some r → r.engines[e]? = some k → k.cur.isSome = true → k.streaming = false →
    s.timeout (.watchdog c e) = (s.flag .coreStat c 0 6).bucket 8 (.unit (BitVec.ofNat 32 (coreUnit c)) 0 0) s.now)

/-- Transfers (R186, R200, R205, R206): a transfer lands with its data, or its stream fails; at its park limit, evaluated at the tick's end, a pre-emptible command's streams of the job stop and yield. -/
def Obligations.TransferEventsComplete : Prop :=
  (∀ (s : State) (id : Nat) (res : Landing) (x : Transfer) (t : Stream), s.power.stopped = false → s.moves.transfers.find? (·.id == id) = some x → s.stream? x.stream = some t →
    x.parked = none → x.atsWait = false → x.farPending = 0 →
    exec (.transferLanded id res) s = .next (s.after (s.landAs x t res).pumpJobs)) ∧
  (∀ (s : State) (id : Nat), s.power.stopped = false → exec (.parkLimitExpiry id) s = .next (s.after (s.expire (.park id)))) ∧
  (∀ (s : State) (id j : Nat) (x : Transfer) (t : Stream) (c : Running), s.gather? id = none → s.moves.transfers.find? (·.id == id) = some x → s.stream? x.stream = some t →
    t.owner = .job j → s.cmd? t.uid = some c → x.parked.isSome = true → c.preemptible = true →
    s.timeout (.park id) = (((s.moves.streams.filter (fun k => k.owner == .job j)).map (·.id)).foldl
      (fun st i => (st.modStream i (fun k => { k with stopping := true, halted := true })).stopStream i) s).pumpJobs)

/-- Far replies and timers (R205, R239, R242, R244 to R248): a reply answers the request it names, a timer is evaluated at its tick's end; a PONG ends the PING it answers, and one that answers none is discarded and counted. -/
def Obligations.FarRowsComplete : Prop :=
  (∀ (s : State) (port orig : Fin 8) (fc : Bool) (tag : Fin 1048576) (poison : BitVec 64) (data : List Byte) (f : Far) (t a : Nat), s.power.stopped = false →
    (s.takeReply port 0x81 orig tag).far? orig tag = some f → f.use = .read t a →
    exec (.rdData port fc orig tag poison data) s =
      .next (s.after (((s.takeReply port 0x81 orig tag).answered f fc).transferReply t (some { addr := a, bytes := data, mask := poison.toNat })))) ∧
  (∀ (s : State) (port orig : Fin 8) (fc : Bool) (tag : Fin 1048576) (f : Far) (k : Option Nat) (x a fmt : Nat), s.power.stopped = false →
    (s.takeReply port 0x82 orig tag).far? orig tag = some f → f.use = .add k x a fmt →
    exec (.memAckReply port fc orig tag) s = .next (s.after (((s.takeReply port 0x82 orig tag).answered f fc).farAdded x a fmt f.payload))) ∧
  (∀ (s : State) (port orig : Fin 8) (tag : Fin 1048576) (us : BitVec 16) (f : Far) (k : Option Nat) (x a fmt : Nat), s.power.stopped = false →
    (s.takeReply port 0x83 orig tag).far? orig tag = some f → f.use = .add k x a fmt →
    exec (.retryReply port orig tag us) s = .next (s.after ((s.takeReply port 0x83 orig tag).modFar orig tag (fun f =>
      { f with retryAfter := some ((s.takeReply port 0x83 orig tag).now + 25 * min us.toNat ((s.takeReply port 0x83 orig tag).field .memFarCfg 0 0 32 16)) })))) ∧
  (∀ (s : State) (orig : Fin 8) (tag : Fin 1048576) (f : Far) (k : Option Nat) (x a fmt : Nat), s.power.stopped = false → s.far? orig tag = some f → f.use = .add k x a fmt → f.retryAfter.isSome →
    exec (.farRetryReissue orig tag) s = .next (s.after ((s.modFar orig tag (fun f => { f with retryAfter := none })).farOut f))) ∧
  (∀ (s : State) (port orig : Fin 8) (tag : Fin 1048576) (code : BitVec 16) (f : Far), s.power.stopped = false → (s.takeReply port 0x84 orig tag).far? orig tag = some f →
    exec (.errorReply port orig tag code) s =
      .next (s.after (((((s.takeReply port 0x84 orig tag).count .memFarStat f.orig 0 16 16).answered f false).farLost f).failFar f (errFarFail port code.toNat)))) ∧
  (∀ (s : State) (orig : Fin 8) (tag : Fin 1048576), s.power.stopped = false → exec (.farTimeout orig tag) s = .next (s.after (s.expire (.far orig tag)))) ∧
  (∀ (s : State) (orig tag : Nat) (f : Far), s.far? orig tag = some f → f.slot = none →
    s.timeout (.far orig tag) = (((s.count .memFarStat f.orig 0 0 16).dropFar f.orig f.tag).farLost f).failFar f (errFarTimeout f.orig f.tag)) ∧
  (∀ (s s1 : State) (port orig : Fin 8) (tag : Fin 1048576) (u : Unresolved) (k : Option Nat) (x a fmt : Nat), s.power.stopped = false → s1 = s.takeReply port 0x89 orig tag →
    s1.memory.unresolved.find? (fun u => u.far.orig == orig.val && u.far.tag == tag.val) = some u → s1.epochOf u.group = u.far.epoch → u.far.use = .add k x a fmt →
    exec (.xoState port orig tag .applied) s = .next (s.after ((((({ s1 with memory := { s1.memory with
        unresolved := s1.memory.unresolved.filter (fun u => !(u.far.orig == orig.val && u.far.tag == tag.val)),
        xoDone := s1.memory.xoDone ++ (u.far.slot.map (fun n => (u.far.orig, n))).toList } } : State).farAdded x a fmt u.far.payload).event .xoResolved 0xFF 0
          (toLe 4 u.seq ++ toLe 4 tag.val ++ toLe 1 1)).releaseSlots orig).pumpJobs))) ∧
  (∀ (s : State) (orig : Fin 8) (slot : Fin 4096), s.power.stopped = false → exec (.xoSlotTimeout orig slot) s = .next (s.after (s.expire (.slot orig slot)))) ∧
  (∀ (s : State) (orig slot : Nat), (∀ f ∈ s.memory.far, f.orig = orig → f.slot ≠ some slot) → (∀ u ∈ s.memory.unresolved, u.far.orig = orig → u.far.slot ≠ some slot) →
    s.timeout (.slot orig slot) = s.unbusy orig [slot]) ∧
  (∀ (s s1 s2 : State) (port : Fin 8) (caps : Caps) (f : Far), s.power.stopped = false → s.memory.far.find? (fun f => f.use == .caps && f.orig == port.val) = some f →
    s1 = (s.takeReply port 0x86 f.orig f.tag).dropFar f.orig f.tag → (s1.port (s1.rolePort (24 + port))).capsWait = true → caps.meets = true → s1.now ≤ f.issuedAt + 25000 →
    s2 = s1.modPort (s1.rolePort (24 + port)) (fun p => { p with capsWait := false }) →
    exec (.capsData port caps) s = .next (s.after ((({ s2 with memory := { s2.memory with capsHeld := s2.memory.capsHeld ++
      [{ id := caps.expander, group := port, ports := [port.val], capGib := caps.capGib.toNat, epoch := caps.epoch.toNat, xoSlots := caps.xoSlots.toNat }] } } : State).trainedOff port).farUp))) ∧
  (∀ (s : State) (m : Fin 8), s.power.stopped = false → exec (.trainingLimitExpiry m) s = .next (s.after (s.expire (.training m)))) ∧
  (∀ (s : State) (m : Nat), m ∈ s.memory.trainWait → (s.port (s.rolePort (24 + m))).capsWait = false → s.timeout (.training m) = (s.trainedOff m).farUp) ∧
  (∀ (s : State) (port orig : Fin 8) (tag : Fin 1048576) (f : Far), s.power.stopped = false → (s.takeReply port 0x88 orig tag).far? orig tag = some f → f.op = 8 →
    exec (.pong port orig tag) s = .next (s.after ((s.takeReply port 0x88 orig tag).dropFar orig tag))) ∧
  (∀ (s : State) (port orig : Fin 8) (tag : Fin 1048576), s.power.stopped = false → (s.takeReply port 0x88 orig tag).far? orig tag = none →
    exec (.pong port orig tag) s = .next (s.after ((s.takeReply port 0x88 orig tag).count .cmdLateDiscardCnt 0 0 0 32)))


/-- Flits and ports (R401, R407 to R420): a good flit delivers its ACK and credits; a DATA flit in sequence joins its packet; a NAK resends; a failed flit is counted and asks for a resend; trainings, widths and retrains go on as both ends propose. -/
def Obligations.FlitRowsComplete : Prop :=
  (∀ (s s2 : State) (k : Fin 36) (w : Fin 9) (n : Fin 31) (f : List Byte), s.power.stopped = false → flitOk false f = true → flitKind f = 1 → s2 = (s.rxFlit k w (some n)).modPort k (fun p => p.common f) →
    (s2.port k).state = .up → fld f 4 3 = (s2.port k).rxSeq → exec (.dataFlit k w (some n) f) s = .next (s.after (s2.acceptData k f))) ∧
  (∀ (s : State) (k : Fin 36) (w : Fin 9) (fec : Option (Fin 31)) (rx : BitVec 8) (f : List Byte) (c : Instr), s.power.stopped = false → flitOk fec.isNone f = false →
    c = .dataFlit k w fec f ∨ c = .idleFlit k w fec f ∨ c = .nak k w fec f ∨ c = .train k w ⟨fec, rx⟩ f → exec c s = .next (s.after ((s.rxFlit k w fec).flitFail k w))) ∧
  (∀ (s : State) (k : Fin 36) (w : Fin 9) (n : Fin 31) (f : List Byte), s.power.stopped = false → flitOk false f = true → flitKind f = 0 →
    exec (.idleFlit k w (some n) f) s = .next (s.after ((s.rxFlit k w (some n)).modPort k (fun p => p.common f)))) ∧
  (∀ (s s2 : State) (k : Fin 36) (w : Fin 9) (n : Fin 31) (f : List Byte), s.power.stopped = false → flitOk false f = true → flitKind f = 2 → s2 = (s.rxFlit k w (some n)).modPort k (fun p => p.common f) →
    (s2.port k).state = .up → exec (.nak k w (some n) f) s = .next (s.after ((s2.count .glPortCnt k 0 0 32).replayed k (fld f 12 3)))) ∧
  (∀ (s : State) (k w n : Nat), n < 31 → (s.rxFlit k w (some (Fin.ofNat 31 n))).reg .glWl k w =
    ((if 1024 ≤ mgetD (s.port k).symbols w 0 + n then s.count .glWl k w 0 32 else s).reg .glWl k w)) ∧
  (∀ (s : State) (k : Fin 36), s.power.stopped = false → (s.port k).nakOut = true → (s.port k).state = .up →
    exec (.nakResendTimer k) s = .next (s.after (s.modPort k (fun p => { p with naks := p.naks + 1 })))) ∧
  (∀ (s : State) (k : Fin 36) (w : Fin 9), s.power.stopped = false →
    exec (.retrain k none) s = .next (s.after (s.startRetrain k)) ∧ exec (.codewordLockLoss k w) s = .next (s.after (s.startRetrain k))) ∧
  (∀ (s : State) (k : Fin 36) (w : Fin 9), s.power.stopped = false → (s.port k).state = .up → (s.port k).proposal = none → 0 < w.val →
    exec (.width k none false w) s = .next (s.after (s.modPort k (fun p => p.propose w.val)))) ∧
  (∀ (s s1 : State) (k : Fin 36) (f : List Byte) (w : Fin 9), s.power.stopped = false → flitOk false f = true → flitKind f = 4 → s1 = (s.modPort k (fun p => p.common f)).modPort k (fun p => p.heardFrom f) →
    (s1.port k).state = .up → (s1.port k).proposal = none → exec (.width k (some f) false w) s = .next (s.after (s1.setWidth k (s1.ownWidth k)))) ∧
  (∀ (s s1 : State) (k : Fin 36) (f : List Byte), s.power.stopped = false → flitOk false f = true → flitKind f = 3 → s1 = (s.modPort k (fun p => p.common f)).modPort k (fun p => p.heardFrom f) →
    (s1.port k).state = .up → (s1.port k).proposal = none → exec (.retrain k (some f)) s = .next (s.after (s1.startRetrain k))) ∧
  (∀ (s s1 : State) (k : Fin 36) (w : Fin 9) (n : Fin 31) (rx : BitVec 8) (f : List Byte), s.power.stopped = false → flitOk false f = true → flitKind f = 5 →
    s1 = (s.rxFlit k w (some n)).setField .glWl k w 56 8 rx.toNat → (s1.port k).state = .training → ((s1.port k).memory = true ∨ fld f 12 2 = 0x0709 ∧ fld f 14 1 = 0xA1) →
    exec (.train k w ⟨some n, rx⟩ f) s = .next (s.after ((s1.modPort k (fun p => { (p.common f).heardFrom f with heard := true })).modPort k (fun p => { p with rxSeq := fld f 4 3 })))) ∧
  (∀ (s : State) (k : Fin 36) (p : Port), s.power.stopped = false → p = s.port k → s.field .pwrCfg 0 0 32 16 ≠ 0 → p.state = .up → p.memory = false → p.proposal = none →
    s.field .pwrCfg 0 0 48 4 < p.width → p.tx = [] → s.field .pwrLinkKeep 0 0 k 1 = 0 → p.chillTraffic = false →
    exec (.widthIdleExpiry k) s = .next (s.after (s.putPort (p.propose (s.field .pwrCfg 0 0 48 4)))))

/-- Ports and their packets (R397, R398, R414 to R424): a fabric port whose training has ended is UP at the agreed width; a replay window that expires drops the link; an ACK ends its packet, and a late one frees its TAG (R423); REQ_LIFE and the completion cache expire at their tick's end. -/
def Obligations.PortRowsComplete : Prop :=
  (∀ (s : State) (k : Fin 36) (p : Port) (a : Nat × Nat), s.power.stopped = false → p = s.port k → s.pins.glPresent = true → p.heard = true → p.state = .training → p.memory = false → p.replay = [] →
    a = agreed ((p.proposal.map (·.width)).getD (s.ownWidth k)) p (s.wlUsable k) → a.1 ≠ 0 →
    exec (.portTrained k) s = .next (s.after ((((s.putPort (s.upPort k p a)).modPort k Port.pump).relieved k).bootProgress))) ∧
  (∀ (s : State) (k : Fin 36), s.power.stopped = false → exec (.linkDrop k) s = .next (s.after (s.expire (.linkDrop k)))) ∧
  (∀ (s : State) (k : Nat), (s.port k).windowAt.isSome = true → (s.port k).state = .retraining → (s.port k).pairLink = false →
    s.timeout (.linkDrop k) = ((s.portDown k).reissuePort k).bucket 11 (.unit (BitVec.ofNat 32 (portUnit k)) 0 0) ((s.portDown k).reissuePort k).now) ∧
  (∀ (s : State) (k : Fin 36) (tag : Fin 4096), s.power.stopped = false → exec (.reqLifeExpiry k tag) s = .next (s.after (s.expire (.reqLife k tag)))) ∧
  (∀ (s : State) (k tag j : Nat) (o : OutPkt),
    (s.fabric.ports.filter (fun p => p.state != .up)).findSome? (fun p => (p.outstanding.find? (fun o => o.xo && o.orig == k && o.tag == tag)).map (fun o => (p.id, o))) = some (j, o) →
    s.timeout (.reqLife k tag) = ((s.modPort j (fun p => p.dropPacket o.num)).losePacket o).sendWaiting k) ∧
  (∀ (s s1 : State) (k : Fin 36) (pkt : FabPacket) (j : Nat) (o : OutPkt), s.power.stopped = false → s.admitPacket k 7 pkt = (s1, true) →
    s1.fabric.ports.findSome? (fun p => (p.outstanding.find? (fun o => o.xo && o.orig == s1.partnerPort k pkt.orig && o.tag == pkt.tag.val)).map (fun o => (p.id, o))) = some (j, o) →
    exec (.ackPacket k pkt) s = .next (s.after ((s1.modPort j (fun p => p.dropPacket o.num)).sendWaiting (s1.partnerPort k pkt.orig)))) ∧
  (∀ (s s1 : State) (k : Fin 36) (pkt : FabPacket), s.power.stopped = false → s.admitPacket k 7 pkt = (s1, true) →
    (∀ p ∈ s1.fabric.ports, ∀ o ∈ p.outstanding, o.xo = true → o.orig = s1.partnerPort k pkt.orig → o.tag ≠ pkt.tag.val) →
    exec (.ackPacket k pkt) s = .next (s.after (((s1.count .cmdLateDiscardCnt 0 0 0 32).modPort (s1.partnerPort k pkt.orig) (fun p =>
      { p with lostTags := p.lostTags.filter (· != pkt.tag.val) })).sendWaiting (s1.partnerPort k pkt.orig)))) ∧
  (∀ (s : State) (k : Fin 36) (tag : Fin 4096), s.power.stopped = false → exec (.completionCacheExpiry k tag) s = .next (s.after (s.expire (.cached k tag)))) ∧
  (∀ (s : State) (k tag : Nat), s.timeout (.cached k tag) = s.modPort k (fun p => { p with cache := p.cache.filter (fun e => e.tag != tag) }))

/-- Packets of peers (R117, R360, R413, R414, R436 to R438): a forwarded command joins its queue and is acknowledged; a barrier's arrival and a replica's digest are kept; collective data ahead of its link's sequence waits, and data of no collective that runs here is counted and dropped. -/
def Obligations.PeerPacketsComplete : Prop :=
  (∀ (s s1 : State) (k : Fin 36) (pkt : FabPacket) (q : QueueId) (p : Packet), s.power.stopped = false → s.admitPacket k 4 pkt = (s1, true) → s1.peerQueue k pkt = .ok (q, p) → pkt.xo = true →
    exec (.cmdPacket k pkt) s = .next (s.after ((s1.modQueue q (fun e => { e with fetched := e.fetched ++ [p] })).sendAck k pkt 0 true))) ∧
  (∀ (s : State) (k : Fin 36) (pkt : FabPacket), s.power.stopped = false →
    mgetD s.fabric.linkSeqs (pkt.part.val, (s.ringLink k).1, (s.ringLink k).2) 0 < fld pkt.payload 4 4 → fld pkt.payload 1 1 = (s.ringLink k).1 →
    exec (.collPacket k pkt) s = .next (s.after { s with fabric := { s.fabric with stalled := s.fabric.stalled ++ [(k.val, pkt)] } })) ∧
  (∀ (s s1 : State) (k : Fin 36) (pkt : FabPacket) (c : Coll) (ph : Bool), s.power.stopped = false →
    fld pkt.payload 4 4 ≤ mgetD s.fabric.linkSeqs (pkt.part.val, (s.ringLink k).1, (s.ringLink k).2) 0 → s.admitPacket k 2 pkt = (s1, true) →
    1 ≤ (pkt.payload.drop 32).length → (pkt.payload.drop 32).length ≤ 4096 → fld pkt.payload 12 4 = (pkt.payload.drop 32).length → fld pkt.payload 1 1 = (s.ringLink k).1 →
    s1.fabric.colls.find? (fun c => c.part == pkt.part.val && c.axis == (s.ringLink k).1 && c.recv == some ((s.ringLink k).2, fld pkt.payload 4 4)) = some c →
    fld pkt.payload 0 1 = c.cop → fld pkt.payload 2 1 = c.fmt → fld pkt.payload 8 2 = c.n → fld pkt.payload 24 8 = c.elems → c.cop ≠ 4 → c.compress = false → c.toCru = false →
    fld pkt.payload 10 2 < c.n → fld pkt.payload 16 8 + (pkt.payload.drop 32).length ≤ c.chunkBytes → fld pkt.payload 16 8 % max 1 (es2 c.fmt / 2) = 0 →
    (pkt.payload.drop 32).length % max 1 (es2 c.fmt / 2) = 0 → c.phase pkt.reissue (fld pkt.payload 10 2) (fld pkt.payload 16 8) (pkt.payload.drop 32) = some ph →
    exec (.collPacket k pkt) s = .next (s.after (s1.collData c.uid ph (fld pkt.payload 10 2) (fld pkt.payload 16 8) (pkt.payload.drop 32)))) ∧
  (∀ (s s1 : State) (k : Fin 36) (pkt : FabPacket), s.power.stopped = false → s.admitPacket k 3 pkt = (s1, true) → pkt.payload.length = 24 → fld pkt.payload 0 1 = 0 →
    fld pkt.payload 1 1 = (s1.ringLink k).1 → (s1.ringLink k).2 = 1 → fld pkt.payload 2 2 ≤ 1023 → s1.fabric.bars = [] → s1.nextEpoch pkt.part (fld pkt.payload 2 2) ≤ fld pkt.payload 4 4 →
    exec (.barPacket k pkt) s = .next (s.after (s1.putBar
      { part := pkt.part, axis := (s1.ringLink k).1, id := fld pkt.payload 2 2, epoch := fld pkt.payload 4 4, vote := false, step := fld pkt.payload 16 8, seen := some (fld pkt.payload 8 4) }))) ∧
  (∀ (s s1 s2 : State) (k : Fin 36) (pkt : FabPacket) (d : DigestCheck), s.power.stopped = false → s.admitPacket k 6 pkt = (s1, true) → pkt.payload.length = 24 → s1.cru.digests = [] →
    d = { part := pkt.part, tensor := fld pkt.payload 0 4, shard := fld pkt.payload 4 4, step := fld pkt.payload 8 8, received := [((s1.ringLink k).1, BitVec.ofNat 64 (fld pkt.payload 16 8))],
          heard := [((s1.ringLink k).1, pkt.orig.val, pkt.tag.val)] } →
    s2 = { s1 with cru := { s1.cru with digests := [d] } } → s2.field .colRing pkt.part ((s1.ringLink k).1 - 1) 0 16 ≤ 2 → exec (.digestPacket k pkt) s = .next (s.after (s2.judgeCheck d)))

/-- Matchplate packets (R386, R387, R391, R394). -/
def Obligations.MatchRowsComplete : Prop :=
  (∀ (s s1 : State) (k : Fin 36) (pkt : FabPacket), s.power.stopped = false → s.matchAdmit k pkt 0 = (some s1, s1) → s1.pair.active = false →
    exec (.matchPairReceive k pkt) s = .next (s.after ({ s1 with pair := { s1.pair with peer := some (k.val, pkt.payload.drop 8) } } : State).pairUp)) ∧
  (∀ (s s1 : State) (k : Fin 36) (pkt : FabPacket) (q : Fin 4096), s.power.stopped = false → s.matchAdmit k pkt 1 = (some s1, s1) → fld pkt.payload 8 2 = q.val → s1.pair.lead = false →
    s1.pair.lastIndex < fld pkt.payload 4 4 →
    exec (.matchForward k pkt) s = .next (s.after { s1 with pair := { s1.pair with
      lastIndex := fld pkt.payload 4 4, forwarded := s1.pair.forwarded ++ [(fld pkt.payload 4 4, .ctx q, { bytes := pkt.payload.drop 16 })] } })) ∧
  (∀ (s s1 : State) (k : Fin 36) (pkt : FabPacket) (e : Compare) (n : Nat), s.power.stopped = false → s.matchAdmit k pkt 2 = (some s1, s1) → s1.compare? (fld pkt.payload 4 4) = some e → e.theirs = none →
    pkt.payload.length = 8 + 12 * n + 4 → n ≠ tensorsPerPacket →
    exec (.matchDigests k pkt) s = .next (s.after (({ s1 with pair := { s1.pair with compares := put s1.pair.compares (fun c => c.index == fld pkt.payload 4 4) { e with
      peerPart := e.peerPart ++ (List.range n).map (fun j => (fld (pkt.payload.drop 8) (12 * j) 4, BitVec.ofNat 64 (fld (pkt.payload.drop 8) (12 * j + 4) 8))),
      theirs := some { tensors := e.peerPart ++ (List.range n).map (fun j => (fld (pkt.payload.drop 8) (12 * j) 4, BitVec.ofNat 64 (fld (pkt.payload.drop 8) (12 * j + 4) 8))),
                       status := fld (pkt.payload.drop 8) (12 * n) 2, detail := fld (pkt.payload.drop 8) (12 * n + 2) 2 } } } } : State).judge (fld pkt.payload 4 4)))) ∧
  (∀ (s s1 : State) (k : Fin 36) (pkt : FabPacket) (e : Compare), s.power.stopped = false → s.matchAdmit k pkt 3 = (some s1, s1) → s1.compare? (fld pkt.payload 4 4) = some e → e.peerEnd = false →
    exec (.matchTiles k pkt) s = .next (s.after (({ s1 with pair := { s1.pair with compares := put s1.pair.compares (fun c => c.index == fld pkt.payload 4 4) { e with
      peerTiles := e.peerTiles ++ (List.range ((pkt.payload.drop 8).length / 8)).map (fun j => BitVec.ofNat 64 (fld (pkt.payload.drop 8) (8 * j) 8)),
      peerEnd := decide ((pkt.payload.drop 8).length / 8 < tilesPerPacket) } } } : State).locate (fld pkt.payload 4 4)))) ∧
  (∀ (s s1 : State) (k : Fin 36) (pkt : FabPacket), s.power.stopped = false → s.matchAdmit k pkt 4 = (some s1, s1) →
    exec (.matchUnpairReceive k pkt) s = .next (s.after ({ s1 with pair := { s1.pair with peerUnpair := true } } : State).pairDown))

/-- Host links (R448, R450, R456 to R458, R467, R470): links come up and go down, recover and are reset; translations, page responses and invalidations reach what waits for them. -/
def Obligations.HostLinkRowsComplete : Prop :=
  (∀ (s : State) (l : Fin 2) (rate : Fin 7) (width : Fin 17) (f : Bool), s.power.stopped = false → (s.link l).released = true → (s.link l).perst = false → ((s.link l).state = .down ∨ (s.link l).state = .training) →
    linkMode rate width f = true → exec (.hostLinkUp l rate width f) s = .next (s.after ((s.setHlClock l true).linkUp l rate width f).bootProgress)) ∧
  (∀ (s : State) (l : Fin 2), s.power.stopped = false → (s.link l).state = .up → exec (.hostLinkDown l) s = .next (s.after ((s.count .hstLinkCnt l 0 0 16).linkDown l)) ∧
    exec (.hostLinkRecovery l) s = .next (s.after (s.count .hstLinkCnt l 0 16 16))) ∧
  (∀ (s : State) (l : Fin 2), s.power.stopped = false → exec (.hostHoldExpiry l) s = .next (s.after (s.expire (.hostHold l)))) ∧
  (∀ (s : State) (l : Fin 2), (s.link l).state = .down → s.host.hlc = [] →
    s.timeout (.hostHold l) = ((s.modLink l (fun k => { k with held := [] })).count .hstLinkCnt l 0 32 16 (s.link l).held.length).count .hstLinkCnt l 0 48 16 0) ∧
  (∀ (s : State) (l : Fin 2), s.power.stopped = false →
    exec (.perstAssert l) s = .next (s.after (((s.linkDown l).modLink l (fun k => { released := k.released, perst := true, held := k.held, msixSent := k.msixSent })).resetRegs
      (fun r i => (r == .hstLinkStat || r == .hstAtsStat || r == .hstWinStat) && i == l.val)).resumeAll)) ∧
  (∀ (s : State) (l : Fin 2), s.power.stopped = false →
    exec (.perstRelease l) s = .next (s.after (s.modLink l (fun k => { k with perst := false, state := if k.released ∧ k.state = .down then .training else k.state })))) ∧
  (∀ (s : State) (l : Fin 2) (n : Fin 33), s.power.stopped = false → exec (.hostConfigurationRequest l (.numVFs n)) s = .next (s.after (s.modLink l (fun k => { k with numVFs := n })))) ∧
  (∀ (s : State) (l : Fin 2) (on : Bool) (alloc : Nat), s.power.stopped = false → exec (.hostConfigurationRequest l (.priEnable on alloc)) s =
    .next (s.after (s.modLink l (fun k => { k with priEn := on, priAlloc := alloc, priStopped := if on then false else k.priStopped })))) ∧
  (∀ (s : State) (l : Fin 2) (pasid : Option (BitVec 20)) (page : Nat), s.power.stopped = false → (pasid, page) ∈ (s.link l).atsReqs → s.moves.transfers = [] →
    exec (.atsTranslationCompletion l pasid page true) s = .next (s.after (((s.modLink l (fun k => { k with atsReqs := k.atsReqs.filter (fun e => e != (pasid, page)) })).fillAtc l (pasid, page)).pagesBack []
      (fun a q g => a == l.val && q == pasid && g == page)))) ∧
  (∀ (s : State) (l : Fin 2) (pasid : Option (BitVec 20)) (page : Nat), s.power.stopped = false → (pasid, page) ∈ (s.link l).pageReqs.take (s.link l).priRoom → s.moves.transfers = [] →
    exec (.pageResponse l pasid page .success) s = .next (s.after ((s.answerPage l pasid page).pagesBack [] (fun a q g => a == l.val && q == pasid && g == page)))) ∧
  (∀ (s : State) (l : Fin 2) (pasid : Option (BitVec 20)) (page : Nat), s.power.stopped = false → s.moves.transfers = [] →
    exec (.atsInvalidation l pasid page) s = .next (s.after (s.modLink l (fun k => { k with atc := k.atc.filter (fun e => e != (pasid, page)), invPending := k.invPending ++ [(pasid, page, [])] })).settleInv))

/-- The host window and host lines (R10, R453, R454, R459 to R461). -/
def Obligations.HostMemoryRowsComplete : Prop :=
  (∀ (s : State) (l : Fin 2) (o : Obj), s.power.stopped = false → s.field .hstWinCfg 0 0 0 1 = 1 → s.window = some o → o.policy = 2 → o.prot = false → o.size % 2 ^ 28 = 0 → o.size ≤ 2 ^ 39 →
    exec (.hdmDecoderCommit l) s = .next (s.after { s.modLink l (fun k => { k with committed := true, commitErrBit := false }) with boot := { s.boot with winLocked := true } })) ∧
  (∀ (s : State) (l : Fin 2) (o : Obj) (off len : Nat) (data : List Byte), s.power.stopped = false → (s.link l).committed = true → (s.link l).cxlMem = true → s.window = some o → off + data.length ≤ o.size →
    exec (.hostWindowAccess l true off len data) s =
      .next (s.after ((((lineRange off data.length).foldl (fun st i => st.track l i) s).vaTouch o.ctx (o.base + off) data.length).vaWrite o.ctx (o.base + off) data))) ∧
  (∀ (s s1 : State) (l : Fin 2) (o : Obj) (off len : Nat) (bs : List Byte) (bad : Bool), s.power.stopped = false → (s.link l).committed = true → (s.link l).cxlMem = true → s.window = some o → off + len ≤ o.size →
    s1 = ((lineRange off len).foldl (fun st i => st.track l i) s).vaTouch o.ctx (o.base + off) len → s1.vaRead o.ctx (o.base + off) len = some (bs, bad) →
    exec (.hostWindowAccess l false off len []) s = .next (s.after (s1.toHost bs bad))) ∧
  (∀ (s : State) (l : Fin 2) (line : Nat), s.power.stopped = false → (s.link l).biPending.find? (fun e => e.1 == line) = some (line, true) →
    exec (.birsp l line none) s = .next (s.after (s.modLink l (fun k => { k with
      biPending := k.biPending.filter (fun e => e.1 != line), snoop := k.snoop.filter (fun e => e.1 != line) })).resumeAll)) ∧
  (∀ (s : State) (d : Fin 2) (pasid : Option (BitVec 20)) (line : Nat) (h : HlcLine), s.power.stopped = false →
    s.host.hlc.find? (fun h => h.die == d.val && h.pasid == pasid && h.line == line && h.modified) = some h →
    exec (.hostSnoop d pasid line .cur none) s = .next (s.after (s.toHost h.data false)) ∧
    exec (.hostSnoop d pasid line .data none) s = .next (s.after ((s.toHost h.data false).writeBack (fun h => h.die == d.val && h.pasid == pasid && h.line == line && h.modified))))


/-- Riser (R24, R38, R151, R471, R475 to R477): an event goes into its class's bucket at its time; a mapping that does not change applies; an acknowledged view that settles answers its unit; a lagging view is written again; every view is compared; a failing spare retires; a scrub pass that ends is counted; a request of the management endpoint waits for its tick's end, when trips retire their units and requests are answered. -/
def Obligations.RiserRowsComplete : Prop :=
  (∀ (s : State) (cls : Fin 16) (what : FaultSite) (n : Nat),
    exec (.bucketEvent cls what n) s = .next (s.after ((s.strike cls what).bucket cls what ((s.strike cls what).bucketTime cls n)))) ∧
  (∀ (s : State) (c : Fin 40) (a : Fin 4) (k : Sys2Proof.Machine.Array), s.power.stopped = false → (s.core c).run = none → (s.core c).arrays[a.val]? = some k → k.retRow = k.nextRow → k.retCol ≠ k.nextCol →
    (s.unit (arrUnit 3 c a 64)).state = .spare →
    exec (.arrayRemapApply c a) s = .next (s.after ((s.bind (arrUnit 3 c a k.nextCol) (arrUnit 3 c a 64)).modCore c (fun q =>
      { q with arrays := setAt q.arrays a { k with retRow := k.nextRow, retCol := k.nextCol } })))) ∧
  (∀ (s s2 : State) (u : BitVec 32) (st : UnitState) (g : BitVec 32),
    s2 = { s.modUnit u.toNat (fun r => { r with lstate := st, lgen := g.toNat }) with riser := { (s.modUnit u.toNat (fun r => { r with lstate := st, lgen := g.toNat })).riser with
      viewWrites := (s.modUnit u.toNat (fun r => { r with lstate := st, lgen := g.toNat })).riser.viewWrites.filter (fun w => !(w.1 == u.toNat && laterGen w.2 g.toNat == g.toNat)) } } →
    (s.unit u.toNat).settled = false → (s2.unit u.toNat).settled = true →
    exec (.localViewAck u st g) s = .next (s.after
      (if (s2.unit u.toNat).state = .retiring ∧ (s2.unit u.toNat).drained = true then ((s2.count .fltRiserStat 0 0 0 32).transit u.toNat .retired 0).event .unitRepair 0xFF u.toNat
       else (s2.count .fltRiserStat 0 0 0 32).answerUnit u.toNat))) ∧
  (∀ (s : State) (u : BitVec 32), nextGen (s.unit u.toNat).lgen = (s.unit u.toNat).gen →
    exec (.riserRewriteTimer u) s = .next (s.after { s with riser := { s.riser with viewWrites := s.riser.viewWrites ++ [(u.toNat, (s.unit u.toNat).gen)] } })) ∧
  (∀ (s : State) (ok : Bool), (∀ r ∈ s.riser.units, r.state ≠ .quarantined) →
    exec (.riserCompareTimer ok) s = .next (s.after ((insSort id (s.riser.units.map (·.id))).foldl State.compareView s))) ∧
  (∀ (s : State) (u : BitVec 32), (s.unit u.toNat).state = .spare → exec (.spareSelfTest [u]) s = .next (s.after (s.spareFails u.toNat))) ∧
  (∀ (s : State) (ctl : Fin 16) (row : BitVec 64), s.power.stopped = false → s.field .fltScrubCfg 0 0 32 1 = 1 →
    exec (.patrolScrub ctl (.corrected row)) s = .next (s.after (((s.rowAccess row).count .fltScrubStat 0 0 0 32).bucket (if ctl.val < 8 then 0 else 1) (.row row) s.now))) ∧
  (∀ (s : State) (a : RiserAction) (u g : BitVec 32) (row : BitVec 64), exec (.mgmtRiserRequest a u g row) s = .next (s.after (s.ask u.toNat (.mgmt a g.toNat row)))) ∧
  (∀ (s s1 : State) (a : RiserAction) (u g k : Nat) (row : BitVec 64) (r : Reply),
    s.serveAsk { unit := u, kind := .trip k } = s.retireUnit k u false ∧
    (s.riserAct a u g row = (s1, some r) →
      s.serveAsk { unit := u, kind := .mgmt a g row } = { s1 with riser := { s1.riser with mgmtReplies := s1.riser.mgmtReplies ++ [(u, r)] } }))

/-- Power (R403, R536, R537, R539, R542, R543): a laser sample at or above both limits is kept and ends its count of low ones; a logic reading releases and limits; a held trigger steps its cluster down; an overcurrent input raises the device's limit and its release ends it at its tick's end; the power loop steps down no further than the floors; idle cores are gated; a PLL that locks starts its cluster. -/
def Obligations.PowerRowsComplete : Prop :=
  (∀ (s s1 : State) (i : Fin 14) (p : BitVec 16), s.power.stopped = false → s1 = s.setField .glLaser i 0 0 16 p.toNat →
    sgn 16 (s.field .glLaserCfg 0 0 0 16) ≤ sgn 16 p.toNat → sgn 16 (s.field .glLaserCfg 0 0 16 16) ≤ sgn 16 p.toNat →
    exec (.laserPowerSample i p) s = .next (s.after { s1 with fabric := { s1.fabric with laserLow := mdel s1.fabric.laserLow i.val } })) ∧
  (∀ (s s1 : State) (k : Fin 8) (ts : List Int) (t : Int), ts ≠ [] → (∀ v ∈ ts, v < 1150) →
    s.vote k ((ts.zipIdx.map (fun p => (p.2, p.1))).filter (fun r => (s.unit (sensorUnit k r.1)).state == .active)) = (s1, some t) →
    exec (.sensorReading .logic k ts) s = .next (s.after ((s1.releaseTemp k).logicLimit k t))) ∧
  (∀ (s : State) (cl : Fin 8), s.power.stopped = false → (s.clock cl).logicHot = true → 1050 ≤ (s.clock cl).logicT → exec (.limitStepDown cl) s = .next (s.after (s.stepDown cl))) ∧
  (∀ (s : State) (b : Bool), (b = true ∨ s.boot.inReset = false) → s.power.overLimit = false → exec (.overcurrentAlert b) s =
    .next (s.after ((({ s with
      pins := if b then { s.pins with vrAlert := true } else { s.pins with pwrLimit := true },
      power := { s.power with overLimit := true, overAt := some s.now } } : State).enterLimit 3 0).reclockAll))) ∧
  (∀ (s : State), exec .overcurrentRelease s = .next (s.after (({ s with pins := { s.pins with vrAlert := false, pwrLimit := false } } : State).expire .calm))) ∧
  (∀ (s : State), s.power.overLimit = true → s.power.overAt ≠ some s.now → s.timeout .calm = ({ s with power := { s.power with overLimit := false } } : State).reclockAll) ∧
  (∀ (s s1 : State) (w : Nat), s.power.stopped = false → w ≤ s.field .pwrCfg 0 0 0 11 → s.field .pwrCfg 0 0 0 11 * 98 ≤ w * 100 → s1 = { s with power := { s.power with watts := w } } →
    exec (.powerLoopTick w) s = .next (s.after { ((List.range 8).foldl (fun st k => st.modClock k (fun c => { c with target := (s.clock k).target })) s1).reclockAll with
      power := { ((List.range 8).foldl (fun st k => st.modClock k (fun c => { c with target := (s.clock k).target })) s1).reclockAll.power with capUnmet := false } })) ∧
  (∀ (s : State) (p : Fin 32) (k : Part), s.power.stopped = false → s.part? p = some k → s.field .pwrCfg 0 0 16 16 ≠ 0 → s.partBusy p = false →
    exec (.coreGateIdle p) s = .next (s.after ((s.partCores k).foldl (fun st c => st.modCore c (fun e => { e with gated := true })) s).stopPlls)) ∧
  (∀ (s : State) (cl : Fin 8), s.power.stopped = false → (s.clock cl).starting = true →
    exec (.pllLock cl true) s = .next (s.after (s.setClock cl { s.clock cl with starting := false, cur := s.clockOf cl })))

/-- Intervals and windows of the memories (R229 to R233, R376): at the end of an interval Runner settles its migrations and halves every count; a refresh window counts 210 cc for each context with a Chill command running. -/
def Obligations.MemoryTimersComplete : Prop :=
  (∀ (s s1 : State), s.power.stopped = false → s1 = ({ s with memory := { s.memory with intervals := s.memory.intervals + 1 } } : State).settleMigrations → s1.field .memRunnerCfg 0 0 52 1 = 1 →
    exec .runnerInterval s = .next (s.after { s1 with memory := { s1.memory with objs := s1.memory.objs.map (fun o => { o with pages := o.pages.map (fun p => { p with count := p.count / 2 }) }) } })) ∧
  (∀ (s : State), s.power.stopped = false → exec .refreshWindow s = .next (s.after { s with tenants := { s.tenants with
    ctxs := s.tenants.ctxs.map (fun (x : Ctx) => if s.chillRuns x.id then { x with refresh := satN 64 (x.refresh + 210), inWindow := 210 } else x) } }))

/-- Register accesses (R6 to R9, R366, R438, R451, R523, R539, R568): a write takes effect in the fields it reaches: a ring's base and size while its ENABLE is 0, a queue that ENABLE starts, Campion's head, a ring's length and position, a pin's function, a cluster's floor and ceiling, every plain RW and W1C field of another register; a read gives the register's value and clears its RC fields to what the same cycle's event left. -/
def Obligations.RegisterRowsComplete : Prop :=
  (∀ (s : State) (fn : Fin 33) (link : Fin 2) (v : BitVec 64), s.power.stopped = false → s.fnOn fn = true →
    (s.field .cmdAdmqCfg 0 0 5 1 fn = 0 → ∃ t, exec (.adminQueueCfgWrite fn link .admqBase .full v) s = .next t ∧ t.field .cmdAdmqBase 0 0 12 52 fn = v.toNat / 2 ^ 12) ∧
    (s.field .cmdAdmqCfg 0 0 5 1 fn = 0 → 6 ≤ bits v.toNat 4 0 → bits v.toNat 4 0 ≤ 16 → bit v.toNat 5 = true →
      ∃ t e, exec (.adminQueueCfgWrite fn link .admqCfg .full v) s = .next t ∧ t.field .cmdAdmqCfg 0 0 5 1 fn = 1 ∧ t.queue? (.admin fn) = some e ∧ e.state = .running ∧ e.head = 0 ∧ e.tail = 0 ∧
        e.sizeLog2 = bits v.toNat 4 0 ∧ e.base = s.reg .cmdAdmqBase 0 0 fn / 4096 * 4096 ∧ e.link = link.val ∧ e.stopOnError = bit v.toNat 6 ∧ e.vector = bits v.toNat 26 16) ∧
    (s.field .prtEvtCfg 0 0 5 1 fn = 0 → ∃ t, exec (.adminQueueCfgWrite fn link .evtBase .full v) s = .next t ∧ t.field .prtEvtBase 0 0 12 52 fn = v.toNat / 2 ^ 12) ∧
    (∃ t, exec (.adminQueueCfgWrite fn link .evtCfg .full v) s = .next t ∧ t.field .prtEvtCfg 0 0 5 3 fn = bits v.toNat 7 5)) ∧
  (∀ (s : State) (fn : Fin 33) (j : Fin 16) (v : BitVec 64), s.power.stopped = false → (fn.val = 0 ∨ ∃ k x, s.campion? j = some k ∧ s.ctx? k.ctx = some x ∧ x.part + 1 = fn.val) →
    exec (.campionHeadWrite fn j v) s = .next (s.after (s.setReg .cruCampionHead j 0 v.toNat).cruPumpAll) ∧ (s.setReg .cruCampionHead j 0 v.toNat).reg .cruCampionHead j 0 = v.toNat) ∧
  (∀ (s : State) (p : Fin 32) (x : Fin 3) (v : BitVec 64), s.power.stopped = false → (bits v.toNat 15 0 = 0 ∨ bits v.toNat 31 16 < bits v.toNat 15 0) →
    ∃ t, exec (.colRingWrite 0 p x v) s = .next t ∧ t.field .colRing p x 0 16 = bits v.toNat 15 0 ∧ t.field .colRing p x 16 16 = bits v.toNat 31 16 ∧
      ∀ e ∈ t.fabric.linkSeqs, e.1.1 = p.val → e.1.2.1 ≠ x.val + 1) ∧
  (∀ (s : State) (n : Fin 16) (v : BitVec 64), s.power.stopped = false →
    ∃ t, exec (.gpioCfgWrite 0 n v) s = .next t ∧ t.field .pwrGpioCfg n 0 0 3 = (if funcOn n (bits v.toNat 2 0) = true then bits v.toNat 2 0 else s.field .pwrGpioCfg n 0 0 3) ∧
      t.field .pwrGpioCfg n 0 3 5 = bits v.toNat 7 3 ∧ t.field .pwrGpioCfg n 0 16 16 = bits v.toNat 31 16 ∧
      (n.val < s.pins.gpio.length → t.field .pwrGpioCfg n 0 0 3 ≠ s.field .pwrGpioCfg n 0 0 3 → (t.pin n).parking = true)) ∧
  (∀ (s : State) (k : Fin 8) (v : BitVec 64), s.power.stopped = false → bits v.toNat 10 0 % 25 = 0 → bits v.toNat 26 16 % 25 = 0 → 400 ≤ bits v.toNat 10 0 → bits v.toNat 26 16 ≤ 1800 →
    bits v.toNat 10 0 ≤ bits v.toNat 26 16 → ∃ t, exec (.clkClusterWrite 0 k v) s = .next t ∧ t.field .clkCluster k 0 0 11 = bits v.toNat 10 0 ∧ t.field .clkCluster k 0 16 11 = bits v.toNat 26 16) ∧
  (∀ (s : State) (fn : Fin 33) (off : BitVec 26) (v ev : BitVec 64) (r : Reg) (i j : Nat) (f : RField), s.power.stopped = false → Reg.at off.toNat = some (r, i, j) → s.seesReg fn r i = true →
    r ∉ [.cmdAdmqDb, .cmdQDb, .cmdAdmqStat, .cmdQStat, .cmdAdmqCfg, .detCtx, .glVcCfg, .colRing, .cruCampionHead, .pwrGpioCfg, .clkCluster] → f ∈ r.spec.fields → s.frozen r (r.home fn) f = false →
    ∃ t, exec (.registerWrite fn off .full ⟨v, ev⟩) s = .next t ∧
      ((f.acc = .rw ∨ f.acc = .rwl) → r.reserves f.lo (v.toNat / 2 ^ f.lo % 2 ^ f.width) = false → t.field r i j f.lo f.width (r.home fn) = v.toNat / 2 ^ f.lo % 2 ^ f.width) ∧
      (f.acc = .w1c → t.field r i j f.lo f.width (r.home fn) = (s.field r i j f.lo f.width (r.home fn) &&& (2 ^ f.width - 1 - v.toNat / 2 ^ f.lo % 2 ^ f.width)) |||
        (ev.toNat / 2 ^ f.lo % 2 ^ f.width &&& v.toNat / 2 ^ f.lo % 2 ^ f.width))) ∧
  (∀ (s : State) (fn : Fin 33) (off : BitVec 26) (ev : BitVec 64) (r : Reg) (i j : Nat), s.power.stopped = false → Reg.at off.toNat = some (r, i, j) → s.seesReg fn r i = true →
    ∃ t, exec (.readClear fn off .full ev) s = .next t ∧ t.busRead.toNat = s.view r i j fn % 2 ^ 64 ∧
      (r ∉ [.cmdAdmqStat, .cmdQStat, .cruCtxScale, .memXlatStat] → ∀ f ∈ r.spec.fields, f.acc = .rc → t.field r i j f.lo f.width (r.home fn) = ev.toNat / 2 ^ f.lo % 2 ^ f.width))

/-- Deadlines of Campion and of a roll (R80, R367, R487), evaluated at their tick's end: a ring still full breaks its stream and the waiting apply goes on; a second core that fails to rejoin reverses the roll. -/
def Obligations.DeadlineRowsComplete : Prop :=
  (∀ (s : State) (j : Fin 16), s.power.stopped = false → exec (.campionStallExpiry j) s = .next (s.after (s.expire (.campion j)))) ∧
  (∀ (s : State) (j : Nat) (q : CruJob) (k : Campion) (x : Ctx), q ∈ s.cru.jobs → q.stalled = true → (q.frames.head?.map (·.1)) = some j → s.campion? j = some k → s.ctx? k.ctx = some x →
    s.timeout (.campion j) = (((s.modCampion j (fun k => { k with broken := true })).flag .cruCampionStat j 0 1).event .campionLost x.part 0 (toLe 8 j)).cruPumpAll) ∧
  (∀ (s : State) (h : Fin 18), s.power.stopped = false → exec (.fwRejoinTimeout h) s = .next (s.after (s.expire (.rejoin h)))) ∧
  (∀ (s : State) (h u : Nat) (c : Running), s.fw.rollUid = some u → s.cmd? u = some c → s.fw.stat = 2 → s.fw.rollNext ≤ h → (s.unit (hccUnit h)).state = .active → s.fw.failures ≠ 0 →
    s.timeout (.rejoin h) = ({ s with fw := { s.fw with versions := s.fw.prior, coresNew := 0 } } : State).failCmd c.uid (errFormat 40))

/-- Pins, the matchplate wire and the TAP (R520, R522 to R533). -/
def Obligations.PinRowsComplete : Prop :=
  (∀ (s : State) (n : Fin 16), exec (.gpioParkEnd n) s = .next (s.after (s.setPin n { s.pin n with parking := false }))) ∧
  (∀ (s : State) (k : Fin 8), s.pinFunc (4 + k) = 3 → (s.pin (4 + k)).parking = false →
    exec (.tachometerEdge k) s = .next (s.after (s.setPin (4 + k) { s.pin (4 + k) with edges := (s.pin (4 + k)).edges + 1 }))) ∧
  (∀ (s : State) (k : Fin 8), s.field .pwrGpioCfg (4 + k) 0 16 16 ≤ (s.pin (4 + k)).edges →
    exec (.tachWindowEnd k) s =
      .next (s.after ((s.setField .pwrTach k 0 0 16 (satN 16 (s.pin (4 + k)).edges)).setPin (4 + k) { s.pin (4 + k) with edges := 0, parkSeen := (s.pin (4 + k)).parking }))) ∧
  (∀ (s : State), s.mpOn = true → s.pair.lead = true → exec .mpSyncPulse s = .next (s.after { s with pins := { s.pins with mpLow := true } })) ∧
  (∀ (s : State) (n : Nat), s.mpOn = true →
    exec (.mpSyncFall n) s = .next (s.after (if 4 < n then s.flag .pwrMpsync 0 0 33 else if s.pair.lead = true then s else
      ((s.setField .pwrMpsync 0 0 0 25 ((s.now + 2 ^ 25 - 2) % 2 ^ 25)).setField .pwrMpsync 0 0 32 1 1).count .pwrMpsync 0 0 48 16))) ∧
  (∀ (s : State), exec .mpSyncLockTimeout s = .next (s.after (s.setField .pwrMpsync 0 0 32 1 0)) ∧ exec .mpSyncHoldEnd s = .next (s.after { s with pins := { s.pins with mpHold := false } })) ∧
  (∀ (s : State) (tms tdi : Bool), exec (.tapOperation tms tdi false) s = .next (s.after { s with pins := { s.pins with tap := .reset, tapIr := none, tdo := none } }) ∧
    exec (.tapOperation tms tdi true) s = .next (s.after { s with free := s.free + 1, pins := tapClock s.pins tms tdi (Config.freeNat s.free % 2 == 1) }))

/-- Attestation and updates (R503, R506, R508): a key exchange opens the first free session; in a session a slot no carving names takes its key; a good image that may be taken becomes the whole device's image. -/
def Obligations.SecurityRowsComplete : Prop :=
  (∀ (s : State) (n : Nat), firstFree 4 s.sec.sessions = some n →
    exec (.spdmRequest .keyExchange) s = .next (s.after (({ s with sec := { s.sec with sessions := s.sec.sessions ++ [n] } } : State).answer (.session n)))) ∧
  (∀ (s : State) (i : Fin 256), 1 ≤ i.val → i.val ≤ 5 → exec (.spdmRequest (.getMeasurements i)) s = .next (s.after (s.answer (.measurement (s.measurement i))))) ∧
  (∀ (s : State) (n : Fin 4) (slot : Fin 64) (key : List Byte), n.val ∈ s.sec.sessions → slot.val ≠ 0 → (∀ p ∈ s.tenants.parts, p.carve.coreMask ≠ 0 → p.carve.linkKey ≠ slot.val) →
    exec (.keySlotSet n slot (some key)) s = .next (s.after ((({ s with sec := { s.sec with keys := mset s.sec.keys slot.val key } } : State).measureKeys).answer .done)) ∧
    exec (.keySlotSet n slot none) s = .next (s.after ((({ s with sec := { s.sec with keys := mdel s.sec.keys slot.val } } : State).measureKeys).answer .done))) ∧
  (∀ (s : State) (image : List Byte), s.fw.rollUid = none → s.boot.fail = 0 →
    exec (.pldmFirmwareUpdate image) s = .next (s.after (if Config.imageOk image = true ∧ s.imageTaken image = true then (s.stageImage image).finishRoll.answer .done
      else if Config.imageOk image = true then s.answer .refused else (s.count .prtSecStat 0 0 16 16).answer .refused)))

/-- Resets, supplies and reference clocks (R535, R545 to R550): AO_PWRGOOD starts the slow tick at 0 and samples the straps; start-up runs once nothing holds it; a cold reset keeps the NOR alone; a warm reset holds until RESET_N rises; a lost reference retrains, stops or drops what it clocks. -/
def Obligations.ResetRowsComplete : Prop :=
  (∀ (s : State) (x : Fin 8), s.pins.aoGood = false →
    exec (.aoPwrgoodRise x) s = .next (s.after { s with
      now := 0, pins := { s.pins with aoGood := true, smbAddr := 0x60 + x.val, gpio := List.replicate 16 { parking := true, parkSeen := true } }, boot := { s.boot with step := 1 } })) ∧
  (∀ (s : State), exec .coldReset s = .next (s.after { State.reset with
    free := s.free, riser := { ledger := s.riser.ledger }, fw := { slots := s.fw.slots },
    host := { mem := s.host.mem, links := (s.host.links.1.afterReset, s.host.links.2.afterReset) }, pins := { resetN := s.pins.resetN, aoGood := false } })) ∧
  (∀ (s : State) (r : StartupResults), s.pins.aoGood = true → s.pins.resetN = true → s.pins.thermtrip = false → s.boot.inReset = true → s.boot.fail = 0 →
    exec (.startup r) s = .next (s.after (({ s with pins := { s.pins with mainGood := true } } : State).startUp r))) ∧
  (∀ (s : State), s.pins.aoGood = true → exec .warmReset s = .next (s.after (({ s with pins := { s.pins with resetN := false } } : State).warm true 1))) ∧
  (∀ (s : State), exec .resetNRelease s = .next (s.after { s with pins := { s.pins with resetN := true } })) ∧
  (∀ (s : State), s.pins.aoGood = true → s.boot.inReset = false → exec .mainPwrgoodLoss s = .next (s.after (({ s with pins := { s.pins with mainGood := false } } : State).warm false 2))) ∧
  (∀ (s : State), exec .aoRefclkLoss s = .next (s.after ((({ s.stopClocks with pins := { s.stopClocks.pins with aoInternal := true } } : State).flag .clkInputStat 0 0 0).event .aoLoss))) ∧
  (∀ (s : State), s.power.stopped = false → exec .glRefclkLoss s = .next (s.after ((List.range 36).foldl State.startRetrain { s with pins := { s.pins with glPresent := false } })) ∧
    exec .glRefclkReturn s = .next (s.after ({ s with pins := { s.pins with glPresent := true } } : State).trainAll)) ∧
  (∀ (s : State) (l : Fin 2), s.power.stopped = false → (s.link l).state = .up → exec (.hlRefclkLoss l) s = .next (s.after (((s.setHlClock l false).count .hstLinkCnt l 0 0 16).linkDown l)))
end

