-- ==== Sys2Proof/Laws/State.lean ====
section
/-! SUPPORT. What each update of the state leaves as it was: one lemma per update and field. -/

namespace Sys2Proof.Machine
open Sys2Proof

@[simp] theorem State.setReg_pending (s : State) (r : Reg) (i j v fn : Nat) : (s.setReg r i j v fn).pending = s.pending := by unfold State.setReg; split <;> rfl
@[simp] theorem State.setReg_free (s : State) (r : Reg) (i j v fn : Nat) : (s.setReg r i j v fn).free = s.free := by unfold State.setReg; split <;> rfl
@[simp] theorem State.setReg_now (s : State) (r : Reg) (i j v fn : Nat) : (s.setReg r i j v fn).now = s.now := by unfold State.setReg; split <;> rfl
@[simp] theorem State.setReg_busRead (s : State) (r : Reg) (i j v fn : Nat) : (s.setReg r i j v fn).busRead = s.busRead := by unfold State.setReg; split <;> rfl
@[simp] theorem State.setReg_nextUid (s : State) (r : Reg) (i j v fn : Nat) : (s.setReg r i j v fn).nextUid = s.nextUid := by unfold State.setReg; split <;> rfl
@[simp] theorem State.setReg_queues (s : State) (r : Reg) (i j v fn : Nat) : (s.setReg r i j v fn).queues = s.queues := by unfold State.setReg; split <;> rfl
@[simp] theorem State.setReg_tenants (s : State) (r : Reg) (i j v fn : Nat) : (s.setReg r i j v fn).tenants = s.tenants := by unfold State.setReg; split <;> rfl
@[simp] theorem State.setReg_cores (s : State) (r : Reg) (i j v fn : Nat) : (s.setReg r i j v fn).cores = s.cores := by unfold State.setReg; split <;> rfl
@[simp] theorem State.setReg_moves (s : State) (r : Reg) (i j v fn : Nat) : (s.setReg r i j v fn).moves = s.moves := by unfold State.setReg; split <;> rfl
@[simp] theorem State.setReg_memory (s : State) (r : Reg) (i j v fn : Nat) : (s.setReg r i j v fn).memory = s.memory := by unfold State.setReg; split <;> rfl
@[simp] theorem State.setReg_embed (s : State) (r : Reg) (i j v fn : Nat) : (s.setReg r i j v fn).embed = s.embed := by unfold State.setReg; split <;> rfl
@[simp] theorem State.setReg_cru (s : State) (r : Reg) (i j v fn : Nat) : (s.setReg r i j v fn).cru = s.cru := by unfold State.setReg; split <;> rfl
@[simp] theorem State.setReg_pair (s : State) (r : Reg) (i j v fn : Nat) : (s.setReg r i j v fn).pair = s.pair := by unfold State.setReg; split <;> rfl
@[simp] theorem State.setReg_fabric (s : State) (r : Reg) (i j v fn : Nat) : (s.setReg r i j v fn).fabric = s.fabric := by unfold State.setReg; split <;> rfl
@[simp] theorem State.setReg_host (s : State) (r : Reg) (i j v fn : Nat) : (s.setReg r i j v fn).host = s.host := by unfold State.setReg; split <;> rfl
@[simp] theorem State.setReg_riser (s : State) (r : Reg) (i j v fn : Nat) : (s.setReg r i j v fn).riser = s.riser := by unfold State.setReg; split <;> rfl
@[simp] theorem State.setReg_fw (s : State) (r : Reg) (i j v fn : Nat) : (s.setReg r i j v fn).fw = s.fw := by unfold State.setReg; split <;> rfl
@[simp] theorem State.setReg_sec (s : State) (r : Reg) (i j v fn : Nat) : (s.setReg r i j v fn).sec = s.sec := by unfold State.setReg; split <;> rfl
@[simp] theorem State.setReg_events (s : State) (r : Reg) (i j v fn : Nat) : (s.setReg r i j v fn).events = s.events := by unfold State.setReg; split <;> rfl
@[simp] theorem State.setReg_fresh (s : State) (r : Reg) (i j v fn : Nat) : (s.setReg r i j v fn).fresh = s.fresh := by unfold State.setReg; split <;> rfl
@[simp] theorem State.setReg_due (s : State) (r : Reg) (i j v fn : Nat) : (s.setReg r i j v fn).due = s.due := by unfold State.setReg; split <;> rfl
@[simp] theorem State.setReg_pins (s : State) (r : Reg) (i j v fn : Nat) : (s.setReg r i j v fn).pins = s.pins := by unfold State.setReg; split <;> rfl
@[simp] theorem State.setReg_power (s : State) (r : Reg) (i j v fn : Nat) : (s.setReg r i j v fn).power = s.power := by unfold State.setReg; split <;> rfl
@[simp] theorem State.setReg_boot (s : State) (r : Reg) (i j v fn : Nat) : (s.setReg r i j v fn).boot = s.boot := by unfold State.setReg; split <;> rfl
@[simp] theorem State.setField_pending (s : State) (r : Reg) (i j lo w x fn : Nat) : (s.setField r i j lo w x fn).pending = s.pending := by simp [State.setField]
@[simp] theorem State.setField_free (s : State) (r : Reg) (i j lo w x fn : Nat) : (s.setField r i j lo w x fn).free = s.free := by simp [State.setField]
@[simp] theorem State.setField_now (s : State) (r : Reg) (i j lo w x fn : Nat) : (s.setField r i j lo w x fn).now = s.now := by simp [State.setField]
@[simp] theorem State.setField_busRead (s : State) (r : Reg) (i j lo w x fn : Nat) : (s.setField r i j lo w x fn).busRead = s.busRead := by simp [State.setField]
@[simp] theorem State.setField_nextUid (s : State) (r : Reg) (i j lo w x fn : Nat) : (s.setField r i j lo w x fn).nextUid = s.nextUid := by simp [State.setField]
@[simp] theorem State.setField_queues (s : State) (r : Reg) (i j lo w x fn : Nat) : (s.setField r i j lo w x fn).queues = s.queues := by simp [State.setField]
@[simp] theorem State.setField_tenants (s : State) (r : Reg) (i j lo w x fn : Nat) : (s.setField r i j lo w x fn).tenants = s.tenants := by simp [State.setField]
@[simp] theorem State.setField_cores (s : State) (r : Reg) (i j lo w x fn : Nat) : (s.setField r i j lo w x fn).cores = s.cores := by simp [State.setField]
@[simp] theorem State.setField_moves (s : State) (r : Reg) (i j lo w x fn : Nat) : (s.setField r i j lo w x fn).moves = s.moves := by simp [State.setField]
@[simp] theorem State.setField_memory (s : State) (r : Reg) (i j lo w x fn : Nat) : (s.setField r i j lo w x fn).memory = s.memory := by simp [State.setField]
@[simp] theorem State.setField_embed (s : State) (r : Reg) (i j lo w x fn : Nat) : (s.setField r i j lo w x fn).embed = s.embed := by simp [State.setField]
@[simp] theorem State.setField_cru (s : State) (r : Reg) (i j lo w x fn : Nat) : (s.setField r i j lo w x fn).cru = s.cru := by simp [State.setField]
@[simp] theorem State.setField_pair (s : State) (r : Reg) (i j lo w x fn : Nat) : (s.setField r i j lo w x fn).pair = s.pair := by simp [State.setField]
@[simp] theorem State.setField_fabric (s : State) (r : Reg) (i j lo w x fn : Nat) : (s.setField r i j lo w x fn).fabric = s.fabric := by simp [State.setField]
@[simp] theorem State.setField_host (s : State) (r : Reg) (i j lo w x fn : Nat) : (s.setField r i j lo w x fn).host = s.host := by simp [State.setField]
@[simp] theorem State.setField_riser (s : State) (r : Reg) (i j lo w x fn : Nat) : (s.setField r i j lo w x fn).riser = s.riser := by simp [State.setField]
@[simp] theorem State.setField_fw (s : State) (r : Reg) (i j lo w x fn : Nat) : (s.setField r i j lo w x fn).fw = s.fw := by simp [State.setField]
@[simp] theorem State.setField_sec (s : State) (r : Reg) (i j lo w x fn : Nat) : (s.setField r i j lo w x fn).sec = s.sec := by simp [State.setField]
@[simp] theorem State.setField_events (s : State) (r : Reg) (i j lo w x fn : Nat) : (s.setField r i j lo w x fn).events = s.events := by simp [State.setField]
@[simp] theorem State.setField_fresh (s : State) (r : Reg) (i j lo w x fn : Nat) : (s.setField r i j lo w x fn).fresh = s.fresh := by simp [State.setField]
@[simp] theorem State.setField_due (s : State) (r : Reg) (i j lo w x fn : Nat) : (s.setField r i j lo w x fn).due = s.due := by simp [State.setField]
@[simp] theorem State.setField_pins (s : State) (r : Reg) (i j lo w x fn : Nat) : (s.setField r i j lo w x fn).pins = s.pins := by simp [State.setField]
@[simp] theorem State.setField_power (s : State) (r : Reg) (i j lo w x fn : Nat) : (s.setField r i j lo w x fn).power = s.power := by simp [State.setField]
@[simp] theorem State.setField_boot (s : State) (r : Reg) (i j lo w x fn : Nat) : (s.setField r i j lo w x fn).boot = s.boot := by simp [State.setField]
@[simp] theorem State.count_pending (s : State) (r : Reg) (i j lo w n fn : Nat) : (s.count r i j lo w n fn).pending = s.pending := by unfold State.count; split <;> simp
@[simp] theorem State.count_free (s : State) (r : Reg) (i j lo w n fn : Nat) : (s.count r i j lo w n fn).free = s.free := by unfold State.count; split <;> simp
@[simp] theorem State.count_now (s : State) (r : Reg) (i j lo w n fn : Nat) : (s.count r i j lo w n fn).now = s.now := by unfold State.count; split <;> simp
@[simp] theorem State.count_busRead (s : State) (r : Reg) (i j lo w n fn : Nat) : (s.count r i j lo w n fn).busRead = s.busRead := by unfold State.count; split <;> simp
@[simp] theorem State.count_nextUid (s : State) (r : Reg) (i j lo w n fn : Nat) : (s.count r i j lo w n fn).nextUid = s.nextUid := by unfold State.count; split <;> simp
@[simp] theorem State.count_queues (s : State) (r : Reg) (i j lo w n fn : Nat) : (s.count r i j lo w n fn).queues = s.queues := by unfold State.count; split <;> simp
@[simp] theorem State.count_tenants (s : State) (r : Reg) (i j lo w n fn : Nat) : (s.count r i j lo w n fn).tenants = s.tenants := by unfold State.count; split <;> simp
@[simp] theorem State.count_cores (s : State) (r : Reg) (i j lo w n fn : Nat) : (s.count r i j lo w n fn).cores = s.cores := by unfold State.count; split <;> simp
@[simp] theorem State.count_moves (s : State) (r : Reg) (i j lo w n fn : Nat) : (s.count r i j lo w n fn).moves = s.moves := by unfold State.count; split <;> simp
@[simp] theorem State.count_memory (s : State) (r : Reg) (i j lo w n fn : Nat) : (s.count r i j lo w n fn).memory = s.memory := by unfold State.count; split <;> simp
@[simp] theorem State.count_embed (s : State) (r : Reg) (i j lo w n fn : Nat) : (s.count r i j lo w n fn).embed = s.embed := by unfold State.count; split <;> simp
@[simp] theorem State.count_cru (s : State) (r : Reg) (i j lo w n fn : Nat) : (s.count r i j lo w n fn).cru = s.cru := by unfold State.count; split <;> simp
@[simp] theorem State.count_pair (s : State) (r : Reg) (i j lo w n fn : Nat) : (s.count r i j lo w n fn).pair = s.pair := by unfold State.count; split <;> simp
@[simp] theorem State.count_fabric (s : State) (r : Reg) (i j lo w n fn : Nat) : (s.count r i j lo w n fn).fabric = s.fabric := by unfold State.count; split <;> simp
@[simp] theorem State.count_host (s : State) (r : Reg) (i j lo w n fn : Nat) : (s.count r i j lo w n fn).host = s.host := by unfold State.count; split <;> simp
@[simp] theorem State.count_riser (s : State) (r : Reg) (i j lo w n fn : Nat) : (s.count r i j lo w n fn).riser = s.riser := by unfold State.count; split <;> simp
@[simp] theorem State.count_fw (s : State) (r : Reg) (i j lo w n fn : Nat) : (s.count r i j lo w n fn).fw = s.fw := by unfold State.count; split <;> simp
@[simp] theorem State.count_sec (s : State) (r : Reg) (i j lo w n fn : Nat) : (s.count r i j lo w n fn).sec = s.sec := by unfold State.count; split <;> simp
@[simp] theorem State.count_events (s : State) (r : Reg) (i j lo w n fn : Nat) : (s.count r i j lo w n fn).events = s.events := by unfold State.count; split <;> simp
@[simp] theorem State.count_fresh (s : State) (r : Reg) (i j lo w n fn : Nat) : (s.count r i j lo w n fn).fresh = s.fresh := by unfold State.count; split <;> simp
@[simp] theorem State.count_due (s : State) (r : Reg) (i j lo w n fn : Nat) : (s.count r i j lo w n fn).due = s.due := by unfold State.count; split <;> simp
@[simp] theorem State.count_pins (s : State) (r : Reg) (i j lo w n fn : Nat) : (s.count r i j lo w n fn).pins = s.pins := by unfold State.count; split <;> simp
@[simp] theorem State.count_power (s : State) (r : Reg) (i j lo w n fn : Nat) : (s.count r i j lo w n fn).power = s.power := by unfold State.count; split <;> simp
@[simp] theorem State.count_boot (s : State) (r : Reg) (i j lo w n fn : Nat) : (s.count r i j lo w n fn).boot = s.boot := by unfold State.count; split <;> simp
@[simp] theorem State.countK_pending (s : State) (r : Reg) (i lo w n : Nat) : (s.countK r i lo w n).pending = s.pending := by unfold State.countK; split <;> simp
@[simp] theorem State.countK_free (s : State) (r : Reg) (i lo w n : Nat) : (s.countK r i lo w n).free = s.free := by unfold State.countK; split <;> simp
@[simp] theorem State.countK_now (s : State) (r : Reg) (i lo w n : Nat) : (s.countK r i lo w n).now = s.now := by unfold State.countK; split <;> simp
@[simp] theorem State.countK_busRead (s : State) (r : Reg) (i lo w n : Nat) : (s.countK r i lo w n).busRead = s.busRead := by unfold State.countK; split <;> simp
@[simp] theorem State.countK_nextUid (s : State) (r : Reg) (i lo w n : Nat) : (s.countK r i lo w n).nextUid = s.nextUid := by unfold State.countK; split <;> simp
@[simp] theorem State.countK_queues (s : State) (r : Reg) (i lo w n : Nat) : (s.countK r i lo w n).queues = s.queues := by unfold State.countK; split <;> simp
@[simp] theorem State.countK_tenants (s : State) (r : Reg) (i lo w n : Nat) : (s.countK r i lo w n).tenants = s.tenants := by unfold State.countK; split <;> simp
@[simp] theorem State.countK_cores (s : State) (r : Reg) (i lo w n : Nat) : (s.countK r i lo w n).cores = s.cores := by unfold State.countK; split <;> simp
@[simp] theorem State.countK_moves (s : State) (r : Reg) (i lo w n : Nat) : (s.countK r i lo w n).moves = s.moves := by unfold State.countK; split <;> simp
@[simp] theorem State.countK_embed (s : State) (r : Reg) (i lo w n : Nat) : (s.countK r i lo w n).embed = s.embed := by unfold State.countK; split <;> simp
@[simp] theorem State.countK_cru (s : State) (r : Reg) (i lo w n : Nat) : (s.countK r i lo w n).cru = s.cru := by unfold State.countK; split <;> simp
@[simp] theorem State.countK_pair (s : State) (r : Reg) (i lo w n : Nat) : (s.countK r i lo w n).pair = s.pair := by unfold State.countK; split <;> simp
@[simp] theorem State.countK_fabric (s : State) (r : Reg) (i lo w n : Nat) : (s.countK r i lo w n).fabric = s.fabric := by unfold State.countK; split <;> simp
@[simp] theorem State.countK_host (s : State) (r : Reg) (i lo w n : Nat) : (s.countK r i lo w n).host = s.host := by unfold State.countK; split <;> simp
@[simp] theorem State.countK_riser (s : State) (r : Reg) (i lo w n : Nat) : (s.countK r i lo w n).riser = s.riser := by unfold State.countK; split <;> simp
@[simp] theorem State.countK_fw (s : State) (r : Reg) (i lo w n : Nat) : (s.countK r i lo w n).fw = s.fw := by unfold State.countK; split <;> simp
@[simp] theorem State.countK_sec (s : State) (r : Reg) (i lo w n : Nat) : (s.countK r i lo w n).sec = s.sec := by unfold State.countK; split <;> simp
@[simp] theorem State.countK_events (s : State) (r : Reg) (i lo w n : Nat) : (s.countK r i lo w n).events = s.events := by unfold State.countK; split <;> simp
@[simp] theorem State.countK_fresh (s : State) (r : Reg) (i lo w n : Nat) : (s.countK r i lo w n).fresh = s.fresh := by unfold State.countK; split <;> simp
@[simp] theorem State.countK_due (s : State) (r : Reg) (i lo w n : Nat) : (s.countK r i lo w n).due = s.due := by unfold State.countK; split <;> simp
@[simp] theorem State.countK_pins (s : State) (r : Reg) (i lo w n : Nat) : (s.countK r i lo w n).pins = s.pins := by unfold State.countK; split <;> simp
@[simp] theorem State.countK_power (s : State) (r : Reg) (i lo w n : Nat) : (s.countK r i lo w n).power = s.power := by unfold State.countK; split <;> simp
@[simp] theorem State.countK_boot (s : State) (r : Reg) (i lo w n : Nat) : (s.countK r i lo w n).boot = s.boot := by unfold State.countK; split <;> simp
@[simp] theorem State.peak_pending (s : State) (r : Reg) (i j lo w n : Nat) : (s.peak r i j lo w n).pending = s.pending := by unfold State.peak; split <;> simp
@[simp] theorem State.peak_free (s : State) (r : Reg) (i j lo w n : Nat) : (s.peak r i j lo w n).free = s.free := by unfold State.peak; split <;> simp
@[simp] theorem State.peak_now (s : State) (r : Reg) (i j lo w n : Nat) : (s.peak r i j lo w n).now = s.now := by unfold State.peak; split <;> simp
@[simp] theorem State.peak_busRead (s : State) (r : Reg) (i j lo w n : Nat) : (s.peak r i j lo w n).busRead = s.busRead := by unfold State.peak; split <;> simp
@[simp] theorem State.peak_nextUid (s : State) (r : Reg) (i j lo w n : Nat) : (s.peak r i j lo w n).nextUid = s.nextUid := by unfold State.peak; split <;> simp
@[simp] theorem State.peak_queues (s : State) (r : Reg) (i j lo w n : Nat) : (s.peak r i j lo w n).queues = s.queues := by unfold State.peak; split <;> simp
@[simp] theorem State.peak_tenants (s : State) (r : Reg) (i j lo w n : Nat) : (s.peak r i j lo w n).tenants = s.tenants := by unfold State.peak; split <;> simp
@[simp] theorem State.peak_cores (s : State) (r : Reg) (i j lo w n : Nat) : (s.peak r i j lo w n).cores = s.cores := by unfold State.peak; split <;> simp
@[simp] theorem State.peak_moves (s : State) (r : Reg) (i j lo w n : Nat) : (s.peak r i j lo w n).moves = s.moves := by unfold State.peak; split <;> simp
@[simp] theorem State.peak_memory (s : State) (r : Reg) (i j lo w n : Nat) : (s.peak r i j lo w n).memory = s.memory := by unfold State.peak; split <;> simp
@[simp] theorem State.peak_embed (s : State) (r : Reg) (i j lo w n : Nat) : (s.peak r i j lo w n).embed = s.embed := by unfold State.peak; split <;> simp
@[simp] theorem State.peak_cru (s : State) (r : Reg) (i j lo w n : Nat) : (s.peak r i j lo w n).cru = s.cru := by unfold State.peak; split <;> simp
@[simp] theorem State.peak_pair (s : State) (r : Reg) (i j lo w n : Nat) : (s.peak r i j lo w n).pair = s.pair := by unfold State.peak; split <;> simp
@[simp] theorem State.peak_fabric (s : State) (r : Reg) (i j lo w n : Nat) : (s.peak r i j lo w n).fabric = s.fabric := by unfold State.peak; split <;> simp
@[simp] theorem State.peak_host (s : State) (r : Reg) (i j lo w n : Nat) : (s.peak r i j lo w n).host = s.host := by unfold State.peak; split <;> simp
@[simp] theorem State.peak_riser (s : State) (r : Reg) (i j lo w n : Nat) : (s.peak r i j lo w n).riser = s.riser := by unfold State.peak; split <;> simp
@[simp] theorem State.peak_fw (s : State) (r : Reg) (i j lo w n : Nat) : (s.peak r i j lo w n).fw = s.fw := by unfold State.peak; split <;> simp
@[simp] theorem State.peak_sec (s : State) (r : Reg) (i j lo w n : Nat) : (s.peak r i j lo w n).sec = s.sec := by unfold State.peak; split <;> simp
@[simp] theorem State.peak_events (s : State) (r : Reg) (i j lo w n : Nat) : (s.peak r i j lo w n).events = s.events := by unfold State.peak; split <;> simp
@[simp] theorem State.peak_fresh (s : State) (r : Reg) (i j lo w n : Nat) : (s.peak r i j lo w n).fresh = s.fresh := by unfold State.peak; split <;> simp
@[simp] theorem State.peak_due (s : State) (r : Reg) (i j lo w n : Nat) : (s.peak r i j lo w n).due = s.due := by unfold State.peak; split <;> simp
@[simp] theorem State.peak_pins (s : State) (r : Reg) (i j lo w n : Nat) : (s.peak r i j lo w n).pins = s.pins := by unfold State.peak; split <;> simp
@[simp] theorem State.peak_power (s : State) (r : Reg) (i j lo w n : Nat) : (s.peak r i j lo w n).power = s.power := by unfold State.peak; split <;> simp
@[simp] theorem State.peak_boot (s : State) (r : Reg) (i j lo w n : Nat) : (s.peak r i j lo w n).boot = s.boot := by unfold State.peak; split <;> simp
@[simp] theorem State.flag_pending (s : State) (r : Reg) (i j lo : Nat) (b : Bool) : (s.flag r i j lo b).pending = s.pending := by unfold State.flag; split <;> simp
@[simp] theorem State.flag_free (s : State) (r : Reg) (i j lo : Nat) (b : Bool) : (s.flag r i j lo b).free = s.free := by unfold State.flag; split <;> simp
@[simp] theorem State.flag_now (s : State) (r : Reg) (i j lo : Nat) (b : Bool) : (s.flag r i j lo b).now = s.now := by unfold State.flag; split <;> simp
@[simp] theorem State.flag_busRead (s : State) (r : Reg) (i j lo : Nat) (b : Bool) : (s.flag r i j lo b).busRead = s.busRead := by unfold State.flag; split <;> simp
@[simp] theorem State.flag_nextUid (s : State) (r : Reg) (i j lo : Nat) (b : Bool) : (s.flag r i j lo b).nextUid = s.nextUid := by unfold State.flag; split <;> simp
@[simp] theorem State.flag_queues (s : State) (r : Reg) (i j lo : Nat) (b : Bool) : (s.flag r i j lo b).queues = s.queues := by unfold State.flag; split <;> simp
@[simp] theorem State.flag_tenants (s : State) (r : Reg) (i j lo : Nat) (b : Bool) : (s.flag r i j lo b).tenants = s.tenants := by unfold State.flag; split <;> simp
@[simp] theorem State.flag_cores (s : State) (r : Reg) (i j lo : Nat) (b : Bool) : (s.flag r i j lo b).cores = s.cores := by unfold State.flag; split <;> simp
@[simp] theorem State.flag_moves (s : State) (r : Reg) (i j lo : Nat) (b : Bool) : (s.flag r i j lo b).moves = s.moves := by unfold State.flag; split <;> simp
@[simp] theorem State.flag_memory (s : State) (r : Reg) (i j lo : Nat) (b : Bool) : (s.flag r i j lo b).memory = s.memory := by unfold State.flag; split <;> simp
@[simp] theorem State.flag_embed (s : State) (r : Reg) (i j lo : Nat) (b : Bool) : (s.flag r i j lo b).embed = s.embed := by unfold State.flag; split <;> simp
@[simp] theorem State.flag_cru (s : State) (r : Reg) (i j lo : Nat) (b : Bool) : (s.flag r i j lo b).cru = s.cru := by unfold State.flag; split <;> simp
@[simp] theorem State.flag_pair (s : State) (r : Reg) (i j lo : Nat) (b : Bool) : (s.flag r i j lo b).pair = s.pair := by unfold State.flag; split <;> simp
@[simp] theorem State.flag_fabric (s : State) (r : Reg) (i j lo : Nat) (b : Bool) : (s.flag r i j lo b).fabric = s.fabric := by unfold State.flag; split <;> simp
@[simp] theorem State.flag_host (s : State) (r : Reg) (i j lo : Nat) (b : Bool) : (s.flag r i j lo b).host = s.host := by unfold State.flag; split <;> simp
@[simp] theorem State.flag_riser (s : State) (r : Reg) (i j lo : Nat) (b : Bool) : (s.flag r i j lo b).riser = s.riser := by unfold State.flag; split <;> simp
@[simp] theorem State.flag_fw (s : State) (r : Reg) (i j lo : Nat) (b : Bool) : (s.flag r i j lo b).fw = s.fw := by unfold State.flag; split <;> simp
@[simp] theorem State.flag_sec (s : State) (r : Reg) (i j lo : Nat) (b : Bool) : (s.flag r i j lo b).sec = s.sec := by unfold State.flag; split <;> simp
@[simp] theorem State.flag_events (s : State) (r : Reg) (i j lo : Nat) (b : Bool) : (s.flag r i j lo b).events = s.events := by unfold State.flag; split <;> simp
@[simp] theorem State.flag_fresh (s : State) (r : Reg) (i j lo : Nat) (b : Bool) : (s.flag r i j lo b).fresh = s.fresh := by unfold State.flag; split <;> simp
@[simp] theorem State.flag_due (s : State) (r : Reg) (i j lo : Nat) (b : Bool) : (s.flag r i j lo b).due = s.due := by unfold State.flag; split <;> simp
@[simp] theorem State.flag_pins (s : State) (r : Reg) (i j lo : Nat) (b : Bool) : (s.flag r i j lo b).pins = s.pins := by unfold State.flag; split <;> simp
@[simp] theorem State.flag_power (s : State) (r : Reg) (i j lo : Nat) (b : Bool) : (s.flag r i j lo b).power = s.power := by unfold State.flag; split <;> simp
@[simp] theorem State.flag_boot (s : State) (r : Reg) (i j lo : Nat) (b : Bool) : (s.flag r i j lo b).boot = s.boot := by unfold State.flag; split <;> simp
@[simp] theorem State.clearRegs_pending (s : State) (p : Nat → Bool) : (s.clearRegs p).pending = s.pending := rfl
@[simp] theorem State.clearRegs_free (s : State) (p : Nat → Bool) : (s.clearRegs p).free = s.free := rfl
@[simp] theorem State.clearRegs_now (s : State) (p : Nat → Bool) : (s.clearRegs p).now = s.now := rfl
@[simp] theorem State.clearRegs_busRead (s : State) (p : Nat → Bool) : (s.clearRegs p).busRead = s.busRead := rfl
@[simp] theorem State.clearRegs_nextUid (s : State) (p : Nat → Bool) : (s.clearRegs p).nextUid = s.nextUid := rfl
@[simp] theorem State.clearRegs_queues (s : State) (p : Nat → Bool) : (s.clearRegs p).queues = s.queues := rfl
@[simp] theorem State.clearRegs_tenants (s : State) (p : Nat → Bool) : (s.clearRegs p).tenants = s.tenants := rfl
@[simp] theorem State.clearRegs_cores (s : State) (p : Nat → Bool) : (s.clearRegs p).cores = s.cores := rfl
@[simp] theorem State.clearRegs_moves (s : State) (p : Nat → Bool) : (s.clearRegs p).moves = s.moves := rfl
@[simp] theorem State.clearRegs_memory (s : State) (p : Nat → Bool) : (s.clearRegs p).memory = s.memory := rfl
@[simp] theorem State.clearRegs_embed (s : State) (p : Nat → Bool) : (s.clearRegs p).embed = s.embed := rfl
@[simp] theorem State.clearRegs_cru (s : State) (p : Nat → Bool) : (s.clearRegs p).cru = s.cru := rfl
@[simp] theorem State.clearRegs_pair (s : State) (p : Nat → Bool) : (s.clearRegs p).pair = s.pair := rfl
@[simp] theorem State.clearRegs_fabric (s : State) (p : Nat → Bool) : (s.clearRegs p).fabric = s.fabric := rfl
@[simp] theorem State.clearRegs_host (s : State) (p : Nat → Bool) : (s.clearRegs p).host = s.host := rfl
@[simp] theorem State.clearRegs_riser (s : State) (p : Nat → Bool) : (s.clearRegs p).riser = s.riser := rfl
@[simp] theorem State.clearRegs_fw (s : State) (p : Nat → Bool) : (s.clearRegs p).fw = s.fw := rfl
@[simp] theorem State.clearRegs_sec (s : State) (p : Nat → Bool) : (s.clearRegs p).sec = s.sec := rfl
@[simp] theorem State.clearRegs_events (s : State) (p : Nat → Bool) : (s.clearRegs p).events = s.events := rfl
@[simp] theorem State.clearRegs_fresh (s : State) (p : Nat → Bool) : (s.clearRegs p).fresh = s.fresh := rfl
@[simp] theorem State.clearRegs_due (s : State) (p : Nat → Bool) : (s.clearRegs p).due = s.due := rfl
@[simp] theorem State.clearRegs_pins (s : State) (p : Nat → Bool) : (s.clearRegs p).pins = s.pins := rfl
@[simp] theorem State.clearRegs_power (s : State) (p : Nat → Bool) : (s.clearRegs p).power = s.power := rfl
@[simp] theorem State.clearRegs_boot (s : State) (p : Nat → Bool) : (s.clearRegs p).boot = s.boot := rfl
@[simp] theorem State.modPart_pending (s : State) (p : Nat) (f : Part → Part) : (s.modPart p f).pending = s.pending := rfl
@[simp] theorem State.modPart_free (s : State) (p : Nat) (f : Part → Part) : (s.modPart p f).free = s.free := rfl
@[simp] theorem State.modPart_now (s : State) (p : Nat) (f : Part → Part) : (s.modPart p f).now = s.now := rfl
@[simp] theorem State.modPart_busRead (s : State) (p : Nat) (f : Part → Part) : (s.modPart p f).busRead = s.busRead := rfl
@[simp] theorem State.modPart_nextUid (s : State) (p : Nat) (f : Part → Part) : (s.modPart p f).nextUid = s.nextUid := rfl
@[simp] theorem State.modPart_regs (s : State) (p : Nat) (f : Part → Part) : (s.modPart p f).regs = s.regs := rfl
@[simp] theorem State.modPart_queues (s : State) (p : Nat) (f : Part → Part) : (s.modPart p f).queues = s.queues := rfl
@[simp] theorem State.modPart_cores (s : State) (p : Nat) (f : Part → Part) : (s.modPart p f).cores = s.cores := rfl
@[simp] theorem State.modPart_moves (s : State) (p : Nat) (f : Part → Part) : (s.modPart p f).moves = s.moves := rfl
@[simp] theorem State.modPart_memory (s : State) (p : Nat) (f : Part → Part) : (s.modPart p f).memory = s.memory := rfl
@[simp] theorem State.modPart_embed (s : State) (p : Nat) (f : Part → Part) : (s.modPart p f).embed = s.embed := rfl
@[simp] theorem State.modPart_cru (s : State) (p : Nat) (f : Part → Part) : (s.modPart p f).cru = s.cru := rfl
@[simp] theorem State.modPart_pair (s : State) (p : Nat) (f : Part → Part) : (s.modPart p f).pair = s.pair := rfl
@[simp] theorem State.modPart_fabric (s : State) (p : Nat) (f : Part → Part) : (s.modPart p f).fabric = s.fabric := rfl
@[simp] theorem State.modPart_host (s : State) (p : Nat) (f : Part → Part) : (s.modPart p f).host = s.host := rfl
@[simp] theorem State.modPart_riser (s : State) (p : Nat) (f : Part → Part) : (s.modPart p f).riser = s.riser := rfl
@[simp] theorem State.modPart_fw (s : State) (p : Nat) (f : Part → Part) : (s.modPart p f).fw = s.fw := rfl
@[simp] theorem State.modPart_sec (s : State) (p : Nat) (f : Part → Part) : (s.modPart p f).sec = s.sec := rfl
@[simp] theorem State.modPart_events (s : State) (p : Nat) (f : Part → Part) : (s.modPart p f).events = s.events := rfl
@[simp] theorem State.modPart_fresh (s : State) (p : Nat) (f : Part → Part) : (s.modPart p f).fresh = s.fresh := rfl
@[simp] theorem State.modPart_due (s : State) (p : Nat) (f : Part → Part) : (s.modPart p f).due = s.due := rfl
@[simp] theorem State.modPart_pins (s : State) (p : Nat) (f : Part → Part) : (s.modPart p f).pins = s.pins := rfl
@[simp] theorem State.modPart_power (s : State) (p : Nat) (f : Part → Part) : (s.modPart p f).power = s.power := rfl
@[simp] theorem State.modPart_boot (s : State) (p : Nat) (f : Part → Part) : (s.modPart p f).boot = s.boot := rfl
@[simp] theorem State.modCtx_pending (s : State) (x : Nat) (f : Ctx → Ctx) : (s.modCtx x f).pending = s.pending := rfl
@[simp] theorem State.modCtx_free (s : State) (x : Nat) (f : Ctx → Ctx) : (s.modCtx x f).free = s.free := rfl
@[simp] theorem State.modCtx_now (s : State) (x : Nat) (f : Ctx → Ctx) : (s.modCtx x f).now = s.now := rfl
@[simp] theorem State.modCtx_busRead (s : State) (x : Nat) (f : Ctx → Ctx) : (s.modCtx x f).busRead = s.busRead := rfl
@[simp] theorem State.modCtx_nextUid (s : State) (x : Nat) (f : Ctx → Ctx) : (s.modCtx x f).nextUid = s.nextUid := rfl
@[simp] theorem State.modCtx_regs (s : State) (x : Nat) (f : Ctx → Ctx) : (s.modCtx x f).regs = s.regs := rfl
@[simp] theorem State.modCtx_queues (s : State) (x : Nat) (f : Ctx → Ctx) : (s.modCtx x f).queues = s.queues := rfl
@[simp] theorem State.modCtx_cores (s : State) (x : Nat) (f : Ctx → Ctx) : (s.modCtx x f).cores = s.cores := rfl
@[simp] theorem State.modCtx_moves (s : State) (x : Nat) (f : Ctx → Ctx) : (s.modCtx x f).moves = s.moves := rfl
@[simp] theorem State.modCtx_memory (s : State) (x : Nat) (f : Ctx → Ctx) : (s.modCtx x f).memory = s.memory := rfl
@[simp] theorem State.modCtx_embed (s : State) (x : Nat) (f : Ctx → Ctx) : (s.modCtx x f).embed = s.embed := rfl
@[simp] theorem State.modCtx_cru (s : State) (x : Nat) (f : Ctx → Ctx) : (s.modCtx x f).cru = s.cru := rfl
@[simp] theorem State.modCtx_pair (s : State) (x : Nat) (f : Ctx → Ctx) : (s.modCtx x f).pair = s.pair := rfl
@[simp] theorem State.modCtx_fabric (s : State) (x : Nat) (f : Ctx → Ctx) : (s.modCtx x f).fabric = s.fabric := rfl
@[simp] theorem State.modCtx_host (s : State) (x : Nat) (f : Ctx → Ctx) : (s.modCtx x f).host = s.host := rfl
@[simp] theorem State.modCtx_riser (s : State) (x : Nat) (f : Ctx → Ctx) : (s.modCtx x f).riser = s.riser := rfl
@[simp] theorem State.modCtx_fw (s : State) (x : Nat) (f : Ctx → Ctx) : (s.modCtx x f).fw = s.fw := rfl
@[simp] theorem State.modCtx_sec (s : State) (x : Nat) (f : Ctx → Ctx) : (s.modCtx x f).sec = s.sec := rfl
@[simp] theorem State.modCtx_events (s : State) (x : Nat) (f : Ctx → Ctx) : (s.modCtx x f).events = s.events := rfl
@[simp] theorem State.modCtx_fresh (s : State) (x : Nat) (f : Ctx → Ctx) : (s.modCtx x f).fresh = s.fresh := rfl
@[simp] theorem State.modCtx_due (s : State) (x : Nat) (f : Ctx → Ctx) : (s.modCtx x f).due = s.due := rfl
@[simp] theorem State.modCtx_pins (s : State) (x : Nat) (f : Ctx → Ctx) : (s.modCtx x f).pins = s.pins := rfl
@[simp] theorem State.modCtx_power (s : State) (x : Nat) (f : Ctx → Ctx) : (s.modCtx x f).power = s.power := rfl
@[simp] theorem State.modCtx_boot (s : State) (x : Nat) (f : Ctx → Ctx) : (s.modCtx x f).boot = s.boot := rfl
@[simp] theorem State.modQueue_pending (s : State) (q : QueueId) (f : Queue → Queue) : (s.modQueue q f).pending = s.pending := rfl
@[simp] theorem State.modQueue_free (s : State) (q : QueueId) (f : Queue → Queue) : (s.modQueue q f).free = s.free := rfl
@[simp] theorem State.modQueue_now (s : State) (q : QueueId) (f : Queue → Queue) : (s.modQueue q f).now = s.now := rfl
@[simp] theorem State.modQueue_busRead (s : State) (q : QueueId) (f : Queue → Queue) : (s.modQueue q f).busRead = s.busRead := rfl
@[simp] theorem State.modQueue_nextUid (s : State) (q : QueueId) (f : Queue → Queue) : (s.modQueue q f).nextUid = s.nextUid := rfl
@[simp] theorem State.modQueue_regs (s : State) (q : QueueId) (f : Queue → Queue) : (s.modQueue q f).regs = s.regs := rfl
@[simp] theorem State.modQueue_tenants (s : State) (q : QueueId) (f : Queue → Queue) : (s.modQueue q f).tenants = s.tenants := rfl
@[simp] theorem State.modQueue_cores (s : State) (q : QueueId) (f : Queue → Queue) : (s.modQueue q f).cores = s.cores := rfl
@[simp] theorem State.modQueue_moves (s : State) (q : QueueId) (f : Queue → Queue) : (s.modQueue q f).moves = s.moves := rfl
@[simp] theorem State.modQueue_memory (s : State) (q : QueueId) (f : Queue → Queue) : (s.modQueue q f).memory = s.memory := rfl
@[simp] theorem State.modQueue_embed (s : State) (q : QueueId) (f : Queue → Queue) : (s.modQueue q f).embed = s.embed := rfl
@[simp] theorem State.modQueue_cru (s : State) (q : QueueId) (f : Queue → Queue) : (s.modQueue q f).cru = s.cru := rfl
@[simp] theorem State.modQueue_pair (s : State) (q : QueueId) (f : Queue → Queue) : (s.modQueue q f).pair = s.pair := rfl
@[simp] theorem State.modQueue_fabric (s : State) (q : QueueId) (f : Queue → Queue) : (s.modQueue q f).fabric = s.fabric := rfl
@[simp] theorem State.modQueue_host (s : State) (q : QueueId) (f : Queue → Queue) : (s.modQueue q f).host = s.host := rfl
@[simp] theorem State.modQueue_riser (s : State) (q : QueueId) (f : Queue → Queue) : (s.modQueue q f).riser = s.riser := rfl
@[simp] theorem State.modQueue_fw (s : State) (q : QueueId) (f : Queue → Queue) : (s.modQueue q f).fw = s.fw := rfl
@[simp] theorem State.modQueue_sec (s : State) (q : QueueId) (f : Queue → Queue) : (s.modQueue q f).sec = s.sec := rfl
@[simp] theorem State.modQueue_events (s : State) (q : QueueId) (f : Queue → Queue) : (s.modQueue q f).events = s.events := rfl
@[simp] theorem State.modQueue_fresh (s : State) (q : QueueId) (f : Queue → Queue) : (s.modQueue q f).fresh = s.fresh := rfl
@[simp] theorem State.modQueue_due (s : State) (q : QueueId) (f : Queue → Queue) : (s.modQueue q f).due = s.due := rfl
@[simp] theorem State.modQueue_pins (s : State) (q : QueueId) (f : Queue → Queue) : (s.modQueue q f).pins = s.pins := rfl
@[simp] theorem State.modQueue_power (s : State) (q : QueueId) (f : Queue → Queue) : (s.modQueue q f).power = s.power := rfl
@[simp] theorem State.modQueue_boot (s : State) (q : QueueId) (f : Queue → Queue) : (s.modQueue q f).boot = s.boot := rfl
@[simp] theorem State.putCore_pending (s : State) (c : Core) : (s.putCore c).pending = s.pending := rfl
@[simp] theorem State.putCore_free (s : State) (c : Core) : (s.putCore c).free = s.free := rfl
@[simp] theorem State.putCore_now (s : State) (c : Core) : (s.putCore c).now = s.now := rfl
@[simp] theorem State.putCore_busRead (s : State) (c : Core) : (s.putCore c).busRead = s.busRead := rfl
@[simp] theorem State.putCore_nextUid (s : State) (c : Core) : (s.putCore c).nextUid = s.nextUid := rfl
@[simp] theorem State.putCore_regs (s : State) (c : Core) : (s.putCore c).regs = s.regs := rfl
@[simp] theorem State.putCore_queues (s : State) (c : Core) : (s.putCore c).queues = s.queues := rfl
@[simp] theorem State.putCore_tenants (s : State) (c : Core) : (s.putCore c).tenants = s.tenants := rfl
@[simp] theorem State.putCore_moves (s : State) (c : Core) : (s.putCore c).moves = s.moves := rfl
@[simp] theorem State.putCore_memory (s : State) (c : Core) : (s.putCore c).memory = s.memory := rfl
@[simp] theorem State.putCore_embed (s : State) (c : Core) : (s.putCore c).embed = s.embed := rfl
@[simp] theorem State.putCore_cru (s : State) (c : Core) : (s.putCore c).cru = s.cru := rfl
@[simp] theorem State.putCore_pair (s : State) (c : Core) : (s.putCore c).pair = s.pair := rfl
@[simp] theorem State.putCore_fabric (s : State) (c : Core) : (s.putCore c).fabric = s.fabric := rfl
@[simp] theorem State.putCore_host (s : State) (c : Core) : (s.putCore c).host = s.host := rfl
@[simp] theorem State.putCore_riser (s : State) (c : Core) : (s.putCore c).riser = s.riser := rfl
@[simp] theorem State.putCore_fw (s : State) (c : Core) : (s.putCore c).fw = s.fw := rfl
@[simp] theorem State.putCore_sec (s : State) (c : Core) : (s.putCore c).sec = s.sec := rfl
@[simp] theorem State.putCore_events (s : State) (c : Core) : (s.putCore c).events = s.events := rfl
@[simp] theorem State.putCore_fresh (s : State) (c : Core) : (s.putCore c).fresh = s.fresh := rfl
@[simp] theorem State.putCore_due (s : State) (c : Core) : (s.putCore c).due = s.due := rfl
@[simp] theorem State.putCore_pins (s : State) (c : Core) : (s.putCore c).pins = s.pins := rfl
@[simp] theorem State.putCore_power (s : State) (c : Core) : (s.putCore c).power = s.power := rfl
@[simp] theorem State.putCore_boot (s : State) (c : Core) : (s.putCore c).boot = s.boot := rfl
@[simp] theorem State.modCore_pending (s : State) (c : Nat) (f : Core → Core) : (s.modCore c f).pending = s.pending := rfl
@[simp] theorem State.modCore_free (s : State) (c : Nat) (f : Core → Core) : (s.modCore c f).free = s.free := rfl
@[simp] theorem State.modCore_now (s : State) (c : Nat) (f : Core → Core) : (s.modCore c f).now = s.now := rfl
@[simp] theorem State.modCore_busRead (s : State) (c : Nat) (f : Core → Core) : (s.modCore c f).busRead = s.busRead := rfl
@[simp] theorem State.modCore_nextUid (s : State) (c : Nat) (f : Core → Core) : (s.modCore c f).nextUid = s.nextUid := rfl
@[simp] theorem State.modCore_regs (s : State) (c : Nat) (f : Core → Core) : (s.modCore c f).regs = s.regs := rfl
@[simp] theorem State.modCore_queues (s : State) (c : Nat) (f : Core → Core) : (s.modCore c f).queues = s.queues := rfl
@[simp] theorem State.modCore_tenants (s : State) (c : Nat) (f : Core → Core) : (s.modCore c f).tenants = s.tenants := rfl
@[simp] theorem State.modCore_moves (s : State) (c : Nat) (f : Core → Core) : (s.modCore c f).moves = s.moves := rfl
@[simp] theorem State.modCore_memory (s : State) (c : Nat) (f : Core → Core) : (s.modCore c f).memory = s.memory := rfl
@[simp] theorem State.modCore_embed (s : State) (c : Nat) (f : Core → Core) : (s.modCore c f).embed = s.embed := rfl
@[simp] theorem State.modCore_cru (s : State) (c : Nat) (f : Core → Core) : (s.modCore c f).cru = s.cru := rfl
@[simp] theorem State.modCore_pair (s : State) (c : Nat) (f : Core → Core) : (s.modCore c f).pair = s.pair := rfl
@[simp] theorem State.modCore_fabric (s : State) (c : Nat) (f : Core → Core) : (s.modCore c f).fabric = s.fabric := rfl
@[simp] theorem State.modCore_host (s : State) (c : Nat) (f : Core → Core) : (s.modCore c f).host = s.host := rfl
@[simp] theorem State.modCore_riser (s : State) (c : Nat) (f : Core → Core) : (s.modCore c f).riser = s.riser := rfl
@[simp] theorem State.modCore_fw (s : State) (c : Nat) (f : Core → Core) : (s.modCore c f).fw = s.fw := rfl
@[simp] theorem State.modCore_sec (s : State) (c : Nat) (f : Core → Core) : (s.modCore c f).sec = s.sec := rfl
@[simp] theorem State.modCore_events (s : State) (c : Nat) (f : Core → Core) : (s.modCore c f).events = s.events := rfl
@[simp] theorem State.modCore_fresh (s : State) (c : Nat) (f : Core → Core) : (s.modCore c f).fresh = s.fresh := rfl
@[simp] theorem State.modCore_due (s : State) (c : Nat) (f : Core → Core) : (s.modCore c f).due = s.due := rfl
@[simp] theorem State.modCore_pins (s : State) (c : Nat) (f : Core → Core) : (s.modCore c f).pins = s.pins := rfl
@[simp] theorem State.modCore_power (s : State) (c : Nat) (f : Core → Core) : (s.modCore c f).power = s.power := rfl
@[simp] theorem State.modCore_boot (s : State) (c : Nat) (f : Core → Core) : (s.modCore c f).boot = s.boot := rfl
@[simp] theorem State.modRun_pending (s : State) (c : Nat) (f : Run → Run) : (s.modRun c f).pending = s.pending := rfl
@[simp] theorem State.modRun_free (s : State) (c : Nat) (f : Run → Run) : (s.modRun c f).free = s.free := rfl
@[simp] theorem State.modRun_now (s : State) (c : Nat) (f : Run → Run) : (s.modRun c f).now = s.now := rfl
@[simp] theorem State.modRun_busRead (s : State) (c : Nat) (f : Run → Run) : (s.modRun c f).busRead = s.busRead := rfl
@[simp] theorem State.modRun_nextUid (s : State) (c : Nat) (f : Run → Run) : (s.modRun c f).nextUid = s.nextUid := rfl
@[simp] theorem State.modRun_regs (s : State) (c : Nat) (f : Run → Run) : (s.modRun c f).regs = s.regs := rfl
@[simp] theorem State.modRun_queues (s : State) (c : Nat) (f : Run → Run) : (s.modRun c f).queues = s.queues := rfl
@[simp] theorem State.modRun_tenants (s : State) (c : Nat) (f : Run → Run) : (s.modRun c f).tenants = s.tenants := rfl
@[simp] theorem State.modRun_moves (s : State) (c : Nat) (f : Run → Run) : (s.modRun c f).moves = s.moves := rfl
@[simp] theorem State.modRun_memory (s : State) (c : Nat) (f : Run → Run) : (s.modRun c f).memory = s.memory := rfl
@[simp] theorem State.modRun_embed (s : State) (c : Nat) (f : Run → Run) : (s.modRun c f).embed = s.embed := rfl
@[simp] theorem State.modRun_cru (s : State) (c : Nat) (f : Run → Run) : (s.modRun c f).cru = s.cru := rfl
@[simp] theorem State.modRun_pair (s : State) (c : Nat) (f : Run → Run) : (s.modRun c f).pair = s.pair := rfl
@[simp] theorem State.modRun_fabric (s : State) (c : Nat) (f : Run → Run) : (s.modRun c f).fabric = s.fabric := rfl
@[simp] theorem State.modRun_host (s : State) (c : Nat) (f : Run → Run) : (s.modRun c f).host = s.host := rfl
@[simp] theorem State.modRun_riser (s : State) (c : Nat) (f : Run → Run) : (s.modRun c f).riser = s.riser := rfl
@[simp] theorem State.modRun_fw (s : State) (c : Nat) (f : Run → Run) : (s.modRun c f).fw = s.fw := rfl
@[simp] theorem State.modRun_sec (s : State) (c : Nat) (f : Run → Run) : (s.modRun c f).sec = s.sec := rfl
@[simp] theorem State.modRun_events (s : State) (c : Nat) (f : Run → Run) : (s.modRun c f).events = s.events := rfl
@[simp] theorem State.modRun_fresh (s : State) (c : Nat) (f : Run → Run) : (s.modRun c f).fresh = s.fresh := rfl
@[simp] theorem State.modRun_due (s : State) (c : Nat) (f : Run → Run) : (s.modRun c f).due = s.due := rfl
@[simp] theorem State.modRun_pins (s : State) (c : Nat) (f : Run → Run) : (s.modRun c f).pins = s.pins := rfl
@[simp] theorem State.modRun_power (s : State) (c : Nat) (f : Run → Run) : (s.modRun c f).power = s.power := rfl
@[simp] theorem State.modRun_boot (s : State) (c : Nat) (f : Run → Run) : (s.modRun c f).boot = s.boot := rfl
@[simp] theorem State.modLaunch_pending (s : State) (n : Nat) (f : Launch → Launch) : (s.modLaunch n f).pending = s.pending := rfl
@[simp] theorem State.modLaunch_free (s : State) (n : Nat) (f : Launch → Launch) : (s.modLaunch n f).free = s.free := rfl
@[simp] theorem State.modLaunch_now (s : State) (n : Nat) (f : Launch → Launch) : (s.modLaunch n f).now = s.now := rfl
@[simp] theorem State.modLaunch_busRead (s : State) (n : Nat) (f : Launch → Launch) : (s.modLaunch n f).busRead = s.busRead := rfl
@[simp] theorem State.modLaunch_nextUid (s : State) (n : Nat) (f : Launch → Launch) : (s.modLaunch n f).nextUid = s.nextUid := rfl
@[simp] theorem State.modLaunch_regs (s : State) (n : Nat) (f : Launch → Launch) : (s.modLaunch n f).regs = s.regs := rfl
@[simp] theorem State.modLaunch_queues (s : State) (n : Nat) (f : Launch → Launch) : (s.modLaunch n f).queues = s.queues := rfl
@[simp] theorem State.modLaunch_tenants (s : State) (n : Nat) (f : Launch → Launch) : (s.modLaunch n f).tenants = s.tenants := rfl
@[simp] theorem State.modLaunch_moves (s : State) (n : Nat) (f : Launch → Launch) : (s.modLaunch n f).moves = s.moves := rfl
@[simp] theorem State.modLaunch_memory (s : State) (n : Nat) (f : Launch → Launch) : (s.modLaunch n f).memory = s.memory := rfl
@[simp] theorem State.modLaunch_embed (s : State) (n : Nat) (f : Launch → Launch) : (s.modLaunch n f).embed = s.embed := rfl
@[simp] theorem State.modLaunch_cru (s : State) (n : Nat) (f : Launch → Launch) : (s.modLaunch n f).cru = s.cru := rfl
@[simp] theorem State.modLaunch_pair (s : State) (n : Nat) (f : Launch → Launch) : (s.modLaunch n f).pair = s.pair := rfl
@[simp] theorem State.modLaunch_fabric (s : State) (n : Nat) (f : Launch → Launch) : (s.modLaunch n f).fabric = s.fabric := rfl
@[simp] theorem State.modLaunch_host (s : State) (n : Nat) (f : Launch → Launch) : (s.modLaunch n f).host = s.host := rfl
@[simp] theorem State.modLaunch_riser (s : State) (n : Nat) (f : Launch → Launch) : (s.modLaunch n f).riser = s.riser := rfl
@[simp] theorem State.modLaunch_fw (s : State) (n : Nat) (f : Launch → Launch) : (s.modLaunch n f).fw = s.fw := rfl
@[simp] theorem State.modLaunch_sec (s : State) (n : Nat) (f : Launch → Launch) : (s.modLaunch n f).sec = s.sec := rfl
@[simp] theorem State.modLaunch_events (s : State) (n : Nat) (f : Launch → Launch) : (s.modLaunch n f).events = s.events := rfl
@[simp] theorem State.modLaunch_fresh (s : State) (n : Nat) (f : Launch → Launch) : (s.modLaunch n f).fresh = s.fresh := rfl
@[simp] theorem State.modLaunch_due (s : State) (n : Nat) (f : Launch → Launch) : (s.modLaunch n f).due = s.due := rfl
@[simp] theorem State.modLaunch_pins (s : State) (n : Nat) (f : Launch → Launch) : (s.modLaunch n f).pins = s.pins := rfl
@[simp] theorem State.modLaunch_power (s : State) (n : Nat) (f : Launch → Launch) : (s.modLaunch n f).power = s.power := rfl
@[simp] theorem State.modLaunch_boot (s : State) (n : Nat) (f : Launch → Launch) : (s.modLaunch n f).boot = s.boot := rfl
@[simp] theorem State.modObj_pending (s : State) (x h : Nat) (f : Obj → Obj) : (s.modObj x h f).pending = s.pending := rfl
@[simp] theorem State.modObj_free (s : State) (x h : Nat) (f : Obj → Obj) : (s.modObj x h f).free = s.free := rfl
@[simp] theorem State.modObj_now (s : State) (x h : Nat) (f : Obj → Obj) : (s.modObj x h f).now = s.now := rfl
@[simp] theorem State.modObj_busRead (s : State) (x h : Nat) (f : Obj → Obj) : (s.modObj x h f).busRead = s.busRead := rfl
@[simp] theorem State.modObj_nextUid (s : State) (x h : Nat) (f : Obj → Obj) : (s.modObj x h f).nextUid = s.nextUid := rfl
@[simp] theorem State.modObj_regs (s : State) (x h : Nat) (f : Obj → Obj) : (s.modObj x h f).regs = s.regs := rfl
@[simp] theorem State.modObj_queues (s : State) (x h : Nat) (f : Obj → Obj) : (s.modObj x h f).queues = s.queues := rfl
@[simp] theorem State.modObj_tenants (s : State) (x h : Nat) (f : Obj → Obj) : (s.modObj x h f).tenants = s.tenants := rfl
@[simp] theorem State.modObj_cores (s : State) (x h : Nat) (f : Obj → Obj) : (s.modObj x h f).cores = s.cores := rfl
@[simp] theorem State.modObj_moves (s : State) (x h : Nat) (f : Obj → Obj) : (s.modObj x h f).moves = s.moves := rfl
@[simp] theorem State.modObj_embed (s : State) (x h : Nat) (f : Obj → Obj) : (s.modObj x h f).embed = s.embed := rfl
@[simp] theorem State.modObj_cru (s : State) (x h : Nat) (f : Obj → Obj) : (s.modObj x h f).cru = s.cru := rfl
@[simp] theorem State.modObj_pair (s : State) (x h : Nat) (f : Obj → Obj) : (s.modObj x h f).pair = s.pair := rfl
@[simp] theorem State.modObj_fabric (s : State) (x h : Nat) (f : Obj → Obj) : (s.modObj x h f).fabric = s.fabric := rfl
@[simp] theorem State.modObj_host (s : State) (x h : Nat) (f : Obj → Obj) : (s.modObj x h f).host = s.host := rfl
@[simp] theorem State.modObj_riser (s : State) (x h : Nat) (f : Obj → Obj) : (s.modObj x h f).riser = s.riser := rfl
@[simp] theorem State.modObj_fw (s : State) (x h : Nat) (f : Obj → Obj) : (s.modObj x h f).fw = s.fw := rfl
@[simp] theorem State.modObj_sec (s : State) (x h : Nat) (f : Obj → Obj) : (s.modObj x h f).sec = s.sec := rfl
@[simp] theorem State.modObj_events (s : State) (x h : Nat) (f : Obj → Obj) : (s.modObj x h f).events = s.events := rfl
@[simp] theorem State.modObj_fresh (s : State) (x h : Nat) (f : Obj → Obj) : (s.modObj x h f).fresh = s.fresh := rfl
@[simp] theorem State.modObj_due (s : State) (x h : Nat) (f : Obj → Obj) : (s.modObj x h f).due = s.due := rfl
@[simp] theorem State.modObj_pins (s : State) (x h : Nat) (f : Obj → Obj) : (s.modObj x h f).pins = s.pins := rfl
@[simp] theorem State.modObj_power (s : State) (x h : Nat) (f : Obj → Obj) : (s.modObj x h f).power = s.power := rfl
@[simp] theorem State.modObj_boot (s : State) (x h : Nat) (f : Obj → Obj) : (s.modObj x h f).boot = s.boot := rfl
@[simp] theorem State.modSlot_pending (s : State) (p n : Nat) (f : Slot → Slot) : (s.modSlot p n f).pending = s.pending := rfl
@[simp] theorem State.modSlot_free (s : State) (p n : Nat) (f : Slot → Slot) : (s.modSlot p n f).free = s.free := rfl
@[simp] theorem State.modSlot_now (s : State) (p n : Nat) (f : Slot → Slot) : (s.modSlot p n f).now = s.now := rfl
@[simp] theorem State.modSlot_busRead (s : State) (p n : Nat) (f : Slot → Slot) : (s.modSlot p n f).busRead = s.busRead := rfl
@[simp] theorem State.modSlot_nextUid (s : State) (p n : Nat) (f : Slot → Slot) : (s.modSlot p n f).nextUid = s.nextUid := rfl
@[simp] theorem State.modSlot_regs (s : State) (p n : Nat) (f : Slot → Slot) : (s.modSlot p n f).regs = s.regs := rfl
@[simp] theorem State.modSlot_queues (s : State) (p n : Nat) (f : Slot → Slot) : (s.modSlot p n f).queues = s.queues := rfl
@[simp] theorem State.modSlot_cores (s : State) (p n : Nat) (f : Slot → Slot) : (s.modSlot p n f).cores = s.cores := rfl
@[simp] theorem State.modSlot_moves (s : State) (p n : Nat) (f : Slot → Slot) : (s.modSlot p n f).moves = s.moves := rfl
@[simp] theorem State.modSlot_memory (s : State) (p n : Nat) (f : Slot → Slot) : (s.modSlot p n f).memory = s.memory := rfl
@[simp] theorem State.modSlot_embed (s : State) (p n : Nat) (f : Slot → Slot) : (s.modSlot p n f).embed = s.embed := rfl
@[simp] theorem State.modSlot_cru (s : State) (p n : Nat) (f : Slot → Slot) : (s.modSlot p n f).cru = s.cru := rfl
@[simp] theorem State.modSlot_pair (s : State) (p n : Nat) (f : Slot → Slot) : (s.modSlot p n f).pair = s.pair := rfl
@[simp] theorem State.modSlot_fabric (s : State) (p n : Nat) (f : Slot → Slot) : (s.modSlot p n f).fabric = s.fabric := rfl
@[simp] theorem State.modSlot_host (s : State) (p n : Nat) (f : Slot → Slot) : (s.modSlot p n f).host = s.host := rfl
@[simp] theorem State.modSlot_riser (s : State) (p n : Nat) (f : Slot → Slot) : (s.modSlot p n f).riser = s.riser := rfl
@[simp] theorem State.modSlot_fw (s : State) (p n : Nat) (f : Slot → Slot) : (s.modSlot p n f).fw = s.fw := rfl
@[simp] theorem State.modSlot_sec (s : State) (p n : Nat) (f : Slot → Slot) : (s.modSlot p n f).sec = s.sec := rfl
@[simp] theorem State.modSlot_events (s : State) (p n : Nat) (f : Slot → Slot) : (s.modSlot p n f).events = s.events := rfl
@[simp] theorem State.modSlot_fresh (s : State) (p n : Nat) (f : Slot → Slot) : (s.modSlot p n f).fresh = s.fresh := rfl
@[simp] theorem State.modSlot_due (s : State) (p n : Nat) (f : Slot → Slot) : (s.modSlot p n f).due = s.due := rfl
@[simp] theorem State.modSlot_pins (s : State) (p n : Nat) (f : Slot → Slot) : (s.modSlot p n f).pins = s.pins := rfl
@[simp] theorem State.modSlot_power (s : State) (p n : Nat) (f : Slot → Slot) : (s.modSlot p n f).power = s.power := rfl
@[simp] theorem State.modSlot_boot (s : State) (p n : Nat) (f : Slot → Slot) : (s.modSlot p n f).boot = s.boot := rfl
@[simp] theorem State.setLink_pending (s : State) (l : Nat) (k : Link) : (s.setLink l k).pending = s.pending := rfl
@[simp] theorem State.setLink_free (s : State) (l : Nat) (k : Link) : (s.setLink l k).free = s.free := rfl
@[simp] theorem State.setLink_now (s : State) (l : Nat) (k : Link) : (s.setLink l k).now = s.now := rfl
@[simp] theorem State.setLink_busRead (s : State) (l : Nat) (k : Link) : (s.setLink l k).busRead = s.busRead := rfl
@[simp] theorem State.setLink_nextUid (s : State) (l : Nat) (k : Link) : (s.setLink l k).nextUid = s.nextUid := rfl
@[simp] theorem State.setLink_regs (s : State) (l : Nat) (k : Link) : (s.setLink l k).regs = s.regs := rfl
@[simp] theorem State.setLink_queues (s : State) (l : Nat) (k : Link) : (s.setLink l k).queues = s.queues := rfl
@[simp] theorem State.setLink_tenants (s : State) (l : Nat) (k : Link) : (s.setLink l k).tenants = s.tenants := rfl
@[simp] theorem State.setLink_cores (s : State) (l : Nat) (k : Link) : (s.setLink l k).cores = s.cores := rfl
@[simp] theorem State.setLink_moves (s : State) (l : Nat) (k : Link) : (s.setLink l k).moves = s.moves := rfl
@[simp] theorem State.setLink_memory (s : State) (l : Nat) (k : Link) : (s.setLink l k).memory = s.memory := rfl
@[simp] theorem State.setLink_embed (s : State) (l : Nat) (k : Link) : (s.setLink l k).embed = s.embed := rfl
@[simp] theorem State.setLink_cru (s : State) (l : Nat) (k : Link) : (s.setLink l k).cru = s.cru := rfl
@[simp] theorem State.setLink_pair (s : State) (l : Nat) (k : Link) : (s.setLink l k).pair = s.pair := rfl
@[simp] theorem State.setLink_fabric (s : State) (l : Nat) (k : Link) : (s.setLink l k).fabric = s.fabric := rfl
@[simp] theorem State.setLink_riser (s : State) (l : Nat) (k : Link) : (s.setLink l k).riser = s.riser := rfl
@[simp] theorem State.setLink_fw (s : State) (l : Nat) (k : Link) : (s.setLink l k).fw = s.fw := rfl
@[simp] theorem State.setLink_sec (s : State) (l : Nat) (k : Link) : (s.setLink l k).sec = s.sec := rfl
@[simp] theorem State.setLink_events (s : State) (l : Nat) (k : Link) : (s.setLink l k).events = s.events := rfl
@[simp] theorem State.setLink_fresh (s : State) (l : Nat) (k : Link) : (s.setLink l k).fresh = s.fresh := rfl
@[simp] theorem State.setLink_due (s : State) (l : Nat) (k : Link) : (s.setLink l k).due = s.due := rfl
@[simp] theorem State.setLink_pins (s : State) (l : Nat) (k : Link) : (s.setLink l k).pins = s.pins := rfl
@[simp] theorem State.setLink_power (s : State) (l : Nat) (k : Link) : (s.setLink l k).power = s.power := rfl
@[simp] theorem State.setLink_boot (s : State) (l : Nat) (k : Link) : (s.setLink l k).boot = s.boot := rfl
@[simp] theorem State.modLink_pending (s : State) (l : Nat) (f : Link → Link) : (s.modLink l f).pending = s.pending := rfl
@[simp] theorem State.modLink_free (s : State) (l : Nat) (f : Link → Link) : (s.modLink l f).free = s.free := rfl
@[simp] theorem State.modLink_now (s : State) (l : Nat) (f : Link → Link) : (s.modLink l f).now = s.now := rfl
@[simp] theorem State.modLink_busRead (s : State) (l : Nat) (f : Link → Link) : (s.modLink l f).busRead = s.busRead := rfl
@[simp] theorem State.modLink_nextUid (s : State) (l : Nat) (f : Link → Link) : (s.modLink l f).nextUid = s.nextUid := rfl
@[simp] theorem State.modLink_regs (s : State) (l : Nat) (f : Link → Link) : (s.modLink l f).regs = s.regs := rfl
@[simp] theorem State.modLink_queues (s : State) (l : Nat) (f : Link → Link) : (s.modLink l f).queues = s.queues := rfl
@[simp] theorem State.modLink_tenants (s : State) (l : Nat) (f : Link → Link) : (s.modLink l f).tenants = s.tenants := rfl
@[simp] theorem State.modLink_cores (s : State) (l : Nat) (f : Link → Link) : (s.modLink l f).cores = s.cores := rfl
@[simp] theorem State.modLink_moves (s : State) (l : Nat) (f : Link → Link) : (s.modLink l f).moves = s.moves := rfl
@[simp] theorem State.modLink_memory (s : State) (l : Nat) (f : Link → Link) : (s.modLink l f).memory = s.memory := rfl
@[simp] theorem State.modLink_embed (s : State) (l : Nat) (f : Link → Link) : (s.modLink l f).embed = s.embed := rfl
@[simp] theorem State.modLink_cru (s : State) (l : Nat) (f : Link → Link) : (s.modLink l f).cru = s.cru := rfl
@[simp] theorem State.modLink_pair (s : State) (l : Nat) (f : Link → Link) : (s.modLink l f).pair = s.pair := rfl
@[simp] theorem State.modLink_fabric (s : State) (l : Nat) (f : Link → Link) : (s.modLink l f).fabric = s.fabric := rfl
@[simp] theorem State.modLink_riser (s : State) (l : Nat) (f : Link → Link) : (s.modLink l f).riser = s.riser := rfl
@[simp] theorem State.modLink_fw (s : State) (l : Nat) (f : Link → Link) : (s.modLink l f).fw = s.fw := rfl
@[simp] theorem State.modLink_sec (s : State) (l : Nat) (f : Link → Link) : (s.modLink l f).sec = s.sec := rfl
@[simp] theorem State.modLink_events (s : State) (l : Nat) (f : Link → Link) : (s.modLink l f).events = s.events := rfl
@[simp] theorem State.modLink_fresh (s : State) (l : Nat) (f : Link → Link) : (s.modLink l f).fresh = s.fresh := rfl
@[simp] theorem State.modLink_due (s : State) (l : Nat) (f : Link → Link) : (s.modLink l f).due = s.due := rfl
@[simp] theorem State.modLink_pins (s : State) (l : Nat) (f : Link → Link) : (s.modLink l f).pins = s.pins := rfl
@[simp] theorem State.modLink_power (s : State) (l : Nat) (f : Link → Link) : (s.modLink l f).power = s.power := rfl
@[simp] theorem State.modLink_boot (s : State) (l : Nat) (f : Link → Link) : (s.modLink l f).boot = s.boot := rfl
@[simp] theorem State.modCmd_pending (s : State) (u : Nat) (f : Running → Running) : (s.modCmd u f).pending = s.pending := rfl
@[simp] theorem State.modCmd_free (s : State) (u : Nat) (f : Running → Running) : (s.modCmd u f).free = s.free := rfl
@[simp] theorem State.modCmd_now (s : State) (u : Nat) (f : Running → Running) : (s.modCmd u f).now = s.now := rfl
@[simp] theorem State.modCmd_busRead (s : State) (u : Nat) (f : Running → Running) : (s.modCmd u f).busRead = s.busRead := rfl
@[simp] theorem State.modCmd_nextUid (s : State) (u : Nat) (f : Running → Running) : (s.modCmd u f).nextUid = s.nextUid := rfl
@[simp] theorem State.modCmd_regs (s : State) (u : Nat) (f : Running → Running) : (s.modCmd u f).regs = s.regs := rfl
@[simp] theorem State.modCmd_tenants (s : State) (u : Nat) (f : Running → Running) : (s.modCmd u f).tenants = s.tenants := rfl
@[simp] theorem State.modCmd_cores (s : State) (u : Nat) (f : Running → Running) : (s.modCmd u f).cores = s.cores := rfl
@[simp] theorem State.modCmd_moves (s : State) (u : Nat) (f : Running → Running) : (s.modCmd u f).moves = s.moves := rfl
@[simp] theorem State.modCmd_memory (s : State) (u : Nat) (f : Running → Running) : (s.modCmd u f).memory = s.memory := rfl
@[simp] theorem State.modCmd_embed (s : State) (u : Nat) (f : Running → Running) : (s.modCmd u f).embed = s.embed := rfl
@[simp] theorem State.modCmd_cru (s : State) (u : Nat) (f : Running → Running) : (s.modCmd u f).cru = s.cru := rfl
@[simp] theorem State.modCmd_pair (s : State) (u : Nat) (f : Running → Running) : (s.modCmd u f).pair = s.pair := rfl
@[simp] theorem State.modCmd_fabric (s : State) (u : Nat) (f : Running → Running) : (s.modCmd u f).fabric = s.fabric := rfl
@[simp] theorem State.modCmd_host (s : State) (u : Nat) (f : Running → Running) : (s.modCmd u f).host = s.host := rfl
@[simp] theorem State.modCmd_riser (s : State) (u : Nat) (f : Running → Running) : (s.modCmd u f).riser = s.riser := rfl
@[simp] theorem State.modCmd_fw (s : State) (u : Nat) (f : Running → Running) : (s.modCmd u f).fw = s.fw := rfl
@[simp] theorem State.modCmd_sec (s : State) (u : Nat) (f : Running → Running) : (s.modCmd u f).sec = s.sec := rfl
@[simp] theorem State.modCmd_events (s : State) (u : Nat) (f : Running → Running) : (s.modCmd u f).events = s.events := rfl
@[simp] theorem State.modCmd_fresh (s : State) (u : Nat) (f : Running → Running) : (s.modCmd u f).fresh = s.fresh := rfl
@[simp] theorem State.modCmd_due (s : State) (u : Nat) (f : Running → Running) : (s.modCmd u f).due = s.due := rfl
@[simp] theorem State.modCmd_pins (s : State) (u : Nat) (f : Running → Running) : (s.modCmd u f).pins = s.pins := rfl
@[simp] theorem State.modCmd_power (s : State) (u : Nat) (f : Running → Running) : (s.modCmd u f).power = s.power := rfl
@[simp] theorem State.modCmd_boot (s : State) (u : Nat) (f : Running → Running) : (s.modCmd u f).boot = s.boot := rfl
@[simp] theorem State.setClock_pending (s : State) (k : Nat) (c : Clock) : (s.setClock k c).pending = s.pending := rfl
@[simp] theorem State.setClock_free (s : State) (k : Nat) (c : Clock) : (s.setClock k c).free = s.free := rfl
@[simp] theorem State.setClock_now (s : State) (k : Nat) (c : Clock) : (s.setClock k c).now = s.now := rfl
@[simp] theorem State.setClock_busRead (s : State) (k : Nat) (c : Clock) : (s.setClock k c).busRead = s.busRead := rfl
@[simp] theorem State.setClock_nextUid (s : State) (k : Nat) (c : Clock) : (s.setClock k c).nextUid = s.nextUid := rfl
@[simp] theorem State.setClock_regs (s : State) (k : Nat) (c : Clock) : (s.setClock k c).regs = s.regs := rfl
@[simp] theorem State.setClock_queues (s : State) (k : Nat) (c : Clock) : (s.setClock k c).queues = s.queues := rfl
@[simp] theorem State.setClock_tenants (s : State) (k : Nat) (c : Clock) : (s.setClock k c).tenants = s.tenants := rfl
@[simp] theorem State.setClock_cores (s : State) (k : Nat) (c : Clock) : (s.setClock k c).cores = s.cores := rfl
@[simp] theorem State.setClock_moves (s : State) (k : Nat) (c : Clock) : (s.setClock k c).moves = s.moves := rfl
@[simp] theorem State.setClock_memory (s : State) (k : Nat) (c : Clock) : (s.setClock k c).memory = s.memory := rfl
@[simp] theorem State.setClock_embed (s : State) (k : Nat) (c : Clock) : (s.setClock k c).embed = s.embed := rfl
@[simp] theorem State.setClock_cru (s : State) (k : Nat) (c : Clock) : (s.setClock k c).cru = s.cru := rfl
@[simp] theorem State.setClock_pair (s : State) (k : Nat) (c : Clock) : (s.setClock k c).pair = s.pair := rfl
@[simp] theorem State.setClock_fabric (s : State) (k : Nat) (c : Clock) : (s.setClock k c).fabric = s.fabric := rfl
@[simp] theorem State.setClock_host (s : State) (k : Nat) (c : Clock) : (s.setClock k c).host = s.host := rfl
@[simp] theorem State.setClock_riser (s : State) (k : Nat) (c : Clock) : (s.setClock k c).riser = s.riser := rfl
@[simp] theorem State.setClock_fw (s : State) (k : Nat) (c : Clock) : (s.setClock k c).fw = s.fw := rfl
@[simp] theorem State.setClock_sec (s : State) (k : Nat) (c : Clock) : (s.setClock k c).sec = s.sec := rfl
@[simp] theorem State.setClock_events (s : State) (k : Nat) (c : Clock) : (s.setClock k c).events = s.events := rfl
@[simp] theorem State.setClock_fresh (s : State) (k : Nat) (c : Clock) : (s.setClock k c).fresh = s.fresh := rfl
@[simp] theorem State.setClock_due (s : State) (k : Nat) (c : Clock) : (s.setClock k c).due = s.due := rfl
@[simp] theorem State.setClock_pins (s : State) (k : Nat) (c : Clock) : (s.setClock k c).pins = s.pins := rfl
@[simp] theorem State.setClock_boot (s : State) (k : Nat) (c : Clock) : (s.setClock k c).boot = s.boot := rfl
@[simp] theorem State.modClock_pending (s : State) (k : Nat) (f : Clock → Clock) : (s.modClock k f).pending = s.pending := rfl
@[simp] theorem State.modClock_free (s : State) (k : Nat) (f : Clock → Clock) : (s.modClock k f).free = s.free := rfl
@[simp] theorem State.modClock_now (s : State) (k : Nat) (f : Clock → Clock) : (s.modClock k f).now = s.now := rfl
@[simp] theorem State.modClock_busRead (s : State) (k : Nat) (f : Clock → Clock) : (s.modClock k f).busRead = s.busRead := rfl
@[simp] theorem State.modClock_nextUid (s : State) (k : Nat) (f : Clock → Clock) : (s.modClock k f).nextUid = s.nextUid := rfl
@[simp] theorem State.modClock_regs (s : State) (k : Nat) (f : Clock → Clock) : (s.modClock k f).regs = s.regs := rfl
@[simp] theorem State.modClock_queues (s : State) (k : Nat) (f : Clock → Clock) : (s.modClock k f).queues = s.queues := rfl
@[simp] theorem State.modClock_tenants (s : State) (k : Nat) (f : Clock → Clock) : (s.modClock k f).tenants = s.tenants := rfl
@[simp] theorem State.modClock_cores (s : State) (k : Nat) (f : Clock → Clock) : (s.modClock k f).cores = s.cores := rfl
@[simp] theorem State.modClock_moves (s : State) (k : Nat) (f : Clock → Clock) : (s.modClock k f).moves = s.moves := rfl
@[simp] theorem State.modClock_memory (s : State) (k : Nat) (f : Clock → Clock) : (s.modClock k f).memory = s.memory := rfl
@[simp] theorem State.modClock_embed (s : State) (k : Nat) (f : Clock → Clock) : (s.modClock k f).embed = s.embed := rfl
@[simp] theorem State.modClock_cru (s : State) (k : Nat) (f : Clock → Clock) : (s.modClock k f).cru = s.cru := rfl
@[simp] theorem State.modClock_pair (s : State) (k : Nat) (f : Clock → Clock) : (s.modClock k f).pair = s.pair := rfl
@[simp] theorem State.modClock_fabric (s : State) (k : Nat) (f : Clock → Clock) : (s.modClock k f).fabric = s.fabric := rfl
@[simp] theorem State.modClock_host (s : State) (k : Nat) (f : Clock → Clock) : (s.modClock k f).host = s.host := rfl
@[simp] theorem State.modClock_riser (s : State) (k : Nat) (f : Clock → Clock) : (s.modClock k f).riser = s.riser := rfl
@[simp] theorem State.modClock_fw (s : State) (k : Nat) (f : Clock → Clock) : (s.modClock k f).fw = s.fw := rfl
@[simp] theorem State.modClock_sec (s : State) (k : Nat) (f : Clock → Clock) : (s.modClock k f).sec = s.sec := rfl
@[simp] theorem State.modClock_events (s : State) (k : Nat) (f : Clock → Clock) : (s.modClock k f).events = s.events := rfl
@[simp] theorem State.modClock_fresh (s : State) (k : Nat) (f : Clock → Clock) : (s.modClock k f).fresh = s.fresh := rfl
@[simp] theorem State.modClock_due (s : State) (k : Nat) (f : Clock → Clock) : (s.modClock k f).due = s.due := rfl
@[simp] theorem State.modClock_pins (s : State) (k : Nat) (f : Clock → Clock) : (s.modClock k f).pins = s.pins := rfl
@[simp] theorem State.modClock_boot (s : State) (k : Nat) (f : Clock → Clock) : (s.modClock k f).boot = s.boot := rfl
@[simp] theorem State.setPin_pending (s : State) (n : Nat) (g : Gpio) : (s.setPin n g).pending = s.pending := rfl
@[simp] theorem State.setPin_free (s : State) (n : Nat) (g : Gpio) : (s.setPin n g).free = s.free := rfl
@[simp] theorem State.setPin_now (s : State) (n : Nat) (g : Gpio) : (s.setPin n g).now = s.now := rfl
@[simp] theorem State.setPin_busRead (s : State) (n : Nat) (g : Gpio) : (s.setPin n g).busRead = s.busRead := rfl
@[simp] theorem State.setPin_nextUid (s : State) (n : Nat) (g : Gpio) : (s.setPin n g).nextUid = s.nextUid := rfl
@[simp] theorem State.setPin_regs (s : State) (n : Nat) (g : Gpio) : (s.setPin n g).regs = s.regs := rfl
@[simp] theorem State.setPin_queues (s : State) (n : Nat) (g : Gpio) : (s.setPin n g).queues = s.queues := rfl
@[simp] theorem State.setPin_tenants (s : State) (n : Nat) (g : Gpio) : (s.setPin n g).tenants = s.tenants := rfl
@[simp] theorem State.setPin_cores (s : State) (n : Nat) (g : Gpio) : (s.setPin n g).cores = s.cores := rfl
@[simp] theorem State.setPin_moves (s : State) (n : Nat) (g : Gpio) : (s.setPin n g).moves = s.moves := rfl
@[simp] theorem State.setPin_memory (s : State) (n : Nat) (g : Gpio) : (s.setPin n g).memory = s.memory := rfl
@[simp] theorem State.setPin_embed (s : State) (n : Nat) (g : Gpio) : (s.setPin n g).embed = s.embed := rfl
@[simp] theorem State.setPin_cru (s : State) (n : Nat) (g : Gpio) : (s.setPin n g).cru = s.cru := rfl
@[simp] theorem State.setPin_pair (s : State) (n : Nat) (g : Gpio) : (s.setPin n g).pair = s.pair := rfl
@[simp] theorem State.setPin_fabric (s : State) (n : Nat) (g : Gpio) : (s.setPin n g).fabric = s.fabric := rfl
@[simp] theorem State.setPin_host (s : State) (n : Nat) (g : Gpio) : (s.setPin n g).host = s.host := rfl
@[simp] theorem State.setPin_riser (s : State) (n : Nat) (g : Gpio) : (s.setPin n g).riser = s.riser := rfl
@[simp] theorem State.setPin_fw (s : State) (n : Nat) (g : Gpio) : (s.setPin n g).fw = s.fw := rfl
@[simp] theorem State.setPin_sec (s : State) (n : Nat) (g : Gpio) : (s.setPin n g).sec = s.sec := rfl
@[simp] theorem State.setPin_events (s : State) (n : Nat) (g : Gpio) : (s.setPin n g).events = s.events := rfl
@[simp] theorem State.setPin_fresh (s : State) (n : Nat) (g : Gpio) : (s.setPin n g).fresh = s.fresh := rfl
@[simp] theorem State.setPin_due (s : State) (n : Nat) (g : Gpio) : (s.setPin n g).due = s.due := rfl
@[simp] theorem State.setPin_power (s : State) (n : Nat) (g : Gpio) : (s.setPin n g).power = s.power := rfl
@[simp] theorem State.setPin_boot (s : State) (n : Nat) (g : Gpio) : (s.setPin n g).boot = s.boot := rfl
@[simp] theorem State.tidy_pending (s : State) : (s.tidy).pending = s.pending := rfl
@[simp] theorem State.tidy_free (s : State) : (s.tidy).free = s.free := rfl
@[simp] theorem State.tidy_now (s : State) : (s.tidy).now = s.now := rfl
@[simp] theorem State.tidy_busRead (s : State) : (s.tidy).busRead = s.busRead := rfl
@[simp] theorem State.tidy_nextUid (s : State) : (s.tidy).nextUid = s.nextUid := rfl
@[simp] theorem State.tidy_regs (s : State) : (s.tidy).regs = s.regs := rfl
@[simp] theorem State.tidy_queues (s : State) : (s.tidy).queues = s.queues := rfl
@[simp] theorem State.tidy_tenants (s : State) : (s.tidy).tenants = s.tenants := rfl
@[simp] theorem State.tidy_moves (s : State) : (s.tidy).moves = s.moves := rfl
@[simp] theorem State.tidy_embed (s : State) : (s.tidy).embed = s.embed := rfl
@[simp] theorem State.tidy_cru (s : State) : (s.tidy).cru = s.cru := rfl
@[simp] theorem State.tidy_pair (s : State) : (s.tidy).pair = s.pair := rfl
@[simp] theorem State.tidy_fabric (s : State) : (s.tidy).fabric = s.fabric := rfl
@[simp] theorem State.tidy_riser (s : State) : (s.tidy).riser = s.riser := rfl
@[simp] theorem State.tidy_fw (s : State) : (s.tidy).fw = s.fw := rfl
@[simp] theorem State.tidy_sec (s : State) : (s.tidy).sec = s.sec := rfl
@[simp] theorem State.tidy_events (s : State) : (s.tidy).events = s.events := rfl
@[simp] theorem State.tidy_fresh (s : State) : (s.tidy).fresh = s.fresh := rfl
@[simp] theorem State.tidy_due (s : State) : (s.tidy).due = s.due := rfl
@[simp] theorem State.tidy_pins (s : State) : (s.tidy).pins = s.pins := rfl
@[simp] theorem State.tidy_power (s : State) : (s.tidy).power = s.power := rfl
@[simp] theorem State.tidy_boot (s : State) : (s.tidy).boot = s.boot := rfl
@[simp] theorem State.putPort_pending (s : State) (p : Port) : (s.putPort p).pending = s.pending := rfl
@[simp] theorem State.putPort_free (s : State) (p : Port) : (s.putPort p).free = s.free := rfl
@[simp] theorem State.putPort_now (s : State) (p : Port) : (s.putPort p).now = s.now := rfl
@[simp] theorem State.putPort_busRead (s : State) (p : Port) : (s.putPort p).busRead = s.busRead := rfl
@[simp] theorem State.putPort_nextUid (s : State) (p : Port) : (s.putPort p).nextUid = s.nextUid := rfl
@[simp] theorem State.putPort_regs (s : State) (p : Port) : (s.putPort p).regs = s.regs := rfl
@[simp] theorem State.putPort_queues (s : State) (p : Port) : (s.putPort p).queues = s.queues := rfl
@[simp] theorem State.putPort_tenants (s : State) (p : Port) : (s.putPort p).tenants = s.tenants := rfl
@[simp] theorem State.putPort_cores (s : State) (p : Port) : (s.putPort p).cores = s.cores := rfl
@[simp] theorem State.putPort_moves (s : State) (p : Port) : (s.putPort p).moves = s.moves := rfl
@[simp] theorem State.putPort_memory (s : State) (p : Port) : (s.putPort p).memory = s.memory := rfl
@[simp] theorem State.putPort_embed (s : State) (p : Port) : (s.putPort p).embed = s.embed := rfl
@[simp] theorem State.putPort_cru (s : State) (p : Port) : (s.putPort p).cru = s.cru := rfl
@[simp] theorem State.putPort_pair (s : State) (p : Port) : (s.putPort p).pair = s.pair := rfl
@[simp] theorem State.putPort_host (s : State) (p : Port) : (s.putPort p).host = s.host := rfl
@[simp] theorem State.putPort_riser (s : State) (p : Port) : (s.putPort p).riser = s.riser := rfl
@[simp] theorem State.putPort_fw (s : State) (p : Port) : (s.putPort p).fw = s.fw := rfl
@[simp] theorem State.putPort_sec (s : State) (p : Port) : (s.putPort p).sec = s.sec := rfl
@[simp] theorem State.putPort_events (s : State) (p : Port) : (s.putPort p).events = s.events := rfl
@[simp] theorem State.putPort_fresh (s : State) (p : Port) : (s.putPort p).fresh = s.fresh := rfl
@[simp] theorem State.putPort_due (s : State) (p : Port) : (s.putPort p).due = s.due := rfl
@[simp] theorem State.putPort_pins (s : State) (p : Port) : (s.putPort p).pins = s.pins := rfl
@[simp] theorem State.putPort_power (s : State) (p : Port) : (s.putPort p).power = s.power := rfl
@[simp] theorem State.putPort_boot (s : State) (p : Port) : (s.putPort p).boot = s.boot := rfl
@[simp] theorem State.modPort_pending (s : State) (k : Nat) (f : Port → Port) : (s.modPort k f).pending = s.pending := rfl
@[simp] theorem State.modPort_free (s : State) (k : Nat) (f : Port → Port) : (s.modPort k f).free = s.free := rfl
@[simp] theorem State.modPort_now (s : State) (k : Nat) (f : Port → Port) : (s.modPort k f).now = s.now := rfl
@[simp] theorem State.modPort_busRead (s : State) (k : Nat) (f : Port → Port) : (s.modPort k f).busRead = s.busRead := rfl
@[simp] theorem State.modPort_nextUid (s : State) (k : Nat) (f : Port → Port) : (s.modPort k f).nextUid = s.nextUid := rfl
@[simp] theorem State.modPort_regs (s : State) (k : Nat) (f : Port → Port) : (s.modPort k f).regs = s.regs := rfl
@[simp] theorem State.modPort_queues (s : State) (k : Nat) (f : Port → Port) : (s.modPort k f).queues = s.queues := rfl
@[simp] theorem State.modPort_tenants (s : State) (k : Nat) (f : Port → Port) : (s.modPort k f).tenants = s.tenants := rfl
@[simp] theorem State.modPort_cores (s : State) (k : Nat) (f : Port → Port) : (s.modPort k f).cores = s.cores := rfl
@[simp] theorem State.modPort_moves (s : State) (k : Nat) (f : Port → Port) : (s.modPort k f).moves = s.moves := rfl
@[simp] theorem State.modPort_memory (s : State) (k : Nat) (f : Port → Port) : (s.modPort k f).memory = s.memory := rfl
@[simp] theorem State.modPort_embed (s : State) (k : Nat) (f : Port → Port) : (s.modPort k f).embed = s.embed := rfl
@[simp] theorem State.modPort_cru (s : State) (k : Nat) (f : Port → Port) : (s.modPort k f).cru = s.cru := rfl
@[simp] theorem State.modPort_pair (s : State) (k : Nat) (f : Port → Port) : (s.modPort k f).pair = s.pair := rfl
@[simp] theorem State.modPort_host (s : State) (k : Nat) (f : Port → Port) : (s.modPort k f).host = s.host := rfl
@[simp] theorem State.modPort_riser (s : State) (k : Nat) (f : Port → Port) : (s.modPort k f).riser = s.riser := rfl
@[simp] theorem State.modPort_fw (s : State) (k : Nat) (f : Port → Port) : (s.modPort k f).fw = s.fw := rfl
@[simp] theorem State.modPort_sec (s : State) (k : Nat) (f : Port → Port) : (s.modPort k f).sec = s.sec := rfl
@[simp] theorem State.modPort_events (s : State) (k : Nat) (f : Port → Port) : (s.modPort k f).events = s.events := rfl
@[simp] theorem State.modPort_fresh (s : State) (k : Nat) (f : Port → Port) : (s.modPort k f).fresh = s.fresh := rfl
@[simp] theorem State.modPort_due (s : State) (k : Nat) (f : Port → Port) : (s.modPort k f).due = s.due := rfl
@[simp] theorem State.modPort_pins (s : State) (k : Nat) (f : Port → Port) : (s.modPort k f).pins = s.pins := rfl
@[simp] theorem State.modPort_power (s : State) (k : Nat) (f : Port → Port) : (s.modPort k f).power = s.power := rfl
@[simp] theorem State.modPort_boot (s : State) (k : Nat) (f : Port → Port) : (s.modPort k f).boot = s.boot := rfl
@[simp] theorem State.putUnit_pending (s : State) (u : UnitRec) : (s.putUnit u).pending = s.pending := rfl
@[simp] theorem State.putUnit_free (s : State) (u : UnitRec) : (s.putUnit u).free = s.free := rfl
@[simp] theorem State.putUnit_now (s : State) (u : UnitRec) : (s.putUnit u).now = s.now := rfl
@[simp] theorem State.putUnit_busRead (s : State) (u : UnitRec) : (s.putUnit u).busRead = s.busRead := rfl
@[simp] theorem State.putUnit_nextUid (s : State) (u : UnitRec) : (s.putUnit u).nextUid = s.nextUid := rfl
@[simp] theorem State.putUnit_regs (s : State) (u : UnitRec) : (s.putUnit u).regs = s.regs := rfl
@[simp] theorem State.putUnit_queues (s : State) (u : UnitRec) : (s.putUnit u).queues = s.queues := rfl
@[simp] theorem State.putUnit_tenants (s : State) (u : UnitRec) : (s.putUnit u).tenants = s.tenants := rfl
@[simp] theorem State.putUnit_cores (s : State) (u : UnitRec) : (s.putUnit u).cores = s.cores := rfl
@[simp] theorem State.putUnit_moves (s : State) (u : UnitRec) : (s.putUnit u).moves = s.moves := rfl
@[simp] theorem State.putUnit_memory (s : State) (u : UnitRec) : (s.putUnit u).memory = s.memory := rfl
@[simp] theorem State.putUnit_embed (s : State) (u : UnitRec) : (s.putUnit u).embed = s.embed := rfl
@[simp] theorem State.putUnit_cru (s : State) (u : UnitRec) : (s.putUnit u).cru = s.cru := rfl
@[simp] theorem State.putUnit_pair (s : State) (u : UnitRec) : (s.putUnit u).pair = s.pair := rfl
@[simp] theorem State.putUnit_fabric (s : State) (u : UnitRec) : (s.putUnit u).fabric = s.fabric := rfl
@[simp] theorem State.putUnit_host (s : State) (u : UnitRec) : (s.putUnit u).host = s.host := rfl
@[simp] theorem State.putUnit_fw (s : State) (u : UnitRec) : (s.putUnit u).fw = s.fw := rfl
@[simp] theorem State.putUnit_sec (s : State) (u : UnitRec) : (s.putUnit u).sec = s.sec := rfl
@[simp] theorem State.putUnit_events (s : State) (u : UnitRec) : (s.putUnit u).events = s.events := rfl
@[simp] theorem State.putUnit_fresh (s : State) (u : UnitRec) : (s.putUnit u).fresh = s.fresh := rfl
@[simp] theorem State.putUnit_due (s : State) (u : UnitRec) : (s.putUnit u).due = s.due := rfl
@[simp] theorem State.putUnit_pins (s : State) (u : UnitRec) : (s.putUnit u).pins = s.pins := rfl
@[simp] theorem State.putUnit_power (s : State) (u : UnitRec) : (s.putUnit u).power = s.power := rfl
@[simp] theorem State.putUnit_boot (s : State) (u : UnitRec) : (s.putUnit u).boot = s.boot := rfl
@[simp] theorem State.modUnit_pending (s : State) (u : Nat) (f : UnitRec → UnitRec) : (s.modUnit u f).pending = s.pending := rfl
@[simp] theorem State.modUnit_free (s : State) (u : Nat) (f : UnitRec → UnitRec) : (s.modUnit u f).free = s.free := rfl
@[simp] theorem State.modUnit_now (s : State) (u : Nat) (f : UnitRec → UnitRec) : (s.modUnit u f).now = s.now := rfl
@[simp] theorem State.modUnit_busRead (s : State) (u : Nat) (f : UnitRec → UnitRec) : (s.modUnit u f).busRead = s.busRead := rfl
@[simp] theorem State.modUnit_nextUid (s : State) (u : Nat) (f : UnitRec → UnitRec) : (s.modUnit u f).nextUid = s.nextUid := rfl
@[simp] theorem State.modUnit_regs (s : State) (u : Nat) (f : UnitRec → UnitRec) : (s.modUnit u f).regs = s.regs := rfl
@[simp] theorem State.modUnit_queues (s : State) (u : Nat) (f : UnitRec → UnitRec) : (s.modUnit u f).queues = s.queues := rfl
@[simp] theorem State.modUnit_tenants (s : State) (u : Nat) (f : UnitRec → UnitRec) : (s.modUnit u f).tenants = s.tenants := rfl
@[simp] theorem State.modUnit_cores (s : State) (u : Nat) (f : UnitRec → UnitRec) : (s.modUnit u f).cores = s.cores := rfl
@[simp] theorem State.modUnit_moves (s : State) (u : Nat) (f : UnitRec → UnitRec) : (s.modUnit u f).moves = s.moves := rfl
@[simp] theorem State.modUnit_memory (s : State) (u : Nat) (f : UnitRec → UnitRec) : (s.modUnit u f).memory = s.memory := rfl
@[simp] theorem State.modUnit_embed (s : State) (u : Nat) (f : UnitRec → UnitRec) : (s.modUnit u f).embed = s.embed := rfl
@[simp] theorem State.modUnit_cru (s : State) (u : Nat) (f : UnitRec → UnitRec) : (s.modUnit u f).cru = s.cru := rfl
@[simp] theorem State.modUnit_pair (s : State) (u : Nat) (f : UnitRec → UnitRec) : (s.modUnit u f).pair = s.pair := rfl
@[simp] theorem State.modUnit_fabric (s : State) (u : Nat) (f : UnitRec → UnitRec) : (s.modUnit u f).fabric = s.fabric := rfl
@[simp] theorem State.modUnit_host (s : State) (u : Nat) (f : UnitRec → UnitRec) : (s.modUnit u f).host = s.host := rfl
@[simp] theorem State.modUnit_fw (s : State) (u : Nat) (f : UnitRec → UnitRec) : (s.modUnit u f).fw = s.fw := rfl
@[simp] theorem State.modUnit_sec (s : State) (u : Nat) (f : UnitRec → UnitRec) : (s.modUnit u f).sec = s.sec := rfl
@[simp] theorem State.modUnit_events (s : State) (u : Nat) (f : UnitRec → UnitRec) : (s.modUnit u f).events = s.events := rfl
@[simp] theorem State.modUnit_fresh (s : State) (u : Nat) (f : UnitRec → UnitRec) : (s.modUnit u f).fresh = s.fresh := rfl
@[simp] theorem State.modUnit_due (s : State) (u : Nat) (f : UnitRec → UnitRec) : (s.modUnit u f).due = s.due := rfl
@[simp] theorem State.modUnit_pins (s : State) (u : Nat) (f : UnitRec → UnitRec) : (s.modUnit u f).pins = s.pins := rfl
@[simp] theorem State.modUnit_power (s : State) (u : Nat) (f : UnitRec → UnitRec) : (s.modUnit u f).power = s.power := rfl
@[simp] theorem State.modUnit_boot (s : State) (u : Nat) (f : UnitRec → UnitRec) : (s.modUnit u f).boot = s.boot := rfl
@[simp] theorem State.modStream_pending (s : State) (n : Nat) (f : Stream → Stream) : (s.modStream n f).pending = s.pending := rfl
@[simp] theorem State.modStream_free (s : State) (n : Nat) (f : Stream → Stream) : (s.modStream n f).free = s.free := rfl
@[simp] theorem State.modStream_now (s : State) (n : Nat) (f : Stream → Stream) : (s.modStream n f).now = s.now := rfl
@[simp] theorem State.modStream_busRead (s : State) (n : Nat) (f : Stream → Stream) : (s.modStream n f).busRead = s.busRead := rfl
@[simp] theorem State.modStream_nextUid (s : State) (n : Nat) (f : Stream → Stream) : (s.modStream n f).nextUid = s.nextUid := rfl
@[simp] theorem State.modStream_regs (s : State) (n : Nat) (f : Stream → Stream) : (s.modStream n f).regs = s.regs := rfl
@[simp] theorem State.modStream_queues (s : State) (n : Nat) (f : Stream → Stream) : (s.modStream n f).queues = s.queues := rfl
@[simp] theorem State.modStream_tenants (s : State) (n : Nat) (f : Stream → Stream) : (s.modStream n f).tenants = s.tenants := rfl
@[simp] theorem State.modStream_cores (s : State) (n : Nat) (f : Stream → Stream) : (s.modStream n f).cores = s.cores := rfl
@[simp] theorem State.modStream_memory (s : State) (n : Nat) (f : Stream → Stream) : (s.modStream n f).memory = s.memory := rfl
@[simp] theorem State.modStream_embed (s : State) (n : Nat) (f : Stream → Stream) : (s.modStream n f).embed = s.embed := rfl
@[simp] theorem State.modStream_cru (s : State) (n : Nat) (f : Stream → Stream) : (s.modStream n f).cru = s.cru := rfl
@[simp] theorem State.modStream_pair (s : State) (n : Nat) (f : Stream → Stream) : (s.modStream n f).pair = s.pair := rfl
@[simp] theorem State.modStream_fabric (s : State) (n : Nat) (f : Stream → Stream) : (s.modStream n f).fabric = s.fabric := rfl
@[simp] theorem State.modStream_host (s : State) (n : Nat) (f : Stream → Stream) : (s.modStream n f).host = s.host := rfl
@[simp] theorem State.modStream_riser (s : State) (n : Nat) (f : Stream → Stream) : (s.modStream n f).riser = s.riser := rfl
@[simp] theorem State.modStream_fw (s : State) (n : Nat) (f : Stream → Stream) : (s.modStream n f).fw = s.fw := rfl
@[simp] theorem State.modStream_sec (s : State) (n : Nat) (f : Stream → Stream) : (s.modStream n f).sec = s.sec := rfl
@[simp] theorem State.modStream_events (s : State) (n : Nat) (f : Stream → Stream) : (s.modStream n f).events = s.events := rfl
@[simp] theorem State.modStream_fresh (s : State) (n : Nat) (f : Stream → Stream) : (s.modStream n f).fresh = s.fresh := rfl
@[simp] theorem State.modStream_due (s : State) (n : Nat) (f : Stream → Stream) : (s.modStream n f).due = s.due := rfl
@[simp] theorem State.modStream_pins (s : State) (n : Nat) (f : Stream → Stream) : (s.modStream n f).pins = s.pins := rfl
@[simp] theorem State.modStream_power (s : State) (n : Nat) (f : Stream → Stream) : (s.modStream n f).power = s.power := rfl
@[simp] theorem State.modStream_boot (s : State) (n : Nat) (f : Stream → Stream) : (s.modStream n f).boot = s.boot := rfl
@[simp] theorem State.modTransfer_pending (s : State) (n : Nat) (f : Transfer → Transfer) : (s.modTransfer n f).pending = s.pending := rfl
@[simp] theorem State.modTransfer_free (s : State) (n : Nat) (f : Transfer → Transfer) : (s.modTransfer n f).free = s.free := rfl
@[simp] theorem State.modTransfer_now (s : State) (n : Nat) (f : Transfer → Transfer) : (s.modTransfer n f).now = s.now := rfl
@[simp] theorem State.modTransfer_busRead (s : State) (n : Nat) (f : Transfer → Transfer) : (s.modTransfer n f).busRead = s.busRead := rfl
@[simp] theorem State.modTransfer_nextUid (s : State) (n : Nat) (f : Transfer → Transfer) : (s.modTransfer n f).nextUid = s.nextUid := rfl
@[simp] theorem State.modTransfer_regs (s : State) (n : Nat) (f : Transfer → Transfer) : (s.modTransfer n f).regs = s.regs := rfl
@[simp] theorem State.modTransfer_queues (s : State) (n : Nat) (f : Transfer → Transfer) : (s.modTransfer n f).queues = s.queues := rfl
@[simp] theorem State.modTransfer_tenants (s : State) (n : Nat) (f : Transfer → Transfer) : (s.modTransfer n f).tenants = s.tenants := rfl
@[simp] theorem State.modTransfer_cores (s : State) (n : Nat) (f : Transfer → Transfer) : (s.modTransfer n f).cores = s.cores := rfl
@[simp] theorem State.modTransfer_memory (s : State) (n : Nat) (f : Transfer → Transfer) : (s.modTransfer n f).memory = s.memory := rfl
@[simp] theorem State.modTransfer_embed (s : State) (n : Nat) (f : Transfer → Transfer) : (s.modTransfer n f).embed = s.embed := rfl
@[simp] theorem State.modTransfer_cru (s : State) (n : Nat) (f : Transfer → Transfer) : (s.modTransfer n f).cru = s.cru := rfl
@[simp] theorem State.modTransfer_pair (s : State) (n : Nat) (f : Transfer → Transfer) : (s.modTransfer n f).pair = s.pair := rfl
@[simp] theorem State.modTransfer_fabric (s : State) (n : Nat) (f : Transfer → Transfer) : (s.modTransfer n f).fabric = s.fabric := rfl
@[simp] theorem State.modTransfer_host (s : State) (n : Nat) (f : Transfer → Transfer) : (s.modTransfer n f).host = s.host := rfl
@[simp] theorem State.modTransfer_riser (s : State) (n : Nat) (f : Transfer → Transfer) : (s.modTransfer n f).riser = s.riser := rfl
@[simp] theorem State.modTransfer_fw (s : State) (n : Nat) (f : Transfer → Transfer) : (s.modTransfer n f).fw = s.fw := rfl
@[simp] theorem State.modTransfer_sec (s : State) (n : Nat) (f : Transfer → Transfer) : (s.modTransfer n f).sec = s.sec := rfl
@[simp] theorem State.modTransfer_events (s : State) (n : Nat) (f : Transfer → Transfer) : (s.modTransfer n f).events = s.events := rfl
@[simp] theorem State.modTransfer_fresh (s : State) (n : Nat) (f : Transfer → Transfer) : (s.modTransfer n f).fresh = s.fresh := rfl
@[simp] theorem State.modTransfer_due (s : State) (n : Nat) (f : Transfer → Transfer) : (s.modTransfer n f).due = s.due := rfl
@[simp] theorem State.modTransfer_pins (s : State) (n : Nat) (f : Transfer → Transfer) : (s.modTransfer n f).pins = s.pins := rfl
@[simp] theorem State.modTransfer_power (s : State) (n : Nat) (f : Transfer → Transfer) : (s.modTransfer n f).power = s.power := rfl
@[simp] theorem State.modTransfer_boot (s : State) (n : Nat) (f : Transfer → Transfer) : (s.modTransfer n f).boot = s.boot := rfl
@[simp] theorem State.modJob_pending (s : State) (n : Nat) (f : Job → Job) : (s.modJob n f).pending = s.pending := rfl
@[simp] theorem State.modJob_free (s : State) (n : Nat) (f : Job → Job) : (s.modJob n f).free = s.free := rfl
@[simp] theorem State.modJob_now (s : State) (n : Nat) (f : Job → Job) : (s.modJob n f).now = s.now := rfl
@[simp] theorem State.modJob_busRead (s : State) (n : Nat) (f : Job → Job) : (s.modJob n f).busRead = s.busRead := rfl
@[simp] theorem State.modJob_nextUid (s : State) (n : Nat) (f : Job → Job) : (s.modJob n f).nextUid = s.nextUid := rfl
@[simp] theorem State.modJob_regs (s : State) (n : Nat) (f : Job → Job) : (s.modJob n f).regs = s.regs := rfl
@[simp] theorem State.modJob_queues (s : State) (n : Nat) (f : Job → Job) : (s.modJob n f).queues = s.queues := rfl
@[simp] theorem State.modJob_tenants (s : State) (n : Nat) (f : Job → Job) : (s.modJob n f).tenants = s.tenants := rfl
@[simp] theorem State.modJob_cores (s : State) (n : Nat) (f : Job → Job) : (s.modJob n f).cores = s.cores := rfl
@[simp] theorem State.modJob_memory (s : State) (n : Nat) (f : Job → Job) : (s.modJob n f).memory = s.memory := rfl
@[simp] theorem State.modJob_embed (s : State) (n : Nat) (f : Job → Job) : (s.modJob n f).embed = s.embed := rfl
@[simp] theorem State.modJob_cru (s : State) (n : Nat) (f : Job → Job) : (s.modJob n f).cru = s.cru := rfl
@[simp] theorem State.modJob_pair (s : State) (n : Nat) (f : Job → Job) : (s.modJob n f).pair = s.pair := rfl
@[simp] theorem State.modJob_fabric (s : State) (n : Nat) (f : Job → Job) : (s.modJob n f).fabric = s.fabric := rfl
@[simp] theorem State.modJob_host (s : State) (n : Nat) (f : Job → Job) : (s.modJob n f).host = s.host := rfl
@[simp] theorem State.modJob_riser (s : State) (n : Nat) (f : Job → Job) : (s.modJob n f).riser = s.riser := rfl
@[simp] theorem State.modJob_fw (s : State) (n : Nat) (f : Job → Job) : (s.modJob n f).fw = s.fw := rfl
@[simp] theorem State.modJob_sec (s : State) (n : Nat) (f : Job → Job) : (s.modJob n f).sec = s.sec := rfl
@[simp] theorem State.modJob_events (s : State) (n : Nat) (f : Job → Job) : (s.modJob n f).events = s.events := rfl
@[simp] theorem State.modJob_fresh (s : State) (n : Nat) (f : Job → Job) : (s.modJob n f).fresh = s.fresh := rfl
@[simp] theorem State.modJob_due (s : State) (n : Nat) (f : Job → Job) : (s.modJob n f).due = s.due := rfl
@[simp] theorem State.modJob_pins (s : State) (n : Nat) (f : Job → Job) : (s.modJob n f).pins = s.pins := rfl
@[simp] theorem State.modJob_power (s : State) (n : Nat) (f : Job → Job) : (s.modJob n f).power = s.power := rfl
@[simp] theorem State.modJob_boot (s : State) (n : Nat) (f : Job → Job) : (s.modJob n f).boot = s.boot := rfl
@[simp] theorem State.modArray_pending (s : State) (c a : Nat) (f : Array → Array) : (s.modArray c a f).pending = s.pending := rfl
@[simp] theorem State.modArray_free (s : State) (c a : Nat) (f : Array → Array) : (s.modArray c a f).free = s.free := rfl
@[simp] theorem State.modArray_now (s : State) (c a : Nat) (f : Array → Array) : (s.modArray c a f).now = s.now := rfl
@[simp] theorem State.modArray_busRead (s : State) (c a : Nat) (f : Array → Array) : (s.modArray c a f).busRead = s.busRead := rfl
@[simp] theorem State.modArray_nextUid (s : State) (c a : Nat) (f : Array → Array) : (s.modArray c a f).nextUid = s.nextUid := rfl
@[simp] theorem State.modArray_regs (s : State) (c a : Nat) (f : Array → Array) : (s.modArray c a f).regs = s.regs := rfl
@[simp] theorem State.modArray_queues (s : State) (c a : Nat) (f : Array → Array) : (s.modArray c a f).queues = s.queues := rfl
@[simp] theorem State.modArray_tenants (s : State) (c a : Nat) (f : Array → Array) : (s.modArray c a f).tenants = s.tenants := rfl
@[simp] theorem State.modArray_moves (s : State) (c a : Nat) (f : Array → Array) : (s.modArray c a f).moves = s.moves := rfl
@[simp] theorem State.modArray_memory (s : State) (c a : Nat) (f : Array → Array) : (s.modArray c a f).memory = s.memory := rfl
@[simp] theorem State.modArray_embed (s : State) (c a : Nat) (f : Array → Array) : (s.modArray c a f).embed = s.embed := rfl
@[simp] theorem State.modArray_cru (s : State) (c a : Nat) (f : Array → Array) : (s.modArray c a f).cru = s.cru := rfl
@[simp] theorem State.modArray_pair (s : State) (c a : Nat) (f : Array → Array) : (s.modArray c a f).pair = s.pair := rfl
@[simp] theorem State.modArray_fabric (s : State) (c a : Nat) (f : Array → Array) : (s.modArray c a f).fabric = s.fabric := rfl
@[simp] theorem State.modArray_host (s : State) (c a : Nat) (f : Array → Array) : (s.modArray c a f).host = s.host := rfl
@[simp] theorem State.modArray_riser (s : State) (c a : Nat) (f : Array → Array) : (s.modArray c a f).riser = s.riser := rfl
@[simp] theorem State.modArray_fw (s : State) (c a : Nat) (f : Array → Array) : (s.modArray c a f).fw = s.fw := rfl
@[simp] theorem State.modArray_sec (s : State) (c a : Nat) (f : Array → Array) : (s.modArray c a f).sec = s.sec := rfl
@[simp] theorem State.modArray_events (s : State) (c a : Nat) (f : Array → Array) : (s.modArray c a f).events = s.events := rfl
@[simp] theorem State.modArray_fresh (s : State) (c a : Nat) (f : Array → Array) : (s.modArray c a f).fresh = s.fresh := rfl
@[simp] theorem State.modArray_due (s : State) (c a : Nat) (f : Array → Array) : (s.modArray c a f).due = s.due := rfl
@[simp] theorem State.modArray_pins (s : State) (c a : Nat) (f : Array → Array) : (s.modArray c a f).pins = s.pins := rfl
@[simp] theorem State.modArray_power (s : State) (c a : Nat) (f : Array → Array) : (s.modArray c a f).power = s.power := rfl
@[simp] theorem State.modArray_boot (s : State) (c a : Nat) (f : Array → Array) : (s.modArray c a f).boot = s.boot := rfl
@[simp] theorem State.modGather_pending (s : State) (n : Nat) (f : Gather → Gather) : (s.modGather n f).pending = s.pending := rfl
@[simp] theorem State.modGather_free (s : State) (n : Nat) (f : Gather → Gather) : (s.modGather n f).free = s.free := rfl
@[simp] theorem State.modGather_now (s : State) (n : Nat) (f : Gather → Gather) : (s.modGather n f).now = s.now := rfl
@[simp] theorem State.modGather_busRead (s : State) (n : Nat) (f : Gather → Gather) : (s.modGather n f).busRead = s.busRead := rfl
@[simp] theorem State.modGather_nextUid (s : State) (n : Nat) (f : Gather → Gather) : (s.modGather n f).nextUid = s.nextUid := rfl
@[simp] theorem State.modGather_regs (s : State) (n : Nat) (f : Gather → Gather) : (s.modGather n f).regs = s.regs := rfl
@[simp] theorem State.modGather_queues (s : State) (n : Nat) (f : Gather → Gather) : (s.modGather n f).queues = s.queues := rfl
@[simp] theorem State.modGather_tenants (s : State) (n : Nat) (f : Gather → Gather) : (s.modGather n f).tenants = s.tenants := rfl
@[simp] theorem State.modGather_cores (s : State) (n : Nat) (f : Gather → Gather) : (s.modGather n f).cores = s.cores := rfl
@[simp] theorem State.modGather_moves (s : State) (n : Nat) (f : Gather → Gather) : (s.modGather n f).moves = s.moves := rfl
@[simp] theorem State.modGather_memory (s : State) (n : Nat) (f : Gather → Gather) : (s.modGather n f).memory = s.memory := rfl
@[simp] theorem State.modGather_cru (s : State) (n : Nat) (f : Gather → Gather) : (s.modGather n f).cru = s.cru := rfl
@[simp] theorem State.modGather_pair (s : State) (n : Nat) (f : Gather → Gather) : (s.modGather n f).pair = s.pair := rfl
@[simp] theorem State.modGather_fabric (s : State) (n : Nat) (f : Gather → Gather) : (s.modGather n f).fabric = s.fabric := rfl
@[simp] theorem State.modGather_host (s : State) (n : Nat) (f : Gather → Gather) : (s.modGather n f).host = s.host := rfl
@[simp] theorem State.modGather_riser (s : State) (n : Nat) (f : Gather → Gather) : (s.modGather n f).riser = s.riser := rfl
@[simp] theorem State.modGather_fw (s : State) (n : Nat) (f : Gather → Gather) : (s.modGather n f).fw = s.fw := rfl
@[simp] theorem State.modGather_sec (s : State) (n : Nat) (f : Gather → Gather) : (s.modGather n f).sec = s.sec := rfl
@[simp] theorem State.modGather_events (s : State) (n : Nat) (f : Gather → Gather) : (s.modGather n f).events = s.events := rfl
@[simp] theorem State.modGather_fresh (s : State) (n : Nat) (f : Gather → Gather) : (s.modGather n f).fresh = s.fresh := rfl
@[simp] theorem State.modGather_due (s : State) (n : Nat) (f : Gather → Gather) : (s.modGather n f).due = s.due := rfl
@[simp] theorem State.modGather_pins (s : State) (n : Nat) (f : Gather → Gather) : (s.modGather n f).pins = s.pins := rfl
@[simp] theorem State.modGather_power (s : State) (n : Nat) (f : Gather → Gather) : (s.modGather n f).power = s.power := rfl
@[simp] theorem State.modGather_boot (s : State) (n : Nat) (f : Gather → Gather) : (s.modGather n f).boot = s.boot := rfl
@[simp] theorem State.modGroup_pending (s : State) (x g : Nat) (f : Group → Group) : (s.modGroup x g f).pending = s.pending := rfl
@[simp] theorem State.modGroup_free (s : State) (x g : Nat) (f : Group → Group) : (s.modGroup x g f).free = s.free := rfl
@[simp] theorem State.modGroup_now (s : State) (x g : Nat) (f : Group → Group) : (s.modGroup x g f).now = s.now := rfl
@[simp] theorem State.modGroup_busRead (s : State) (x g : Nat) (f : Group → Group) : (s.modGroup x g f).busRead = s.busRead := rfl
@[simp] theorem State.modGroup_nextUid (s : State) (x g : Nat) (f : Group → Group) : (s.modGroup x g f).nextUid = s.nextUid := rfl
@[simp] theorem State.modGroup_regs (s : State) (x g : Nat) (f : Group → Group) : (s.modGroup x g f).regs = s.regs := rfl
@[simp] theorem State.modGroup_queues (s : State) (x g : Nat) (f : Group → Group) : (s.modGroup x g f).queues = s.queues := rfl
@[simp] theorem State.modGroup_tenants (s : State) (x g : Nat) (f : Group → Group) : (s.modGroup x g f).tenants = s.tenants := rfl
@[simp] theorem State.modGroup_cores (s : State) (x g : Nat) (f : Group → Group) : (s.modGroup x g f).cores = s.cores := rfl
@[simp] theorem State.modGroup_moves (s : State) (x g : Nat) (f : Group → Group) : (s.modGroup x g f).moves = s.moves := rfl
@[simp] theorem State.modGroup_memory (s : State) (x g : Nat) (f : Group → Group) : (s.modGroup x g f).memory = s.memory := rfl
@[simp] theorem State.modGroup_embed (s : State) (x g : Nat) (f : Group → Group) : (s.modGroup x g f).embed = s.embed := rfl
@[simp] theorem State.modGroup_pair (s : State) (x g : Nat) (f : Group → Group) : (s.modGroup x g f).pair = s.pair := rfl
@[simp] theorem State.modGroup_fabric (s : State) (x g : Nat) (f : Group → Group) : (s.modGroup x g f).fabric = s.fabric := rfl
@[simp] theorem State.modGroup_host (s : State) (x g : Nat) (f : Group → Group) : (s.modGroup x g f).host = s.host := rfl
@[simp] theorem State.modGroup_riser (s : State) (x g : Nat) (f : Group → Group) : (s.modGroup x g f).riser = s.riser := rfl
@[simp] theorem State.modGroup_fw (s : State) (x g : Nat) (f : Group → Group) : (s.modGroup x g f).fw = s.fw := rfl
@[simp] theorem State.modGroup_sec (s : State) (x g : Nat) (f : Group → Group) : (s.modGroup x g f).sec = s.sec := rfl
@[simp] theorem State.modGroup_events (s : State) (x g : Nat) (f : Group → Group) : (s.modGroup x g f).events = s.events := rfl
@[simp] theorem State.modGroup_fresh (s : State) (x g : Nat) (f : Group → Group) : (s.modGroup x g f).fresh = s.fresh := rfl
@[simp] theorem State.modGroup_due (s : State) (x g : Nat) (f : Group → Group) : (s.modGroup x g f).due = s.due := rfl
@[simp] theorem State.modGroup_pins (s : State) (x g : Nat) (f : Group → Group) : (s.modGroup x g f).pins = s.pins := rfl
@[simp] theorem State.modGroup_power (s : State) (x g : Nat) (f : Group → Group) : (s.modGroup x g f).power = s.power := rfl
@[simp] theorem State.modGroup_boot (s : State) (x g : Nat) (f : Group → Group) : (s.modGroup x g f).boot = s.boot := rfl
@[simp] theorem State.reply_pending (s : State) (u : Nat) (r : Reply) : (s.reply u r).pending = s.pending := rfl
@[simp] theorem State.reply_free (s : State) (u : Nat) (r : Reply) : (s.reply u r).free = s.free := rfl
@[simp] theorem State.reply_now (s : State) (u : Nat) (r : Reply) : (s.reply u r).now = s.now := rfl
@[simp] theorem State.reply_busRead (s : State) (u : Nat) (r : Reply) : (s.reply u r).busRead = s.busRead := rfl
@[simp] theorem State.reply_nextUid (s : State) (u : Nat) (r : Reply) : (s.reply u r).nextUid = s.nextUid := rfl
@[simp] theorem State.reply_regs (s : State) (u : Nat) (r : Reply) : (s.reply u r).regs = s.regs := rfl
@[simp] theorem State.reply_tenants (s : State) (u : Nat) (r : Reply) : (s.reply u r).tenants = s.tenants := rfl
@[simp] theorem State.reply_cores (s : State) (u : Nat) (r : Reply) : (s.reply u r).cores = s.cores := rfl
@[simp] theorem State.reply_moves (s : State) (u : Nat) (r : Reply) : (s.reply u r).moves = s.moves := rfl
@[simp] theorem State.reply_memory (s : State) (u : Nat) (r : Reply) : (s.reply u r).memory = s.memory := rfl
@[simp] theorem State.reply_embed (s : State) (u : Nat) (r : Reply) : (s.reply u r).embed = s.embed := rfl
@[simp] theorem State.reply_cru (s : State) (u : Nat) (r : Reply) : (s.reply u r).cru = s.cru := rfl
@[simp] theorem State.reply_pair (s : State) (u : Nat) (r : Reply) : (s.reply u r).pair = s.pair := rfl
@[simp] theorem State.reply_fabric (s : State) (u : Nat) (r : Reply) : (s.reply u r).fabric = s.fabric := rfl
@[simp] theorem State.reply_host (s : State) (u : Nat) (r : Reply) : (s.reply u r).host = s.host := rfl
@[simp] theorem State.reply_riser (s : State) (u : Nat) (r : Reply) : (s.reply u r).riser = s.riser := rfl
@[simp] theorem State.reply_fw (s : State) (u : Nat) (r : Reply) : (s.reply u r).fw = s.fw := rfl
@[simp] theorem State.reply_sec (s : State) (u : Nat) (r : Reply) : (s.reply u r).sec = s.sec := rfl
@[simp] theorem State.reply_events (s : State) (u : Nat) (r : Reply) : (s.reply u r).events = s.events := rfl
@[simp] theorem State.reply_fresh (s : State) (u : Nat) (r : Reply) : (s.reply u r).fresh = s.fresh := rfl
@[simp] theorem State.reply_due (s : State) (u : Nat) (r : Reply) : (s.reply u r).due = s.due := rfl
@[simp] theorem State.reply_pins (s : State) (u : Nat) (r : Reply) : (s.reply u r).pins = s.pins := rfl
@[simp] theorem State.reply_power (s : State) (u : Nat) (r : Reply) : (s.reply u r).power = s.power := rfl
@[simp] theorem State.reply_boot (s : State) (u : Nat) (r : Reply) : (s.reply u r).boot = s.boot := rfl
@[simp] theorem State.taint_pending (s : State) (u b n : Nat) : (s.taint u b n).pending = s.pending := rfl
@[simp] theorem State.taint_free (s : State) (u b n : Nat) : (s.taint u b n).free = s.free := rfl
@[simp] theorem State.taint_now (s : State) (u b n : Nat) : (s.taint u b n).now = s.now := rfl
@[simp] theorem State.taint_busRead (s : State) (u b n : Nat) : (s.taint u b n).busRead = s.busRead := rfl
@[simp] theorem State.taint_nextUid (s : State) (u b n : Nat) : (s.taint u b n).nextUid = s.nextUid := rfl
@[simp] theorem State.taint_regs (s : State) (u b n : Nat) : (s.taint u b n).regs = s.regs := rfl
@[simp] theorem State.taint_tenants (s : State) (u b n : Nat) : (s.taint u b n).tenants = s.tenants := rfl
@[simp] theorem State.taint_cores (s : State) (u b n : Nat) : (s.taint u b n).cores = s.cores := rfl
@[simp] theorem State.taint_moves (s : State) (u b n : Nat) : (s.taint u b n).moves = s.moves := rfl
@[simp] theorem State.taint_memory (s : State) (u b n : Nat) : (s.taint u b n).memory = s.memory := rfl
@[simp] theorem State.taint_embed (s : State) (u b n : Nat) : (s.taint u b n).embed = s.embed := rfl
@[simp] theorem State.taint_cru (s : State) (u b n : Nat) : (s.taint u b n).cru = s.cru := rfl
@[simp] theorem State.taint_pair (s : State) (u b n : Nat) : (s.taint u b n).pair = s.pair := rfl
@[simp] theorem State.taint_fabric (s : State) (u b n : Nat) : (s.taint u b n).fabric = s.fabric := rfl
@[simp] theorem State.taint_host (s : State) (u b n : Nat) : (s.taint u b n).host = s.host := rfl
@[simp] theorem State.taint_riser (s : State) (u b n : Nat) : (s.taint u b n).riser = s.riser := rfl
@[simp] theorem State.taint_fw (s : State) (u b n : Nat) : (s.taint u b n).fw = s.fw := rfl
@[simp] theorem State.taint_sec (s : State) (u b n : Nat) : (s.taint u b n).sec = s.sec := rfl
@[simp] theorem State.taint_events (s : State) (u b n : Nat) : (s.taint u b n).events = s.events := rfl
@[simp] theorem State.taint_fresh (s : State) (u b n : Nat) : (s.taint u b n).fresh = s.fresh := rfl
@[simp] theorem State.taint_due (s : State) (u b n : Nat) : (s.taint u b n).due = s.due := rfl
@[simp] theorem State.taint_pins (s : State) (u b n : Nat) : (s.taint u b n).pins = s.pins := rfl
@[simp] theorem State.taint_power (s : State) (u b n : Nat) : (s.taint u b n).power = s.power := rfl
@[simp] theorem State.taint_boot (s : State) (u b n : Nat) : (s.taint u b n).boot = s.boot := rfl

end Sys2Proof.Machine
end

