-- ==== Sys2Proof/Laws/Opcode.lean ====
section
/-! SUPPORT. What starting a packet can do, said once for every opcode row: it joins its queue, passes its checks, and its body completes, goes on, waits or refuses. -/

namespace Sys2Proof.Machine
open Sys2Proof

/-- The outcome of every row but those of the always-on domain. -/
theorem run_eq (s : State) (f : State → State) (h : s.power.stopped = false) : s.run f = .next (s.after (f s)) := by
  simp [State.run, State.runAo, h]

theorem run_stopped (s : State) (f : State → State) (h : s.power.stopped = true) : s.run f = .next (s.after s) := by
  simp [State.run, State.runAo, h]

/-- An opcode row starts its packet. -/
theorem opcodeStep_starts {op : Nat} {a f : Bool} {body : Body} {q : QueueId} {pkt : Packet} {s : State} (h : Starts s op q pkt) :
    opcodeStep op a f body q pkt s = .next (s.after (s.start q pkt (guarded a f body))) := by
  obtain ⟨h1, h2, h3⟩ := h
  simp only [opcodeWf, Bool.and_eq_true, beq_iff_eq] at h2
  obtain ⟨e, he⟩ := Option.isSome_iff_exists.mp h3
  simp [opcodeStep, h2, he, run_eq s _ h1]

theorem opcodeStep_illFormed {op : Nat} {a f : Bool} {body : Body} {q : QueueId} {pkt : Packet} {s : State} (h : opcodeWf op pkt = false) :
    opcodeStep op a f body q pkt s = .fault .illFormed := by
  simp only [opcodeWf, Bool.and_eq_false_iff, beq_eq_false_iff_ne, ne_eq] at h
  unfold opcodeStep
  rw [if_neg]
  rintro ⟨h1, h2⟩
  rcases h with h | h
  · simp [h1] at h
  · exact h h2

/-- A body that completes replies; one that goes on leaves its work; one that refuses leaves the state but for the reply. -/
theorem start_passes {q : QueueId} {pkt : Packet} {s : State} {a f : Bool} {body : Body} (h : Passes s q pkt a f) :
    s.start q pkt (guarded a f body) = (s.enter q pkt).2.runBody body (s.enter q pkt).1 := by
  unfold Passes at h
  simp only [State.start, State.runBody, guarded, h, bind, Except.bind]

theorem runBody_ok {s t : State} {body : Body} {c : Running} {r : Reply} (h : body c s = .ok (t, some r)) : s.runBody body c = t.reply c.uid r := by
  simp only [State.runBody, h]

theorem runBody_going {s t : State} {body : Body} {c : Running} (h : body c s = .ok (t, none)) : s.runBody body c = t := by
  simp only [State.runBody, h]

theorem runBody_refused {s : State} {body : Body} {c : Running} {r : Reply} (h : body c s = .error (.done r)) : s.runBody body c = s.reply c.uid r := by
  simp only [State.runBody, h]

/-- An opcode row whose body completes. -/
theorem opcodeStep_completes {op : Nat} {a f : Bool} {body : Body} {q : QueueId} {pkt : Packet} {s t : State} {r : Reply} (hs : Starts s op q pkt)
    (hp : Passes s q pkt a f) (hb : body (s.enter q pkt).1 (s.enter q pkt).2 = .ok (t, some r)) :
    opcodeStep op a f body q pkt s = .next (s.after (t.reply (s.enter q pkt).1.uid r)) := by
  rw [opcodeStep_starts hs, start_passes hp, runBody_ok hb]

/-- An opcode row whose command goes on after its start. -/
theorem opcodeStep_goes {op : Nat} {a f : Bool} {body : Body} {q : QueueId} {pkt : Packet} {s t : State} (hs : Starts s op q pkt)
    (hp : Passes s q pkt a f) (hb : body (s.enter q pkt).1 (s.enter q pkt).2 = .ok (t, none)) :
    opcodeStep op a f body q pkt s = .next (s.after t) := by
  rw [opcodeStep_starts hs, start_passes hp, runBody_going hb]

/-- An opcode row whose body refuses the command. -/
theorem opcodeStep_refuses {op : Nat} {a f : Bool} {body : Body} {q : QueueId} {pkt : Packet} {s : State} {r : Reply} (hs : Starts s op q pkt)
    (hp : Passes s q pkt a f) (hb : body (s.enter q pkt).1 (s.enter q pkt).2 = .error (.done r)) :
    opcodeStep op a f body q pkt s = .next (s.after ((s.enter q pkt).2.reply (s.enter q pkt).1.uid r)) := by
  rw [opcodeStep_starts hs, start_passes hp, runBody_refused hb]

/-! ### The checks of a body -/

theorem need_true {b : Bool} {r : Reply} (h : b = true) : need b r = .ok () := by simp [need, h]

theorem need_false {b : Bool} {r : Reply} (h : b = false) : need b r = .error (.done r) := by simp [need, h]

theorem bind_ok {α β : Type} (a : α) (f : α → Except Stop β) : ((Except.ok a : Except Stop α) >>= f) = f a := rfl

theorem noTicket_ok {c : Running} (h : c.ticket = 0) : noTicket c = .ok () := by simp [noTicket, need, h]

theorem plenIs_ok {c : Running} {n : Nat} (h : c.u 26 2 = n) : plenIs c n = .ok () := by simp [plenIs, need, h]

theorem reserved_ok {c : Running} {off n : Nat} (h : Zero c off n) : reserved c off n = .ok () := by
  unfold reserved
  rw [List.find?_eq_none.mpr]
  intro i hi
  simpa using h i (List.mem_range.mp hi)

/-- The effect of an opcode row is what its body leaves in the state where it runs. -/
theorem effect_of {mk : QueueId → Packet → Instr} {op : Nat} {a f : Bool} {body : Body} {H : Running → State → Prop} {out : Running → State → State}
    (hx : ∀ q pkt s, exec (mk q pkt) s = opcodeStep op a f body q pkt s) (hb : ∀ c s, H c s → s.runBody body c = out c s) : Effect mk op a f H out := by
  intro s q pkt hs hp hh
  rw [hx, opcodeStep_starts hs, start_passes hp, hb _ _ hh]

/-- The same for a body that completes at once. -/
theorem effect_ok {mk : QueueId → Packet → Instr} {op : Nat} {a f : Bool} {body : Body} {H : Running → State → Prop} {t : Running → State → State} {r : Running → State → Reply}
    (hx : ∀ q pkt s, exec (mk q pkt) s = opcodeStep op a f body q pkt s) (hb : ∀ c s, H c s → body c s = .ok (t c s, some (r c s))) :
    Effect mk op a f H (fun c s => (t c s).reply c.uid (r c s)) :=
  effect_of hx (fun c s h => runBody_ok (hb c s h))

/-- The same for a body whose command goes on. -/
theorem effect_going {mk : QueueId → Packet → Instr} {op : Nat} {a f : Bool} {body : Body} {H : Running → State → Prop} {t : Running → State → State}
    (hx : ∀ q pkt s, exec (mk q pkt) s = opcodeStep op a f body q pkt s) (hb : ∀ c s, H c s → body c s = .ok (t c s, none)) :
    Effect mk op a f H t :=
  effect_of hx (fun c s h => runBody_going (hb c s h))

end Sys2Proof.Machine
end

