-- ==== Sys2Proof/Laws/Memory.lean ====
section
/-! SUPPORT. The laws of the byte memories: every operation keeps the canonical form, a byte reads back what was last written to it. -/

namespace Sys2Proof.Machine
open Sys2Proof

/-! ### Rising lists -/

theorem rising_weaken {lo hi : Nat} {l : List Nat} (h : rising hi l = true) (hl : lo ≤ hi) : rising lo l = true := by
  cases l with
  | nil => rfl
  | cons a l => simp only [rising, Bool.and_eq_true, decide_eq_true_eq] at h ⊢; exact ⟨by omega, h.2⟩

theorem rising_filter (p : Nat → Bool) : ∀ (l : List Nat) (lo : Nat), rising lo l = true → rising lo (l.filter p) = true
  | [], _, _ => rfl
  | a :: l, lo, h => by
    simp only [rising, Bool.and_eq_true, decide_eq_true_eq] at h
    by_cases hp : p a = true
    · simp only [List.filter_cons, hp, if_true, rising, Bool.and_eq_true, decide_eq_true_eq]
      exact ⟨h.1, rising_filter p l _ h.2⟩
    · simp only [List.filter_cons, hp, if_false, Bool.false_eq_true]
      exact rising_weaken (rising_filter p l _ h.2) (by omega)

theorem rising_setNum (a : Nat) : ∀ (l : List Nat) (lo : Nat), lo ≤ a → rising lo l = true → rising lo (setNum a l) = true
  | [], lo, ha, _ => by simp [setNum, rising, ha]
  | x :: l, lo, ha, h => by
    simp only [rising, Bool.and_eq_true, decide_eq_true_eq] at h
    unfold setNum
    split
    · simp only [rising, Bool.and_eq_true, decide_eq_true_eq]; exact ⟨ha, by omega, h.2⟩
    · split
      · simp only [rising, Bool.and_eq_true, decide_eq_true_eq]; exact h
      · simp only [rising, Bool.and_eq_true, decide_eq_true_eq]
        exact ⟨h.1, rising_setNum a l _ (by omega) h.2⟩

theorem rising_setNums : ∀ (as l : List Nat), rising 0 l = true → rising 0 (as.foldl (fun l a => setNum a l) l) = true
  | [], _, h => h
  | a :: as, l, h => rising_setNums as _ (rising_setNum a l 0 (Nat.zero_le a) h)

/-! ### Cells -/

/-- The canonical form of a list of cells, from a lower bound on the addresses. -/
def cellsOk (lo : Nat) (l : List Host.Cell) : Bool := rising lo (l.map (·.1)) && l.all (fun c => c.2 ≠ 0)

theorem cellsOk_cons {lo : Nat} {c : Host.Cell} {l : List Host.Cell} :
    cellsOk lo (c :: l) = true ↔ lo ≤ c.1 ∧ c.2 ≠ 0 ∧ cellsOk (c.1 + 1) l = true := by
  simp [cellsOk, rising]; tauto

theorem cellsOk_weaken {lo hi : Nat} {l : List Host.Cell} (h : cellsOk hi l = true) (hl : lo ≤ hi) : cellsOk lo l = true := by
  simp only [cellsOk, Bool.and_eq_true] at h ⊢
  exact ⟨rising_weaken h.1 hl, h.2⟩

theorem cellsOk_filter (p : Host.Cell → Bool) : ∀ (l : List Host.Cell) (lo : Nat), cellsOk lo l = true → cellsOk lo (l.filter p) = true
  | [], _, _ => rfl
  | c :: l, lo, h => by
    rw [cellsOk_cons] at h
    by_cases hp : p c = true
    · rw [List.filter_cons_of_pos hp, cellsOk_cons]
      exact ⟨h.1, h.2.1, cellsOk_filter p l _ h.2.2⟩
    · rw [List.filter_cons_of_neg hp]
      exact cellsOk_weaken (cellsOk_filter p l _ h.2.2) (by omega)

theorem cellsOk_setCell (a : Nat) (b : Byte) : ∀ (l : List Host.Cell) (lo : Nat), lo ≤ a → cellsOk lo l = true → cellsOk lo (setCell a b l) = true
  | [], lo, ha, _ => by
    unfold setCell
    split
    · rfl
    · rw [cellsOk_cons]; exact ⟨ha, by assumption, rfl⟩
  | (x, y) :: l, lo, ha, h => by
    have h' := cellsOk_cons.mp h
    unfold setCell
    split
    · split
      · exact h
      · rw [cellsOk_cons]
        exact ⟨ha, by assumption, cellsOk_cons.mpr ⟨by simp only; omega, h'.2.1, h'.2.2⟩⟩
    · split
      · split
        · exact cellsOk_weaken h'.2.2 (by simp only; omega)
        · rw [cellsOk_cons]; subst_vars; exact ⟨h'.1, by assumption, h'.2.2⟩
      · rw [cellsOk_cons]
        exact ⟨h'.1, h'.2.1, cellsOk_setCell a b l _ (by simp only; omega) h'.2.2⟩

/-- What a list of cells holds at an address. -/
def cellAt (l : List Host.Cell) (x : Nat) : Byte := ((l.find? (fun c => c.1 == x)).map (·.2)).getD 0

theorem cellAt_cons (c : Host.Cell) (l : List Host.Cell) (x : Nat) : cellAt (c :: l) x = if c.1 = x then c.2 else cellAt l x := by
  by_cases h : c.1 = x <;> simp [cellAt, h]

theorem cellAt_below : ∀ (l : List Host.Cell) (lo x : Nat), cellsOk lo l = true → x < lo → cellAt l x = 0
  | [], _, _, _, _ => rfl
  | c :: l, lo, x, h, hx => by
    rw [cellsOk_cons] at h
    rw [cellAt_cons, if_neg (by omega)]
    exact cellAt_below l _ x h.2.2 (by omega)

theorem cellAt_setCell (a : Nat) (b : Byte) : ∀ (l : List Host.Cell) (lo x : Nat), cellsOk lo l = true →
    cellAt (setCell a b l) x = if x = a then b else cellAt l x
  | [], _, x, _ => by
    unfold setCell
    by_cases hb : b = 0
    · simp [hb, cellAt]
    · rw [if_neg hb, cellAt_cons]
      by_cases hx : x = a
      · simp [hx]
      · rw [if_neg (fun e => hx e.symm), if_neg hx]
  | (p, q) :: l, lo, x, h => by
    have h' := cellsOk_cons.mp h
    simp only at h'
    have below : ∀ y, y < p + 1 → cellAt l y = 0 := fun y hy => cellAt_below l _ y h'.2.2 hy
    unfold setCell
    split
    · rename_i hap
      split
      · rename_i hb
        by_cases hx : x = a
        · rw [if_pos hx, cellAt_cons, if_neg (by simp only; omega), hx, below a (by omega), hb]
        · rw [if_neg hx]
      · rw [cellAt_cons]
        by_cases hx : x = a
        · simp [hx]
        · rw [if_neg (fun e => hx e.symm), if_neg hx]
    · split
      · rename_i _ hap
        subst hap
        split
        · rename_i hb
          by_cases hx : x = a
          · rw [if_pos hx, hx, below a (by omega), hb]
          · rw [if_neg hx, cellAt_cons, if_neg (fun e => hx e.symm)]
        · rw [cellAt_cons, cellAt_cons]
          by_cases hx : x = a
          · simp [hx]
          · rw [if_neg (fun e => hx e.symm), if_neg hx, if_neg (fun e => hx e.symm)]
      · rw [cellAt_cons, cellAt_cons, cellAt_setCell a b l _ x h'.2.2]
        by_cases hx : p = x
        · simp only [hx, if_true]; rw [if_neg (by omega)]
        · simp only [hx, if_false]

/-- Writing bytes into cells one after the other. -/
theorem cells_write : ∀ (bs : List Byte) (a : Nat) (l : List Host.Cell), cellsOk 0 l = true →
    cellsOk 0 ((bs.foldl (fun (st : Nat × List Host.Cell) b => (st.1 + 1, setCell st.1 b st.2)) (a, l)).2) = true ∧
    ∀ x, cellAt ((bs.foldl (fun (st : Nat × List Host.Cell) b => (st.1 + 1, setCell st.1 b st.2)) (a, l)).2) x =
      if a ≤ x ∧ x < a + bs.length then (bs[x - a]?).getD 0 else cellAt l x
  | [], a, l, h => ⟨h, fun x => by rw [if_neg (by simp only [List.length_nil]; omega)]; rfl⟩
  | b :: bs, a, l, h => by
    have ih := cells_write bs (a + 1) (setCell a b l) (cellsOk_setCell a b l 0 (Nat.zero_le a) h)
    refine ⟨ih.1, fun x => ?_⟩
    rw [List.foldl_cons, ih.2 x, cellAt_setCell a b l 0 x h]
    simp only [List.length_cons]
    by_cases h1 : a + 1 ≤ x ∧ x < a + 1 + bs.length
    · rw [if_pos h1, if_pos (by omega)]
      rw [show x - a = (x - (a + 1)).succ by omega, List.getElem?_cons_succ]
    · rw [if_neg h1]
      by_cases h2 : x = a
      · rw [if_pos h2, if_pos (by omega), h2]; simp
      · rw [if_neg h2, if_neg (by omega)]

/-! ### Memories -/

theorem Mem.wf_iff (m : Mem) : m.wf = true ↔ cellsOk 0 m.cells = true ∧ rising 0 m.poison = true := by
  simp [Mem.wf, cellsOk]

theorem Mem.get_eq (m : Mem) (x : Nat) : m.get x = cellAt m.cells x := rfl

/-- The empty memory is canonical. -/
theorem Mem.wf_empty : ({} : Mem).wf = true := by decide

/-- Whatever a memory lists, its tidy form is canonical. -/
theorem Mem.wf_tidy (m : Mem) : m.tidy.wf = true := by
  rw [Mem.wf_iff]
  constructor
  · show cellsOk 0 (m.cells.foldr (fun c l => setCell c.1 c.2 l) []) = true
    induction m.cells with
    | nil => rfl
    | cons c l ih => exact cellsOk_setCell c.1 c.2 _ 0 (Nat.zero_le _) ih
  · show rising 0 (m.poison.foldr setNum []) = true
    induction m.poison with
    | nil => rfl
    | cons a l ih => exact rising_setNum a _ 0 (Nat.zero_le _) ih

theorem setCell_canonical (c : Host.Cell) (l : List Host.Cell) (h : cellsOk (c.1 + 1) l = true) (hc : c.2 ≠ 0) : setCell c.1 c.2 l = c :: l := by
  cases l with
  | nil => show (if c.2 = 0 then _ else _) = _; rw [if_neg hc]
  | cons d l =>
    rw [cellsOk_cons] at h
    obtain ⟨x, y⟩ := d
    simp only at h
    show (if c.1 < x then (if c.2 = 0 then _ else _) else _) = _
    rw [if_pos (by omega), if_neg hc]

theorem tidy_cells : ∀ (l : List Host.Cell) (lo : Nat), cellsOk lo l = true → l.foldr (fun c l => setCell c.1 c.2 l) [] = l
  | [], _, _ => rfl
  | c :: l, lo, h => by
    rw [cellsOk_cons] at h
    rw [List.foldr_cons, tidy_cells l _ h.2.2]
    exact setCell_canonical c l h.2.2 h.2.1

theorem tidy_poison : ∀ (l : List Nat) (lo : Nat), rising lo l = true → l.foldr setNum [] = l
  | [], _, _ => rfl
  | a :: l, lo, h => by
    simp only [rising, Bool.and_eq_true, decide_eq_true_eq] at h
    rw [List.foldr_cons, tidy_poison l _ h.2]
    cases l with
    | nil => rfl
    | cons x l =>
      simp only [rising, Bool.and_eq_true, decide_eq_true_eq] at h
      simp [setNum, show a < x by omega]

/-- A canonical memory is its own tidy form. -/
theorem Mem.tidy_of_wf (m : Mem) (h : m.wf = true) : m.tidy = m := by
  rw [Mem.wf_iff] at h
  cases m with
  | mk cells poison =>
    simp only [Mem.tidy] at h ⊢
    rw [tidy_cells cells 0 h.1, tidy_poison poison 0 h.2]

theorem Mem.wf_write (m : Mem) (a : Nat) (bs : List Byte) (h : m.wf = true) : (m.write a bs).wf = true := by
  rw [Mem.wf_iff] at h ⊢
  exact ⟨(cells_write bs a m.cells h.1).1, rising_filter _ _ _ h.2⟩

theorem Mem.wf_mark (m : Mem) (a n : Nat) (h : m.wf = true) : (m.mark a n).wf = true := by
  rw [Mem.wf_iff] at h ⊢
  unfold Mem.mark
  split
  · exact h
  · refine ⟨h.1, ?_⟩
    have := rising_setNums ((List.range ((a + n - 1) / 64 - a / 64 + 1)).map (a / 64 + ·)) m.poison h.2
    rwa [List.foldl_map] at this

theorem Mem.wf_put (m : Mem) (a : Nat) (bs : List Byte) (p : Bool) (h : m.wf = true) : (m.put a bs p).wf = true := by
  unfold Mem.put
  split
  · exact Mem.wf_mark _ _ _ (Mem.wf_write m a bs h)
  · exact Mem.wf_write m a bs h

theorem Mem.wf_clear (m : Mem) (a n : Nat) (h : m.wf = true) : (m.clear a n).wf = true := by
  rw [Mem.wf_iff] at h ⊢
  exact ⟨cellsOk_filter _ _ _ h.1, rising_filter _ _ _ h.2⟩

/-- A byte reads what was last written to it; every other byte is left alone. -/
theorem Mem.get_write (m : Mem) (a x : Nat) (bs : List Byte) (h : m.wf = true) :
    (m.write a bs).get x = if a ≤ x ∧ x < a + bs.length then (bs[x - a]?).getD 0 else m.get x := by
  rw [Mem.wf_iff] at h
  rw [Mem.get_eq, Mem.get_eq]
  exact (cells_write bs a m.cells h.1).2 x

theorem Mem.get_mark (m : Mem) (a n x : Nat) : (m.mark a n).get x = m.get x := by
  unfold Mem.mark; split <;> rfl

end Sys2Proof.Machine
end

