-- ==== Sys2Proof/Laws/Tidy.lean ====
section
/-! SUPPORT. What ends every command: its memories are canonical afterwards, and canonical memories are left as they are. -/

namespace Sys2Proof.Machine
open Sys2Proof

theorem tidyObjs_of_wf (l : List Obj) (h : l.all (fun o => o.mem.wf) = true) : tidyObjs l = l := by
  rw [List.all_eq_true] at h
  unfold tidyObjs
  conv => rhs; rw [← List.map_id l]
  exact List.map_congr_left (fun o ho => by simp only [Mem.tidy_of_wf _ (h o ho), id])

theorem tidyCores_of_wf (l : List Core) (h : l.all (fun c => c.store.wf && c.saved.all (fun v => v.store.wf)) = true) : tidyCores l = l := by
  rw [List.all_eq_true] at h
  unfold tidyCores
  conv => rhs; rw [← List.map_id l]
  refine List.map_congr_left (fun c hc => ?_)
  have := h c hc
  rw [Bool.and_eq_true, List.all_eq_true] at this
  have hs : c.saved.map (fun v => { v with store := v.store.tidy }) = c.saved := by
    conv => rhs; rw [← List.map_id c.saved]
    exact List.map_congr_left (fun v hv => by simp only [Mem.tidy_of_wf _ (this.2 v hv), id])
  simp only [Mem.tidy_of_wf _ this.1, hs, id]

theorem tidyHost_of_wf (l : List (Option (BitVec 20) × Mem)) (h : l.all (fun p => p.2.wf) = true) : tidyHost l = l := by
  rw [List.all_eq_true] at h
  unfold tidyHost
  conv => rhs; rw [← List.map_id l]
  exact List.map_congr_left (fun p hp => by simp only [Mem.tidy_of_wf _ (h p hp), id])

/-- Canonical memories are their own tidy form. -/
theorem State.tidy_of_memOk (s : State) (h : s.memOk = true) : s.tidy = s := by
  simp only [State.memOk, Bool.and_eq_true] at h
  unfold State.tidy
  rw [tidyObjs_of_wf _ h.1.1, tidyCores_of_wf _ h.1.2, tidyHost_of_wf _ h.2]

/-- Whatever the memories list, they are canonical after a command. -/
theorem State.memOk_tidy (s : State) : s.tidy.memOk = true := by
  simp only [State.memOk, State.tidy, Bool.and_eq_true]
  refine ⟨⟨?_, ?_⟩, ?_⟩
  · simp only [tidyObjs, List.all_map, Function.comp_def, Mem.wf_tidy, List.all_eq_true, implies_true]
  · simp [tidyCores, Function.comp_def, Mem.wf_tidy]
  · simp only [tidyHost, List.all_map, Function.comp_def, Mem.wf_tidy, List.all_eq_true, implies_true]

/-- A command that leaves the memories canonical has them as its effect left them. -/
theorem State.after_of_memOk (s t : State) (h : t.memOk = true) : s.after t = { t with pending := s.pending } := by
  unfold State.after; rw [State.tidy_of_memOk t h]

/-- An effect that does not touch the memories leaves them canonical. -/
theorem State.memOk_congr {s t : State} (hs : s.memOk = true) (hm : t.memory.objs = s.memory.objs) (hc : t.cores.cores = s.cores.cores) (hh : t.host.mem = s.host.mem) :
    t.memOk = true := by
  unfold State.memOk at hs ⊢; rw [hm, hc, hh]; exact hs

end Sys2Proof.Machine
end

