-- ==== Sys2Proof/Laws/Exec.lean ====
section
/-! SUPPORT. How every command answers, said once: an effect of the fast clocks' rows, an effect of the always-on rows, or the start of an opcode row's packet. -/

namespace Sys2Proof.Machine
open Sys2Proof

/-- The three ways a command answers. -/
inductive Answers (c : Instr) : Prop
  | fast (f : State → State) (h : ∀ s, exec c s = s.run f) : Answers c
  | always (f : State → State) (ha : alwaysOn c = true) (h : ∀ s, exec c s = s.runAo f) : Answers c
  | starts (o : Nat) (a p : Bool) (b : Body) (q : QueueId) (pkt : Packet) (hw : c.wf = opcodeWf o pkt) (h : ∀ s, exec c s = opcodeStep o a p b q pkt s) : Answers c

theorem exec_answers (c : Instr) : Answers c := by
  cases c with
  | queueCreate _ _ => exact .starts _ _ _ _ _ _ rfl (fun s => by simp only [exec]; unfold execQueueCreate; rfl)
  | queueDestroy _ _ => exact .starts _ _ _ _ _ _ rfl (fun s => by simp only [exec]; unfold execQueueDestroy; rfl)
  | queueStart _ _ => exact .starts _ _ _ _ _ _ rfl (fun s => by simp only [exec]; unfold execQueueStart; rfl)
  | queueStop _ _ => exact .starts _ _ _ _ _ _ rfl (fun s => by simp only [exec]; unfold execQueueStop; rfl)
  | ctxCreate _ _ => exact .starts _ _ _ _ _ _ rfl (fun s => by simp only [exec]; unfold execCtxCreate; rfl)
  | ctxDestroy _ _ => exact .starts _ _ _ _ _ _ rfl (fun s => by simp only [exec]; unfold execCtxDestroy; rfl)
  | ctxPreempt _ _ => exact .starts _ _ _ _ _ _ rfl (fun s => by simp only [exec]; unfold execCtxPreempt; rfl)
  | ctxSetMode _ _ => exact .starts _ _ _ _ _ _ rfl (fun s => by simp only [exec]; unfold execCtxSetMode; rfl)
  | partCarve _ _ => exact .starts _ _ _ _ _ _ rfl (fun s => by simp only [exec]; unfold execPartCarve; rfl)
  | partReset _ _ => exact .starts _ _ _ _ _ _ rfl (fun s => by simp only [exec]; unfold execPartReset; rfl)
  | nop _ _ => exact .starts _ _ _ _ _ _ rfl (fun s => by simp only [exec]; unfold execNop; rfl)
  | ticketRelease _ _ => exact .starts _ _ _ _ _ _ rfl (fun s => by simp only [exec]; unfold execTicketRelease; rfl)
  | objCreate _ _ => exact .starts _ _ _ _ _ _ rfl (fun s => by simp only [exec]; unfold execObjCreate; rfl)
  | objFree _ _ => exact .starts _ _ _ _ _ _ rfl (fun s => by simp only [exec]; unfold execObjFree; rfl)
  | objSetPolicy _ _ => exact .starts _ _ _ _ _ _ rfl (fun s => by simp only [exec]; unfold execObjSetPolicy; rfl)
  | objQuery _ _ => exact .starts _ _ _ _ _ _ rfl (fun s => by simp only [exec]; unfold execObjQuery; rfl)
  | progLoad _ _ => exact .starts _ _ _ _ _ _ rfl (fun s => by simp only [exec]; unfold execProgLoad; rfl)
  | progLaunch _ _ => exact .starts _ _ _ _ _ _ rfl (fun s => by simp only [exec]; unfold execProgLaunch; rfl)
  | planLoad _ _ => exact .starts _ _ _ _ _ _ rfl (fun s => by simp only [exec]; unfold execPlanLoad; rfl)
  | planLaunch _ _ => exact .starts _ _ _ _ _ _ rfl (fun s => by simp only [exec]; unfold execPlanLaunch; rfl)
  | fillGroupCreate _ _ => exact .starts _ _ _ _ _ _ rfl (fun s => by simp only [exec]; unfold execFillGroupCreate; rfl)
  | fillSubmit _ _ => exact .starts _ _ _ _ _ _ rfl (fun s => by simp only [exec]; unfold execFillSubmit; rfl)
  | fillFlush _ _ => exact .starts _ _ _ _ _ _ rfl (fun s => by simp only [exec]; unfold execFillFlush; rfl)
  | fillGroupDestroy _ _ => exact .starts _ _ _ _ _ _ rfl (fun s => by simp only [exec]; unfold execFillGroupDestroy; rfl)
  | fillDeadlineExpiry _ _ => exact .fast _ (fun s => by simp only [exec]; unfold execFillDeadlineExpiry; rfl)
  | stream _ _ => exact .starts _ _ _ _ _ _ rfl (fun s => by simp only [exec]; unfold execStream; rfl)
  | fused _ _ => exact .starts _ _ _ _ _ _ rfl (fun s => by simp only [exec]; unfold execFused; rfl)
  | fence _ _ => exact .starts _ _ _ _ _ _ rfl (fun s => by simp only [exec]; unfold execFence; rfl)
  | hostCopy _ _ => exact .starts _ _ _ _ _ _ rfl (fun s => by simp only [exec]; unfold execHostCopy; rfl)
  | fillConst _ _ => exact .starts _ _ _ _ _ _ rfl (fun s => by simp only [exec]; unfold execFillConst; rfl)
  | reduceScatter _ _ => exact .starts _ _ _ _ _ _ rfl (fun s => by simp only [exec]; unfold execReduceScatter; rfl)
  | allGather _ _ => exact .starts _ _ _ _ _ _ rfl (fun s => by simp only [exec]; unfold execAllGather; rfl)
  | allReduce _ _ => exact .starts _ _ _ _ _ _ rfl (fun s => by simp only [exec]; unfold execAllReduce; rfl)
  | broadcast _ _ => exact .starts _ _ _ _ _ _ rfl (fun s => by simp only [exec]; unfold execBroadcast; rfl)
  | barrier _ _ => exact .starts _ _ _ _ _ _ rfl (fun s => by simp only [exec]; unfold execBarrier; rfl)
  | scaleVote _ _ => exact .starts _ _ _ _ _ _ rfl (fun s => by simp only [exec]; unfold execScaleVote; rfl)
  | embTableCreate _ _ => exact .starts _ _ _ _ _ _ rfl (fun s => by simp only [exec]; unfold execEmbTableCreate; rfl)
  | embLookup _ _ => exact .starts _ _ _ _ _ _ rfl (fun s => by simp only [exec]; unfold execEmbLookup; rfl)
  | embUpdate _ _ => exact .starts _ _ _ _ _ _ rfl (fun s => by simp only [exec]; unfold execEmbUpdate; rfl)
  | yarrowLoad _ _ => exact .starts _ _ _ _ _ _ rfl (fun s => by simp only [exec]; unfold execYarrowLoad; rfl)
  | yarrowWriteback _ _ => exact .starts _ _ _ _ _ _ rfl (fun s => by simp only [exec]; unfold execYarrowWriteback; rfl)
  | cruGroupCreate _ _ => exact .starts _ _ _ _ _ _ rfl (fun s => by simp only [exec]; unfold execCruGroupCreate; rfl)
  | cruApply _ _ _ => exact .starts _ _ _ _ _ _ rfl (fun s => by simp only [exec]; unfold execCruApply; rfl)
  | cruSetScale _ _ => exact .starts _ _ _ _ _ _ rfl (fun s => by simp only [exec]; unfold execCruSetScale; rfl)
  | cruDeferredFlush _ _ => exact .starts _ _ _ _ _ _ rfl (fun s => by simp only [exec]; unfold execCruDeferredFlush; rfl)
  | detLedgerRead _ _ => exact .starts _ _ _ _ _ _ rfl (fun s => by simp only [exec]; unfold execDetLedgerRead; rfl)
  | digest _ _ => exact .starts _ _ _ _ _ _ rfl (fun s => by simp only [exec]; unfold execDigest; rfl)
  | matchPair _ _ => exact .starts _ _ _ _ _ _ rfl (fun s => by simp only [exec]; unfold execMatchPair; rfl)
  | matchUnpair _ _ => exact .starts _ _ _ _ _ _ rfl (fun s => by simp only [exec]; unfold execMatchUnpair; rfl)
  | repairRequest _ _ => exact .starts _ _ _ _ _ _ rfl (fun s => by simp only [exec]; unfold execRepairRequest; rfl)
  | unitQuery _ _ => exact .starts _ _ _ _ _ _ rfl (fun s => by simp only [exec]; unfold execUnitQuery; rfl)
  | scrub _ _ => exact .starts _ _ _ _ _ _ rfl (fun s => by simp only [exec]; unfold execScrub; rfl)
  | fwUpdate _ _ => exact .starts _ _ _ _ _ _ rfl (fun s => by simp only [exec]; unfold execFwUpdate; rfl)
  | cmpIndex _ _ => exact .starts _ _ _ _ _ _ rfl (fun s => by simp only [exec]; unfold execCmpIndex; rfl)
  | cmpVerify _ _ => exact .starts _ _ _ _ _ _ rfl (fun s => by simp only [exec]; unfold execCmpVerify; rfl)
  | exportShard _ _ => exact .starts _ _ _ _ _ _ rfl (fun s => by simp only [exec]; unfold execExportShard; rfl)
  | campionOpen _ _ => exact .starts _ _ _ _ _ _ rfl (fun s => by simp only [exec]; unfold execCampionOpen; rfl)
  | campionClose _ _ => exact .starts _ _ _ _ _ _ rfl (fun s => by simp only [exec]; unfold execCampionClose; rfl)
  | doorbellWrite _ _ _ => exact .fast _ (fun s => by simp only [exec]; unfold execDoorbellWrite; rfl)
  | adminQueueCfgWrite _ _ _ _ _ => exact .fast _ (fun s => by simp only [exec]; unfold execAdminQueueCfgWrite; rfl)
  | packetFetch _ => exact .fast _ (fun s => by simp only [exec]; unfold execPacketFetch; rfl)
  | commandDispatch _ => exact .fast _ (fun s => by simp only [exec]; unfold execCommandDispatch; rfl)
  | commandComplete _ => exact .fast _ (fun s => by simp only [exec]; unfold execCommandComplete; rfl)
  | commandTimeout _ => exact .fast _ (fun s => by simp only [exec]; unfold execCommandTimeout; rfl)
  | seqNop _ => exact .fast _ (fun s => by simp only [exec]; unfold execSeqNop; rfl)
  | endProg _ => exact .fast _ (fun s => by simp only [exec]; unfold execEndProg; rfl)
  | loopBegin _ => exact .fast _ (fun s => by simp only [exec]; unfold execLoopBegin; rfl)
  | loopEnd _ => exact .fast _ (fun s => by simp only [exec]; unfold execLoopEnd; rfl)
  | yield _ => exact .fast _ (fun s => by simp only [exec]; unfold execYield; rfl)
  | bar _ => exact .fast _ (fun s => by simp only [exec]; unfold execBar; rfl)
  | barrierRelease _ => exact .fast _ (fun s => by simp only [exec]; unfold execBarrierRelease; rfl)
  | tile _ _ _ => exact .fast _ (fun s => by simp only [exec]; unfold execTile; rfl)
  | conv _ _ _ => exact .fast _ (fun s => by simp only [exec]; unfold execConv; rfl)
  | drain _ _ _ => exact .fast _ (fun s => by simp only [exec]; unfold execDrain; rfl)
  | vec _ => exact .fast _ (fun s => by simp only [exec]; unfold execVec; rfl)
  | streamOperation _ _ => exact .fast _ (fun s => by simp only [exec]; unfold execStreamOperation; rfl)
  | ladle _ _ => exact .fast _ (fun s => by simp only [exec]; unfold execLadle; rfl)
  | madd _ => exact .fast _ (fun s => by simp only [exec]; unfold execMadd; rfl)
  | lookup _ => exact .fast _ (fun s => by simp only [exec]; unfold execLookup; rfl)
  | update _ => exact .fast _ (fun s => by simp only [exec]; unfold execUpdate; rfl)
  | hash _ => exact .fast _ (fun s => by simp only [exec]; unfold execHash; rfl)
  | operationComplete _ _ => exact .fast _ (fun s => by simp only [exec]; unfold execOperationComplete; rfl)
  | phaseSwitch _ => exact .fast _ (fun s => by simp only [exec]; unfold execPhaseSwitch; rfl)
  | moveSlotGrant _ => exact .fast _ (fun s => by simp only [exec]; unfold execMoveSlotGrant; rfl)
  | watchdogExpiry _ _ => exact .fast _ (fun s => by simp only [exec]; unfold execWatchdogExpiry; rfl)
  | transferLanded _ _ => exact .fast _ (fun s => by simp only [exec]; unfold execTransferLanded; rfl)
  | parkLimitExpiry _ => exact .fast _ (fun s => by simp only [exec]; unfold execParkLimitExpiry; rfl)
  | farRetryReissue _ _ => exact .fast _ (fun s => by simp only [exec]; unfold execFarRetryReissue; rfl)
  | runnerInterval => exact .fast _ (fun s => by simp only [exec]; unfold execRunnerInterval; rfl)
  | refreshWindow => exact .fast _ (fun s => by simp only [exec]; unfold execRefreshWindow; rfl)
  | farTimeout _ _ => exact .fast _ (fun s => by simp only [exec]; unfold execFarTimeout; rfl)
  | rdData _ _ _ _ _ _ => exact .fast _ (fun s => by simp only [exec]; unfold execRdData; rfl)
  | memAckReply _ _ _ _ => exact .fast _ (fun s => by simp only [exec]; unfold execMemAckReply; rfl)
  | retryReply _ _ _ _ => exact .fast _ (fun s => by simp only [exec]; unfold execRetryReply; rfl)
  | errorReply _ _ _ _ => exact .fast _ (fun s => by simp only [exec]; unfold execErrorReply; rfl)
  | capsData _ _ => exact .fast _ (fun s => by simp only [exec]; unfold execCapsData; rfl)
  | pong _ _ _ => exact .fast _ (fun s => by simp only [exec]; unfold execPong; rfl)
  | xoState _ _ _ _ => exact .fast _ (fun s => by simp only [exec]; unfold execXoState; rfl)
  | xoSlotTimeout _ _ => exact .fast _ (fun s => by simp only [exec]; unfold execXoSlotTimeout; rfl)
  | dataFlit _ _ _ _ => exact .fast _ (fun s => by simp only [exec]; unfold execDataFlit; rfl)
  | idleFlit _ _ _ _ => exact .fast _ (fun s => by simp only [exec]; unfold execIdleFlit; rfl)
  | nak _ _ _ _ => exact .fast _ (fun s => by simp only [exec]; unfold execNak; rfl)
  | nakResendTimer _ => exact .fast _ (fun s => by simp only [exec]; unfold execNakResendTimer; rfl)
  | retrain _ _ => exact .fast _ (fun s => by simp only [exec]; unfold execRetrain; rfl)
  | width _ _ _ _ => exact .fast _ (fun s => by simp only [exec]; unfold execWidth; rfl)
  | train _ _ _ _ => exact .fast _ (fun s => by simp only [exec]; unfold execTrain; rfl)
  | codewordLockLoss _ _ => exact .fast _ (fun s => by simp only [exec]; unfold execCodewordLockLoss; rfl)
  | portTrained _ => exact .fast _ (fun s => by simp only [exec]; unfold execPortTrained; rfl)
  | trainingLimitExpiry _ => exact .fast _ (fun s => by simp only [exec]; unfold execTrainingLimitExpiry; rfl)
  | linkDrop _ => exact .fast _ (fun s => by simp only [exec]; unfold execLinkDrop; rfl)
  | reqLifeExpiry _ _ => exact .fast _ (fun s => by simp only [exec]; unfold execReqLifeExpiry; rfl)
  | cmdPacket _ _ => exact .fast _ (fun s => by simp only [exec]; unfold execCmdPacket; rfl)
  | collPacket _ _ => exact .fast _ (fun s => by simp only [exec]; unfold execCollPacket; rfl)
  | barPacket _ _ => exact .fast _ (fun s => by simp only [exec]; unfold execBarPacket; rfl)
  | digestPacket _ _ => exact .fast _ (fun s => by simp only [exec]; unfold execDigestPacket; rfl)
  | ackPacket _ _ => exact .fast _ (fun s => by simp only [exec]; unfold execAckPacket; rfl)
  | completionCacheExpiry _ _ => exact .fast _ (fun s => by simp only [exec]; unfold execCompletionCacheExpiry; rfl)
  | matchPairReceive _ _ => exact .fast _ (fun s => by simp only [exec]; unfold execMatchPairReceive; rfl)
  | matchForward _ _ => exact .fast _ (fun s => by simp only [exec]; unfold execMatchForward; rfl)
  | matchDigests _ _ => exact .fast _ (fun s => by simp only [exec]; unfold execMatchDigests; rfl)
  | matchTiles _ _ => exact .fast _ (fun s => by simp only [exec]; unfold execMatchTiles; rfl)
  | matchUnpairReceive _ _ => exact .fast _ (fun s => by simp only [exec]; unfold execMatchUnpairReceive; rfl)
  | pageResponse _ _ _ _ => exact .fast _ (fun s => by simp only [exec]; unfold execPageResponse; rfl)
  | atsInvalidation _ _ _ => exact .fast _ (fun s => by simp only [exec]; unfold execAtsInvalidation; rfl)
  | hostWindowAccess _ _ _ _ _ => exact .fast _ (fun s => by simp only [exec]; unfold execHostWindowAccess; rfl)
  | hostSnoop _ _ _ _ _ => exact .fast _ (fun s => by simp only [exec]; unfold execHostSnoop; rfl)
  | hdmDecoderCommit _ => exact .fast _ (fun s => by simp only [exec]; unfold execHdmDecoderCommit; rfl)
  | hostLinkDown _ => exact .fast _ (fun s => by simp only [exec]; unfold execHostLinkDown; rfl)
  | hostLinkUp _ _ _ _ => exact .fast _ (fun s => by simp only [exec]; unfold execHostLinkUp; rfl)
  | hostHoldExpiry _ => exact .fast _ (fun s => by simp only [exec]; unfold execHostHoldExpiry; rfl)
  | bucketEvent _ _ _ => exact .always _ rfl (fun s => by simp only [exec]; unfold execBucketEvent; rfl)
  | arrayRemapApply _ _ => exact .fast _ (fun s => by simp only [exec]; unfold execArrayRemapApply; rfl)
  | localViewAck _ _ _ => exact .always _ rfl (fun s => by simp only [exec]; unfold execLocalViewAck; rfl)
  | riserRewriteTimer _ => exact .always _ rfl (fun s => by simp only [exec]; unfold execRiserRewriteTimer; rfl)
  | riserCompareTimer _ => exact .always _ rfl (fun s => by simp only [exec]; unfold execRiserCompareTimer; rfl)
  | spareSelfTest _ => exact .always _ rfl (fun s => by simp only [exec]; unfold execSpareSelfTest; rfl)
  | patrolScrub _ _ => exact .fast _ (fun s => by simp only [exec]; unfold execPatrolScrub; rfl)
  | laserPowerSample _ _ => exact .fast _ (fun s => by simp only [exec]; unfold execLaserPowerSample; rfl)
  | sensorReading _ _ _ => exact .always _ rfl (fun s => by simp only [exec]; unfold execSensorReading; rfl)
  | limitStepDown _ => exact .fast _ (fun s => by simp only [exec]; unfold execLimitStepDown; rfl)
  | overcurrentAlert _ => exact .always _ rfl (fun s => by simp only [exec]; unfold execOvercurrentAlert; rfl)
  | overcurrentRelease => exact .always _ rfl (fun s => by simp only [exec]; unfold execOvercurrentRelease; rfl)
  | powerLoopTick _ => exact .fast _ (fun s => by simp only [exec]; unfold execPowerLoopTick; rfl)
  | widthIdleExpiry _ => exact .fast _ (fun s => by simp only [exec]; unfold execWidthIdleExpiry; rfl)
  | coreGateIdle _ => exact .fast _ (fun s => by simp only [exec]; unfold execCoreGateIdle; rfl)
  | pllLock _ _ => exact .fast _ (fun s => by simp only [exec]; unfold execPllLock; rfl)
  | campionStallExpiry _ => exact .fast _ (fun s => by simp only [exec]; unfold execCampionStallExpiry; rfl)
  | campionHeadWrite _ _ _ => exact .fast _ (fun s => by simp only [exec]; unfold execCampionHeadWrite; rfl)
  | colRingWrite _ _ _ _ => exact .fast _ (fun s => by simp only [exec]; unfold execColRingWrite; rfl)
  | gpioCfgWrite _ _ _ => exact .fast _ (fun s => by simp only [exec]; unfold execGpioCfgWrite; rfl)
  | gpioParkEnd _ => exact .always _ rfl (fun s => by simp only [exec]; unfold execGpioParkEnd; rfl)
  | clkClusterWrite _ _ _ => exact .fast _ (fun s => by simp only [exec]; unfold execClkClusterWrite; rfl)
  | registerWrite _ _ _ _ => exact .fast _ (fun s => by simp only [exec]; unfold execRegisterWrite; rfl)
  | readClear _ _ _ _ => exact .fast _ (fun s => by simp only [exec]; unfold execReadClear; rfl)
  | tachWindowEnd _ => exact .always _ rfl (fun s => by simp only [exec]; unfold execTachWindowEnd; rfl)
  | mpSyncPulse => exact .always _ rfl (fun s => by simp only [exec]; unfold execMpSyncPulse; rfl)
  | mpSyncFall _ => exact .always _ rfl (fun s => by simp only [exec]; unfold execMpSyncFall; rfl)
  | mpSyncLockTimeout => exact .always _ rfl (fun s => by simp only [exec]; unfold execMpSyncLockTimeout; rfl)
  | fwRejoinTimeout _ => exact .fast _ (fun s => by simp only [exec]; unfold execFwRejoinTimeout; rfl)
  | spdmRequest _ => exact .always _ rfl (fun s => by simp only [exec]; unfold execSpdmRequest; rfl)
  | keySlotSet _ _ _ => exact .always _ rfl (fun s => by simp only [exec]; unfold execKeySlotSet; rfl)
  | pldmFirmwareUpdate _ => exact .always _ rfl (fun s => by simp only [exec]; unfold execPldmFirmwareUpdate; rfl)
  | mgmtRiserRequest _ _ _ _ => exact .always _ rfl (fun s => by simp only [exec]; unfold execMgmtRiserRequest; rfl)
  | aoPwrgoodRise _ => exact .always _ rfl (fun s => by simp only [exec]; unfold execAoPwrgoodRise; rfl)
  | coldReset => exact .always _ rfl (fun s => by simp only [exec]; unfold execColdReset; rfl)
  | startup _ => exact .always _ rfl (fun s => by simp only [exec]; unfold execStartup; rfl)
  | warmReset => exact .always _ rfl (fun s => by simp only [exec]; unfold execWarmReset; rfl)
  | resetNRelease => exact .always _ rfl (fun s => by simp only [exec]; unfold execResetNRelease; rfl)
  | mainPwrgoodLoss => exact .always _ rfl (fun s => by simp only [exec]; unfold execMainPwrgoodLoss; rfl)
  | perstAssert _ => exact .fast _ (fun s => by simp only [exec]; unfold execPerstAssert; rfl)
  | perstRelease _ => exact .fast _ (fun s => by simp only [exec]; unfold execPerstRelease; rfl)
  | aoRefclkLoss => exact .always _ rfl (fun s => by simp only [exec]; unfold execAoRefclkLoss; rfl)
  | glRefclkLoss => exact .fast _ (fun s => by simp only [exec]; unfold execGlRefclkLoss; rfl)
  | hlRefclkLoss _ => exact .fast _ (fun s => by simp only [exec]; unfold execHlRefclkLoss; rfl)
  | hostConfigurationRequest _ _ => exact .fast _ (fun s => by simp only [exec]; unfold execHostConfigurationRequest; rfl)
  | atsTranslationCompletion _ _ _ _ => exact .fast _ (fun s => by simp only [exec]; unfold execAtsTranslationCompletion; rfl)
  | birsp _ _ _ => exact .fast _ (fun s => by simp only [exec]; unfold execBirsp; rfl)
  | hostLinkRecovery _ => exact .fast _ (fun s => by simp only [exec]; unfold execHostLinkRecovery; rfl)
  | glRefclkReturn => exact .fast _ (fun s => by simp only [exec]; unfold execGlRefclkReturn; rfl)
  | tachometerEdge _ => exact .always _ rfl (fun s => by simp only [exec]; unfold execTachometerEdge; rfl)
  | tapOperation _ _ _ => exact .always _ rfl (fun s => by simp only [exec]; unfold execTapOperation; rfl)
  | mpSyncHoldEnd => exact .always _ rfl (fun s => by simp only [exec]; unfold execMpSyncHoldEnd; rfl)

/-- A command's next state has its memories canonical, unless an opcode row names a queue that is absent and nothing happens; a fault is an ill-formed packet's. -/
theorem exec_shape (c : Instr) (s : State) : (∃ t, exec c s = .next (s.after t)) ∨ exec c s = .next s ∨ (exec c s = .fault .illFormed ∧ c.wf = false) := by
  cases exec_answers c with
  | fast f h => exact .inl ⟨_, h s⟩
  | always f _ h => exact .inl ⟨_, h s⟩
  | starts o a p b q pkt hw h =>
    rw [h, hw]
    cases hk : opcodeWf o pkt with
    | false => exact .inr (.inr ⟨opcodeStep_illFormed hk, rfl⟩)
    | true =>
      simp only [opcodeWf, Bool.and_eq_true, beq_iff_eq] at hk
      unfold opcodeStep
      rw [if_pos hk]
      cases s.findQueue q with
      | none => exact .inr (.inl rfl)
      | some e => exact .inl ⟨_, rfl⟩

/-- Every opcode row of the list runs its opcode's step with a body of its own. -/
theorem opcodeRows_exec (faults : List Nat) :
    ∀ e ∈ opcodeRows faults, ∃ body : Body, ∀ (q : QueueId) (pkt : Packet) (s : State), exec (e.1 q pkt) s = opcodeStep e.2.1 e.2.2.1 e.2.2.2 body q pkt s := by
  unfold opcodeRows
  simp only [List.forall_mem_cons]
  repeat' apply And.intro
  all_goals first | exact ⟨_, fun _ _ _ => by simp only [exec]; rfl⟩ | (intro x hx; cases hx)

end Sys2Proof.Machine
end

