-- ==== Sys2Proof/Tests/Slice0.lean ====
section
/-! SUPPORT. Tests: ill-formed commands are refused, and every statement's hypotheses are met together by a concrete state and operands. -/

open Sys2Proof Sys2Proof.Machine Sys2Proof.Laws.Kind

namespace Sys2Proof.Tests

set_option Elab.async false
set_option linter.unusedVariables false

/-! ### Helpers -/

/-- Write fields (offset, length, value) into zero bytes. -/
def laid (n : Nat) (l : List (Nat × Nat × Nat)) : List Byte := l.foldl (fun bs f => bs.take f.1 ++ toLe f.2.1 f.2.2 ++ bs.drop (f.1 + f.2.1)) (List.replicate n 0)

/-- A packet of an opcode with n bytes of extended parameters. -/
def pk (op n : Nat) (l : List (Nat × Nat × Nat)) : Packet := { bytes := laid (64 + n) ([(0, 2, op), (26, 2, n), (3, 1, 1)] ++ l) }

/-- What a computation that succeeds gives. -/
def okGet {ε α : Type} (e : Except ε α) (h : e.toOption.isSome = true) : α := e.toOption.get h

theorem okGet_eq {ε α : Type} (e : Except ε α) (h : e.toOption.isSome = true) : e = .ok (okGet e h) := by
  cases e
  · exact absurd h Bool.false_ne_true
  · rfl

/-- What a computation that succeeds with something gives. -/
def okSome {ε α : Type} (e : Except ε (Option α)) (h : (e.toOption.bind (fun x => x)).isSome = true) : α := (e.toOption.bind (fun x => x)).get h

theorem okSome_eq {ε α : Type} (e : Except ε (Option α)) (h : (e.toOption.bind (fun x => x)).isSome = true) : e = .ok (some (okSome e h)) := by
  rcases e with _ | (_ | _)
  · exact absurd h Bool.false_ne_true
  · exact absurd h Bool.false_ne_true
  · rfl

/-- Whether a computation succeeds with a value. -/
def isVal {ε α : Type} [DecidableEq α] (v : α) : Except ε α → Bool
  | .ok a => decide (a = v)
  | .error _ => false

theorem okEq {ε α : Type} [DecidableEq α] {e : Except ε α} {v : α} (h : isVal v e = true) : e = .ok v := by cases e <;> simp_all [isVal]

theorem okEq2 {ε δ α : Type} {e : Except ε (Except δ α)} {v : α} (h : e.toOption.bind (fun x => x.toOption) = some v) : e = .ok (.ok v) := by
  rcases e with _ | (_ | _) <;> simp_all [Except.toOption]

theorem ofAll {α : Type} {o : Option α} {P : α → Prop} [DecidablePred P] (h : o.all (fun a => decide (P a)) = true) : ∀ e, o = some e → P e := by
  rintro e rfl; simpa using h

theorem getAll {α : Type} {o : Option α} (h : o.isSome = true) : o = some (o.get h) := by simp

theorem getOp {α β ε γ : Type} {o : Option (α × β × Except ε γ)} (h : o.isSome = true) (k : (o.get h).2.2.toOption.isSome = true) :
    o = some ((o.get h).1, (o.get h).2.1, .ok (okGet (o.get h).2.2 k)) := by
  rw [← okGet_eq (o.get h).2.2 k]; exact getAll h

theorem getPair {α β : Type} {o : Option (α × β)} {b : β} (h : o.isSome = true) (k : (o.get h).2 = b) : o = some ((o.get h).1, b) := k ▸ getAll h

theorem getTrip {α β γ : Type} {x : α × β × γ} {v : γ} (h : x.2.2 = v) : x = (x.1, x.2.1, v) := h ▸ rfl

theorem getFst {α β : Type} {o : Option α × β} (h : o.1.isSome = true) : o = (some (o.1.get h), o.2) := Prod.ext (getAll h) rfl

theorem zero {c : Running} {off n : Nat} (h : ∀ i < n, c.u (off + i) 1 = 0) : Zero c off n := h

theorem tiers {l : List (Nat × Nat)} {f : Nat → Option (Obj × Page)} {P : Obj × Page → Prop} (h : l.all (fun p => (f p.1).all (fun o => decide (o.2.tier ≠ .t3))) = true) :
    ∀ p ∈ l, ∀ o, f p.1 = some o → o.2.tier = .t3 → P o := by
  intro p hp o ho ht
  have := List.all_eq_true.mp h p hp
  rw [ho] at this; simp [ht] at this

/-- An opcode row's hypotheses are met by a state, a queue and a packet. -/
def Met (op : Nat) (a f : Bool) (H : Running → State → Prop) (s : State) (q : QueueId) (pkt : Packet) : Prop :=
  Starts s op q pkt ∧ Passes s q pkt a f ∧ H (s.enter q pkt).1 (s.enter q pkt).2

theorem met {op : Nat} {a f : Bool} {H : Running → State → Prop} {s : State} {q : QueueId} {pkt : Packet} (h1 : s.power.stopped = false) (h2 : opcodeWf op pkt = true)
    (h3 : (s.findQueue q).isSome = true) (h4 : guardCheck (s.enter q pkt).1 (s.enter q pkt).2 a f = .ok ()) (k : H (s.enter q pkt).1 (s.enter q pkt).2) : Met op a f H s q pkt :=
  ⟨⟨h1, h2, h3⟩, h4, k⟩

/-! ### States -/

def part0 : Part := { id := 0, carve := { coreMask := 0xF, barriers := 8, t1 := 64 * pageBytes, t2 := 64 * pageBytes, queues := 8, contexts := 4 }, carves := 1 }
def ctx1 : Ctx := { id := 1, part := 0, pasid := 5 }
def que : Queue := { id := .ctx 16 }

/-- A partition with one context, its queue and the PF's admin queue. -/
def rig : State := { State.reset with tenants := { parts := [part0], ctxs := [ctx1] }, queues := [que, { id := .admin 0 }] }

/-- A command under way on the context's queue. -/
def nopRun (uid : Nat) : Running := { uid := uid, queue := .ctx 16, pkt := pk 0x130 0 [], ctx := 1 }

/-- An object of the context at 2 MiB, in T2, with its bytes from an offset. -/
def obj (handle base pages : Nat) (at_ : Nat) (bs : List Byte) : Obj :=
  { ctx := 1, handle := handle, base := base, size := pages * pageBytes, policy := 2, prio := 0, affinity := 0, farMask := 0, prot := false, slot := 5,
    pages := (List.range pages).map (fun i => { tier := .t2, place := 0, ppn := i }), mem := ({} : Mem).write at_ bs }

/-- A ticket of the context in slot 5, on the core of position 0. -/
def tkt (p : Payload) : Ticket := { ctx := 1, issuedGen := 1, payload := p, decl := { csBytes := 65536, cores := 1, t1 := 8 * pageBytes, t2 := 8 * pageBytes, pinned := 8 * pageBytes }, cores := [0], barIds := [0, 1] }
/-- The number of that ticket. -/
def tno : Nat := 2 ^ 32 + 2 ^ 24 + 5
/-- The context with a ticket and an object. -/
def rigT (p : Payload) (o : List Obj) : State :=
  { rig with tenants := { rig.tenants with slots := [{ part := 0, slot := 5, gen := 1, live := some (tkt p) }] }, memory := { rig.memory with objs := o } }

def opEnd : Op := { op := 1, engine := 0, wait := none, post := none, desc := 0, imm := 0 }
def image : List Byte := laid 32 [(0, 2, 0x5C09), (2, 2, 0x0709), (4, 1, 0xA1), (8, 4, 1)] ++ opEnd.encode
/-- A resource declaration of one core in the extended parameters. -/
def decl (t1 : Nat) : List (Nat × Nat × Nat) := [(64, 4, 65536), (68, 2, 1), (88, 8, t1)]
/-- A command of the context holds cores. -/
def rigBusy : State := { rig with queues := [{ que with running := [{ nopRun 7 with work := .jobs }] }, { id := .admin 0 }], nextUid := 8 }
def objPk : Packet := pk 0x201 0 [(32, 8, tno), (40, 8, 2097152), (48, 8, 4194304), (56, 1, 0)]
def objC : Running := ((rigT (.tables 0) []).enter (.ctx 16) objPk).1
def objS : State := ((rigT (.tables 0) []).enter (.ctx 16) objPk).2
def objNew (h : Nat) : Obj :=
  { ctx := objC.ctx, handle := h, base := 4194304, size := objC.u 40 8, policy := objC.u 56 1 % 8, prio := objC.u 57 1, affinity := objC.u 58 1, farMask := objC.u 59 1,
    prot := bit (objC.u 56 1) 3, slot := 5, groups := objS.farSet (objC.u 59 1) }
/-- The state with that object made, of any handle. -/
def objS2 (h : Nat) : State := ({ objS with free := objS.free + 2, memory := { objS.memory with objs := objS.memory.objs ++ [objNew h] } } : State).xlatDrop objC.ctx 4194304 (objC.u 40 8)
/-- Where no page of a tier is in use, the first one picked is free. -/
theorem free_page (s : State) (t : Tier) (p : Nat) (hu : s.usedPages t p ++ s.deadPages t p = []) (hn : 0 < s.physPages t p) : (s.freePage t p none).1.isSome = true := by
  unfold State.freePage
  simp only [hu, Option.isSome_map, List.contains_nil, Bool.not_false, List.find?_isSome]
  exact ⟨0, List.mem_range.mpr hn, trivial⟩
theorem phys_t2 : 0 < objS.physPages .t2 0 ∧ 0 < objS.roomAt .t2 0 := by decide +kernel
set_option maxRecDepth 100000 in
/-- A page of an object of any handle finds its place. -/
theorem placed (h : Nat) : ((objS2 h).placePages objS objC.ctx h (objC.u 40 8 / pageBytes) 0).toOption.isSome = true := by
  have e : (objS2 h).objOf objC.ctx h = some (objNew h) := by
    have k : (objS2 h).memory.objs = [objNew h] := rfl
    simp [State.objOf, k, objNew]
  have n : objC.u 40 8 / pageBytes = 1 := by decide +kernel
  have r : 0 < (objS2 h).tierRoom (objNew h) 0 none .t2 := by
    have b : (objS2 h).budgetLeft (objNew h).ctx (objNew h).slot .t2 = 8 := rfl
    have w : (objS2 h).roomAt .t2 0 = objS.roomAt .t2 0 := rfl
    have p : (objNew h).placeOf .t2 0 = some 0 := rfl
    have := phys_t2.2
    simp only [State.tierRoom, p, b, w]; simp; omega
  have f := free_page (objS2 h) .t2 0 rfl phys_t2.1
  have o : tierOrder (objNew h).policy (objNew h).prot = [.t2, .t3, .t1] := rfl
  have c : (objNew h).pageClass 0 = none := rfl
  have q : (objNew h).placeOf .t2 0 = some 0 := rfl
  have i : isPin (objNew h).policy = false := rfl
  rw [n]; unfold State.placePages; rw [e]
  simp only [o, c, State.placeIn, r, q, if_true]
  cases g : (objS2 h).freePage .t2 0 none with
  | mk x s1 => cases x with
    | none => rw [g] at f; cases f
    | some m => simp [i, State.placePages, Except.toOption]

/-- A plan of one program launch. -/
def planImg : List Byte := laid 64 [(0, 2, 0x5C0A), (2, 2, 0x0709), (4, 1, 0xA1), (8, 2, 1), (32, 1, 3), (33, 1, 1), (35, 1, 1), (40, 8, tno)]
def planE : PlanEntry := { kind := 2, layerEnd := true, firstCore := 0, cores := 1, pkt := [], ticket := 0, args := 0 }
def fill7 : FillGroup := { part := 0, group := 7, slot := 5, maxRows := 8, deadline := 100, args := 0, argsBytes := 0, ops := [opEnd] }
/-- The context with a fill group. -/
def rigF : State := { rigT (.fill 7) [] with cores := { rig.cores with fills := [fill7] } }
/-- The context with objects and no ticket. -/
def rigO (o : List Obj) : State := { rig with memory := { rig.memory with objs := o } }

/-- A stream descriptor of 64 bytes from device memory to the core store. -/
def sdesc : List (Nat × Nat × Nat) := [(0, 8, 2097152), (8, 8, 0), (16, 4, 64), (40, 6, 1), (76, 6, 1), (112, 1, 1), (115, 1, 1)]
def at_ (n : Nat) (l : List (Nat × Nat × Nat)) : List (Nat × Nat × Nat) := l.map (fun f => (f.1 + n, f.2))
/-- A tile of one row and column, its sum drained as FP32 to the core store. -/
def tdesc : List (Nat × Nat × Nat) := [(0, 4, 0), (4, 4, 64), (8, 4, 1024), (12, 4, 64), (16, 4, 2048), (20, 4, 64), (24, 4, 4), (28, 1, 1), (29, 1, 1), (30, 1, 0x33), (31, 1, 4)]
/-- A stream of one row from the core store to device memory. -/
def sdesc7 : List (Nat × Nat × Nat) := [(0, 8, 2048), (8, 8, 2097152), (16, 4, 64), (40, 6, 1), (76, 6, 1), (112, 1, 4), (115, 1, 1)]
/-- The context's partition in a ring of n devices on axis 1. -/
def rigR (n : Nat) : State := (rig.setField .colRing 0 0 0 16 n)

/-- A table of 16 rows of 4 elements of 8 bits, at 2 MiB. -/
def tblBytes : List Byte := laid 64 [(0, 4, 3), (8, 8, 2097152), (16, 8, 16), (24, 2, 4), (26, 1, 8), (32, 8, 1)]
def tbl0 : Table := { object := 3, tag := 0, base := 2097152, rows := 16, width := 4, bits := 8, adaptive := false, eps := 0, mult := 1, salt := 0, yObj := 0, ySlots := 0 }
/-- The context with a table set, and an object of ids and gradients at 4 MiB. -/
def rigE : State := { rigT (.tables 0) [obj 3 2097152 1 0 [], obj 4 4194304 1 0 []] with
  embed := { rig.embed with tsets := [{ ctx := 1, id := 0, part := 0, slot := 5, tables := [tbl0] }] } }
/-- One bag of one row: id at 4 MiB, FP32 data after it. -/
def bag1 : List (Nat × Nat × Nat) := [(0, 8, 4194304), (24, 8, 4198400), (36, 4, 1), (46, 1, 5), (47, 1, 3)]
/-- A group of 64 parameters in BF16, FP32 moments. -/
def grp0 : Group :=
  { ctx := 1, id := 0, part := 0, slot := 5, tensor := 0, shard := 0, elemBase := 0, elems := 64, kind := 0, pfmt := 3, mfmt := 5, deferN := 0, vote := false, digestState := false,
    repAxes := 0, digestEvery := 0, pAddr := 2097152, mAddr := 4194304, fAddr := 0, rows := 0, cols := 0, hAddr := 6291456, dAddr := 0, tag := 0 }
def cobjs : List Obj := [obj 3 2097152 1 0 [], obj 4 4194304 1 0 [], obj 5 6291456 1 0 []]
/-- Those objects on one ladle stack. -/
def ladleObjs : List Obj := cobjs.map (fun o => { o with affinity := 1 })
/-- The context with a parameter group. -/
def rigC (g : Group) : State := { rigT (.group 0) cobjs with cru := { rig.cru with groups := [g] } }
/-- A checkpoint stream of the context. -/
def camp : Campion := { j := 2, ctx := 1, far := false, state := false, egroup := 0, ringLog2 := 16, ring := 0, tailAddr := 0, groups := [0] }
/-- A factor block of rank 1 for the first tile, its factors zero. -/
def blockHead : List Byte := laid 62 [(0, 2, 0xF7C1), (2, 1, 1), (3, 1, 3), (4, 4, validLength 1 false)]
def blockBody : List Byte := List.replicate (validLength 1 false - 64) 0
def block1 : List Byte := blockHead ++ toLe 2 (crc16 (blockHead ++ blockBody)) ++ blockBody
/-- The index table of a stream of that block at 2 MiB. -/
def idxEntries : List Byte := toLe 8 (indexEntry 2097152 0 false) ++ toLe 8 (indexEntry (2097152 + block1.length) 0 false)
def idxHead : List Byte := laid 62 [(0, 2, 0xF7C2), (4, 4, 1), (8, 2, 1), (10, 2, 1), (12, 4, 3), (16, 8, 2097152), (24, 8, block1.length)]
def idxTable : List Byte := idxHead ++ toLe 2 (crc16 (idxHead ++ idxEntries)) ++ idxEntries

/-- A program that stands at an operation of the sequencer. -/
def run0 : Run := { launch := 1, ctx := 1, part := 0, logical := 0, seqTaken := true }
def lau (ops : List Op) : Launch := { id := 1, by_ := .cmd 7, ctx := 1, part := 0, ops := ops, barIds := [0, 1], csBytes := 65536, dense := 0, sparse := 0, cores := [0] }
/-- The context with a program on core 0. -/
def rigP (ops : List Op) (r : Run) (o : List Obj) (st : List Byte) : State :=
  { rigO o with queues := [{ que with running := [{ nopRun 7 with work := .launch 1, part := 0 }] }], nextUid := 8,
                cores := { rig.cores with cores := [{ id := 0, gated := false, storeCtx := some 1, run := some r, store := ({} : Mem).write 0 st }], launches := [lau ops] } }
def sop (n : Nat) (desc : Nat) (imm : Nat) : Op := { op := BitVec.ofNat 8 n, engine := 0, wait := none, post := none, desc := BitVec.ofNat 32 desc, imm := BitVec.ofNat 64 imm }
/-- Engine e has an operation at its head that may start; its descriptor stands at the start of the core store. -/
def eng (e op : Nat) : List Engine := (List.range 9).map (fun i => if i = e then
  { queue := [{ index := 0, op := { op := BitVec.ofNat 8 op, engine := BitVec.ofNat 4 e, wait := none, post := none, desc := 0, imm := 0 }, loops := [0, 0, 0, 0] }], go := true, taken := true } else {})
def rigX (e op : Nat) (o : List Obj) (d : List Byte) : State := rigP [opEnd] { run0 with engines := eng e op } o d
/-- The program of rigX over a table set, with an object of ids and gradients. -/
def rigG (op : Nat) (d : List Byte) : State := { rigX 8 op rigE.memory.objs d with embed := rigE.embed }
/-- A good flit. -/
def flit (l : List (Nat × Nat × Nat)) : List Byte := laid 252 l ++ toLe 4 (crc32 (laid 252 l))
/-- The context with fabric ports, its partition holding every direction. -/
def rigL (ps : List Port) : State := { rig with tenants := { rig.tenants with parts := [{ part0 with carve := { part0.carve with fdirs := 0x3F } }] }, fabric := { rig.fabric with ports := ps } }
/-- A packet of the partition. -/
def fpk (pl : List Byte) : FabPacket := { reissue := false, xo := true, enc := false, tagOk := true, tag := 1, orig := 3, part := 0, payload := pl }
/-- An all-gather on axis 1 of two devices that receives. -/
def coll0 : Coll := { uid := 7, ctx := 1, part := 0, cop := 2, axis := 1, fmt := 3, cflags := 0, hops := 0, root := 0, src := 0, dst := 2097152, elems := 64, n := 2, pos := 0, chill := false, recv := some (3, 1) }
def pairP : FabPacket := { fpk (laid 8 []) with xo := false }
/-- The context in a formed pair on port 0. -/
def rigM (l : Bool) (cs : List Compare) : State := { rigL [{ id := 0 }] with pair := { active := true, part := 0, port := 0, lead := l, compares := cs } }

/-! ### Every clause of every statement is met somewhere -/

theorem meets_queueCommands_1 : Met 0x0101 true false
    (fun (c : Running) (s : State) => let x := ctx1; let p := part0; c.ticket = 0 ∧ c.u 40 1 < 16 ∧ s.namedCtx c.fn (c.u 41 1) 41 = .ok x ∧ 6 ≤ c.u 42 1 ∧ c.u 42 1 ≤ 16 ∧ c.u 43 1 < 4 ∧ c.u 44 2 < (if c.fn = 0 then 2048 else 512) ∧ Zero c 46 2 ∧ c.u 48 8 % 4096 = 0 ∧ (c.u 43 1 % 2 = 1 → ∃ o, s.objAt x.id (c.u 48 8) = some o ∧ (o.policy = 1 ∨ o.policy = 2) ∧ c.u 48 8 + 2 ^ c.u 42 1 * 64 ≤ o.base + o.size) ∧ Zero c 59 5 ∧ s.queue? (.ctx (Fin.ofNat 4096 (x.id * 16 + c.u 40 1))) = none ∧ s.part? x.part = some p ∧ (s.partQueues x.part).length < p.carve.queues)
    (rig) (.admin 0) (pk 0x101 0 [(40, 1, 1), (41, 1, 1), (42, 1, 6)]) := by
  refine met ?_ ?_ ?_ (okEq ?_) ⟨?_, ?_, okEq ?_, ?_, ?_, ?_, ?_, zero ?_, ?_, by intro h; exact absurd h (by decide +kernel), zero ?_, ?_, ?_, ?_⟩ <;> decide +kernel

theorem meets_queueCommands_2 : Met 0x0102 true false
    (fun (c : Running) (s : State) => let n := .ctx 16; c.ticket = 0 ∧ queueArg c s = .ok n ∧ Zero c 42 22)
    (rig) (.admin 0) (pk 0x102 0 [(40, 2, 16)]) := by
  refine met ?_ ?_ ?_ (okEq ?_) ⟨?_, okEq ?_, zero ?_⟩ <;> decide +kernel

theorem meets_queueCommands_3 : Met 0x0103 false false
    (fun (c : Running) (s : State) => let n := .ctx 16; c.ticket = 0 ∧ queueArg c s = .ok n ∧ Zero c 42 22)
    (rig) (.admin 0) (pk 0x103 0 [(40, 2, 16)]) := by
  refine met ?_ ?_ ?_ (okEq ?_) ⟨?_, okEq ?_, zero ?_⟩ <;> decide +kernel

theorem meets_queueCommands_4 : Met 0x0104 false false
    (fun (c : Running) (s : State) => let n := .ctx 16; let e := que; c.ticket = 0 ∧ queueArg c s = .ok n ∧ Zero c 42 22 ∧ s.queue? n = some e ∧ ∀ k ∈ e.running, k.uid = c.uid)
    (rig) (.admin 0) (pk 0x104 0 [(40, 2, 16)]) := by
  refine met ?_ ?_ ?_ (okEq ?_) ⟨?_, okEq ?_, zero ?_, ?_, ?_⟩ <;> decide +kernel

theorem meets_queueCommands_5 : Met 0x0130 false false
    (fun (c : Running) (_ : State) => c.ticket = 0)
    (rig) (.ctx 16) (pk 0x130 0 []) := by
  refine met ?_ ?_ ?_ (okEq ?_) ?_ <;> decide +kernel

theorem meets_queueCommands_6 : Met 0x0403 false false
    (fun (c : Running) (s : State) => c.ticket = 0 ∧ ∀ e, s.queue? c.queue = some e → ∀ k ∈ e.running, c.order ≤ k.order)
    (rig) (.ctx 16) (pk 0x403 0 []) := by
  refine met ?_ ?_ ?_ (okEq ?_) ⟨?_, ofAll ?_⟩ <;> decide +kernel

theorem meets_tenantCommands_1 : Met 0x0110 true false
    (fun (c : Running) (s : State) => let p := part0; c.ticket = 0 ∧ s.ctx? (c.u 40 1) = none ∧ c.u 41 1 < 32 ∧ serves c.fn (c.u 41 1) = true ∧ Zero c 42 2 ∧ c.u 44 4 < 2 ^ 20 ∧ (∀ k ∈ s.tenants.ctxs, k.pasid.toNat ≠ c.u 44 4) ∧ Zero c 48 16 ∧ s.part? (c.u 41 1) = some p ∧ (s.partCtxs (c.u 41 1)).length < p.carve.contexts ∧ 12 * 2 ^ 20 * p.inService + 2 * 2 ^ 20 ≤ (s.leftOf p).t1)
    (rig) (.admin 0) (pk 0x110 0 [(40, 1, 2), (41, 1, 0), (44, 4, 7)]) := by
  refine met ?_ ?_ ?_ (okEq ?_) ⟨?_, ?_, ?_, ?_, zero ?_, ?_, ?_, zero ?_, ?_, ?_, ?_⟩ <;> decide +kernel

theorem meets_tenantCommands_2 : Met 0x0111 true false
    (fun (c : Running) (s : State) => let x := ctx1; c.ticket = 0 ∧ s.namedCtx c.fn (c.u 40 1) 40 = .ok x ∧ Zero c 41 23)
    (rig) (.admin 0) (pk 0x111 0 [(40, 1, 1)]) := by
  refine met ?_ ?_ ?_ (okEq ?_) ⟨?_, okEq ?_, zero ?_⟩ <;> decide +kernel

theorem meets_tenantCommands_3 : Met 0x0112 true false
    (fun (c : Running) (s : State) => let x := ctx1; c.ticket = 0 ∧ s.namedCtx c.fn (c.u 40 1) 40 = .ok x ∧ c.u 41 1 = 1 ∧ Zero c 42 22 ∧ (s.evict (· == x.id)).quiet c.order (· == x.id) true = true)
    (rig) (.admin 0) (pk 0x112 0 [(40, 1, 1), (41, 1, 1)]) := by
  refine met ?_ ?_ ?_ (okEq ?_) ⟨?_, okEq ?_, ?_, zero ?_, ?_⟩ <;> decide +kernel

theorem meets_tenantCommands_4 : Met 0x0112 true false
    (fun (c : Running) (s : State) => let x := ctx1; c.ticket = 0 ∧ s.namedCtx c.fn (c.u 40 1) 40 = .ok x ∧ c.u 41 1 = 1 ∧ Zero c 42 22 ∧ (s.evict (· == x.id)).quiet c.order (· == x.id) true = false)
    (rigBusy) (.admin 0) (pk 0x112 0 [(40, 1, 1), (41, 1, 1)]) := by
  refine met ?_ ?_ ?_ (okEq ?_) ⟨?_, okEq ?_, ?_, zero ?_, ?_⟩ <;> decide +kernel

theorem meets_tenantCommands_5 : Met 0x0113 true false
    (fun (c : Running) (s : State) => let x := ctx1; c.ticket = 0 ∧ s.namedCtx c.fn (c.u 40 1) 40 = .ok x ∧ c.u 41 1 < 4 ∧ (c.u 41 1 % 2 = 1 ∨ s.pairedPart x.part = false) ∧ Zero c 42 6 ∧ Zero c 56 8 ∧ ∀ k ∈ s.queues.flatMap (·.running), k.uid = c.uid ∨ k.ctx ≠ x.id ∨ c.order ≤ k.order)
    (rig) (.admin 0) (pk 0x113 0 [(40, 1, 1), (41, 1, 3), (48, 8, 9)]) := by
  refine met ?_ ?_ ?_ (okEq ?_) ⟨?_, okEq ?_, ?_, ?_, zero ?_, zero ?_, ?_⟩ <;> decide +kernel

theorem meets_tenantCommands_6 : Met 0x0120 true true
    (fun (c : Running) (s : State) => c.u 26 2 = 64 ∧ c.ticket = 0 ∧ c.u 40 1 < 32 ∧ Zero c 41 23 ∧ (∀ o ∈ s.tenants.parts, o.id = c.u 40 1 ∨ ∀ q ∈ setBits 32 (c.u 64 4), o.carve.coreMask.testBit q = false) ∧ (c.u 64 4 = 0 → s.partCtxs (c.u 40 1) = []) ∧ c.u 68 2 ≤ 1024 ∧ c.u 70 2 ≤ 16384 ∧ c.u 72 8 % pageBytes = 0 ∧ c.u 80 8 % pageBytes = 0 ∧ c.u 88 8 % pageBytes = 0 ∧ c.u 96 2 ≤ 4096 ∧ c.u 98 2 ≤ 256 ∧ c.u 101 1 < 64 ∧ (c.u 102 1 = 0 ∨ c.u 102 1 < 64 ∧ (mget s.sec.keys (c.u 102 1)).isSome) ∧ Zero c 103 1 ∧ Zero c 108 20 ∧ s.carveFits (c.u 40 1) (carveAt c) ((setBits 32 (c.u 64 4)).filter (fun q => (s.posCore q).isSome)).length = .ok () ∧ ∀ p, s.part? (c.u 40 1) = some p → ∀ q ∈ p.positions, (c.u 64 4).testBit q = true)
    (rig) (.admin 0) (pk 0x120 64 [(40, 1, 1), (64, 4, 0xF00), (68, 2, 8), (72, 8, 2097152), (96, 2, 4), (98, 2, 2), (101, 1, 1)]) := by
  refine met ?_ ?_ ?_ (okEq ?_) ⟨?_, ?_, ?_, zero ?_, ?_, ?_, ?_, ?_, ?_, ?_, ?_, ?_, ?_, ?_, ?_, zero ?_, zero ?_, okEq ?_, ofAll ?_⟩ <;> decide +kernel

theorem meets_tenantCommands_7 : Met 0x0121 true true
    (fun (c : Running) (s : State) => c.ticket = 0 ∧ c.u 40 1 < 32 ∧ Zero c 41 23 ∧ ∀ k ∈ s.queues.flatMap (·.running), k.work = .carve (c.u 40 1) → k.reply.isSome)
    (rig) (.admin 0) (pk 0x121 0 [(40, 1, 0)]) := by
  refine met ?_ ?_ ?_ (okEq ?_) ⟨?_, ?_, zero ?_, ?_⟩ <;> decide +kernel

theorem meets_objectCommands_1 : Met 0x0131 false false
    (fun (c : Running) (s : State) => let k := tkt (.tables 0); Zero c 40 24 ∧ c.ticket ≠ 0 ∧ bits c.ticket 23 17 = 0 ∧ bits c.ticket 16 12 = c.part ∧ bits c.ticket 31 24 = c.ctx ∧ (s.slot? c.part (bits c.ticket 11 0)).bind (·.live) = some k ∧ k.issuedGen = bits c.ticket 63 32 ∧ k.ctx = c.ctx ∧ s.ticketHeld c.uid c.ticket = false)
    (rigT (.tables 0) []) (.ctx 16) (pk 0x131 0 [(32, 8, tno)]) := by
  refine met ?_ ?_ ?_ (okEq ?_) ⟨zero ?_, ?_, ?_, ?_, ?_, ?_, ?_, ?_, ?_⟩ <;> decide +kernel

theorem meets_objectCommands_2 : Met 0x0201 false false
    (fun (c : Running) (s : State) => let t := (5, tkt (.tables 0)); let base := 4194304; let h := Option.get ((({ ((State.enter (rigT (.tables 0) []) (.ctx 16) (objPk)).2) with free := ((State.enter (rigT (.tables 0) []) (.ctx 16) (objPk)).2).free + 1 } : State).pick (2 ^ 32) ((((State.enter (rigT (.tables 0) []) (.ctx 16) (objPk)).2).memory.objs.filter (fun o => o.ctx == ((State.enter (rigT (.tables 0) []) (.ctx 16) (objPk)).1).ctx)).map (·.handle))).1) (by decide +kernel); let s3 := okGet ((({ ((State.enter (rigT (.tables 0) []) (.ctx 16) (objPk)).2) with free := ((State.enter (rigT (.tables 0) []) (.ctx 16) (objPk)).2).free + 2, memory := { ((State.enter (rigT (.tables 0) []) (.ctx 16) (objPk)).2).memory with objs := ((State.enter (rigT (.tables 0) []) (.ctx 16) (objPk)).2).memory.objs ++ [{ ctx := ((State.enter (rigT (.tables 0) []) (.ctx 16) (objPk)).1).ctx, handle := (Option.get ((({ ((State.enter (rigT (.tables 0) []) (.ctx 16) (objPk)).2) with free := ((State.enter (rigT (.tables 0) []) (.ctx 16) (objPk)).2).free + 1 } : State).pick (2 ^ 32) ((((State.enter (rigT (.tables 0) []) (.ctx 16) (objPk)).2).memory.objs.filter (fun o => o.ctx == ((State.enter (rigT (.tables 0) []) (.ctx 16) (objPk)).1).ctx)).map (·.handle))).1) (by decide +kernel)), base := (4194304), size := ((State.enter (rigT (.tables 0) []) (.ctx 16) (objPk)).1).u 40 8, policy := ((State.enter (rigT (.tables 0) []) (.ctx 16) (objPk)).1).u 56 1 % 8, prio := ((State.enter (rigT (.tables 0) []) (.ctx 16) (objPk)).1).u 57 1, affinity := ((State.enter (rigT (.tables 0) []) (.ctx 16) (objPk)).1).u 58 1, farMask := ((State.enter (rigT (.tables 0) []) (.ctx 16) (objPk)).1).u 59 1, prot := bit (((State.enter (rigT (.tables 0) []) (.ctx 16) (objPk)).1).u 56 1) 3, slot := ((5, tkt (.tables 0))).1, groups := ((State.enter (rigT (.tables 0) []) (.ctx 16) (objPk)).2).farSet (((State.enter (rigT (.tables 0) []) (.ctx 16) (objPk)).1).u 59 1) }] } } : State).xlatDrop ((State.enter (rigT (.tables 0) []) (.ctx 16) (objPk)).1).ctx (4194304) (((State.enter (rigT (.tables 0) []) (.ctx 16) (objPk)).1).u 40 8)).placePages ((State.enter (rigT (.tables 0) []) (.ctx 16) (objPk)).2) ((State.enter (rigT (.tables 0) []) (.ctx 16) (objPk)).1).ctx (Option.get ((({ ((State.enter (rigT (.tables 0) []) (.ctx 16) (objPk)).2) with free := ((State.enter (rigT (.tables 0) []) (.ctx 16) (objPk)).2).free + 1 } : State).pick (2 ^ 32) ((((State.enter (rigT (.tables 0) []) (.ctx 16) (objPk)).2).memory.objs.filter (fun o => o.ctx == ((State.enter (rigT (.tables 0) []) (.ctx 16) (objPk)).1).ctx)).map (·.handle))).1) (by decide +kernel)) (((State.enter (rigT (.tables 0) []) (.ctx 16) (objPk)).1).u 40 8 / pageBytes) 0) (placed _); s.useTicket c .any = .ok t ∧ c.u 40 8 % pageBytes = 0 ∧ pageBytes ≤ c.u 40 8 ∧ c.u 40 8 ≤ 2 ^ 46 ∧ c.u 48 8 % pageBytes = 0 ∧ c.u 48 8 + c.u 40 8 ≤ 2 ^ 52 ∧ c.u 56 1 < 16 ∧ c.u 56 1 % 8 ≤ 5 ∧ c.u 57 1 < 8 ∧ c.u 60 1 < 2 ∧ Zero c 61 3 ∧ (if c.u 48 8 = 0 then s.chooseBase c.ctx (c.u 40 8) = some base else base = c.u 48 8 ∧ s.overlayOk c.ctx base (c.u 40 8) (c.u 57 1) = true) ∧ (({ s with free := s.free + 1 } : State).pick (2 ^ 32) ((s.memory.objs.filter (fun o => o.ctx == c.ctx)).map (·.handle))).1 = some h ∧ (({ s with free := s.free + 2, memory := { s.memory with objs := s.memory.objs ++ [{ ctx := c.ctx, handle := h, base := base, size := c.u 40 8, policy := c.u 56 1 % 8, prio := c.u 57 1, affinity := c.u 58 1, farMask := c.u 59 1, prot := bit (c.u 56 1) 3, slot := t.1, groups := s.farSet (c.u 59 1) }] } } : State).xlatDrop c.ctx base (c.u 40 8)).placePages s c.ctx h (c.u 40 8 / pageBytes) 0 = .ok s3)
    (rigT (.tables 0) []) (.ctx 16) (objPk) := by
  refine met ?_ ?_ ?_ (okEq ?_) ⟨okEq ?_, ?_, ?_, ?_, ?_, ?_, ?_, ?_, ?_, ?_, zero ?_, ?_, getAll ?_, okGet_eq _ (placed _)⟩ <;> decide +kernel

theorem meets_objectCommands_3 : Met 0x0202 false false
    (fun (c : Running) (s : State) => let o := obj 3 2097152 1 0 []; c.ticket = 0 ∧ s.fenced c = false ∧ objArg c s = .ok o ∧ Zero c 44 20 ∧ ∀ h ∈ s.objTree o, s.windowObj c.ctx h = false)
    (rigT (.tables 0) [obj 3 2097152 1 0 []]) (.ctx 16) (pk 0x202 0 [(40, 4, 3)]) := by
  refine met ?_ ?_ ?_ (okEq ?_) ⟨?_, ?_, okEq ?_, zero ?_, ?_⟩ <;> decide +kernel

theorem meets_objectCommands_4 : Met 0x0203 false false
    (fun (c : Running) (s : State) => let o := obj 3 2097152 1 0 []; let s1 := ((State.enter (rigT (.tables 0) [obj 3 2097152 1 0 []]) (.ctx 16) (pk 0x203 0 [(40, 4, 3), (44, 1, 2)])).2).modObj ((State.enter (rigT (.tables 0) [obj 3 2097152 1 0 []]) (.ctx 16) (pk 0x203 0 [(40, 4, 3), (44, 1, 2)])).1).ctx (obj 3 2097152 1 0 []).handle (fun o => { o with policy := ((State.enter (rigT (.tables 0) [obj 3 2097152 1 0 []]) (.ctx 16) (pk 0x203 0 [(40, 4, 3), (44, 1, 2)])).1).u 44 1 % 8, affinity := ((State.enter (rigT (.tables 0) [obj 3 2097152 1 0 []]) (.ctx 16) (pk 0x203 0 [(40, 4, 3), (44, 1, 2)])).1).u 45 1, farMask := ((State.enter (rigT (.tables 0) [obj 3 2097152 1 0 []]) (.ctx 16) (pk 0x203 0 [(40, 4, 3), (44, 1, 2)])).1).u 46 1, groups := ((State.enter (rigT (.tables 0) [obj 3 2097152 1 0 []]) (.ctx 16) (pk 0x203 0 [(40, 4, 3), (44, 1, 2)])).2).farSet (((State.enter (rigT (.tables 0) [obj 3 2097152 1 0 []]) (.ctx 16) (pk 0x203 0 [(40, 4, 3), (44, 1, 2)])).1).u 46 1) }); c.ticket = 0 ∧ objArg c s = .ok o ∧ c.u 44 1 < 16 ∧ c.u 44 1 % 8 ≤ 5 ∧ bit (c.u 44 1) 3 = o.prot ∧ Zero c 47 17 ∧ isPin (c.u 44 1 % 8) = isPin o.policy ∧ s1 = s.modObj c.ctx o.handle (fun o => { o with policy := c.u 44 1 % 8, affinity := c.u 45 1, farMask := c.u 46 1, groups := s.farSet (c.u 46 1) }) ∧ s1.fits c.ctx o.handle (isPin (c.u 44 1 % 8)) o.pages.length 0 = .ok () ∧ (s1.migrate c.uid c.ctx o.handle o.pages.length 0).2.2 = false)
    (rigT (.tables 0) [obj 3 2097152 1 0 []]) (.ctx 16) (pk 0x203 0 [(40, 4, 3), (44, 1, 2)]) := by
  refine met ?_ ?_ ?_ (okEq ?_) ⟨?_, okEq ?_, ?_, ?_, ?_, zero ?_, ?_, rfl, okEq ?_, ?_⟩ <;> decide +kernel

theorem meets_objectCommands_5 : Met 0x0204 false false
    (fun (c : Running) (s : State) => let o := obj 3 2097152 1 0 []; let host := false; let addr := 2097152; let s1 := okGet (((State.enter (rigT (.tables 0) [obj 3 2097152 1 0 []]) (.ctx 16) (pk 0x204 0 [(40, 4, 3), (48, 8, 2097152)])).2).output ((State.enter (rigT (.tables 0) [obj 3 2097152 1 0 []]) (.ctx 16) (pk 0x204 0 [(40, 4, 3), (48, 8, 2097152)])).1) (false) (2097152) (obj 3 2097152 1 0 []).record) (by decide +kernel); c.ticket = 0 ∧ objArg c s = .ok o ∧ Zero c 44 4 ∧ recordField c 48 = .ok (host, addr) ∧ addr % 64 = 0 ∧ Zero c 56 8 ∧ c.u 48 8 ≠ 0 ∧ s.output c host addr o.record = .ok s1)
    (rigT (.tables 0) [obj 3 2097152 1 0 []]) (.ctx 16) (pk 0x204 0 [(40, 4, 3), (48, 8, 2097152)]) := by
  refine met ?_ ?_ ?_ (okEq ?_) ⟨?_, okEq ?_, zero ?_, okEq ?_, ?_, zero ?_, ?_, okGet_eq _ ?_⟩ <;> decide +kernel

theorem meets_programCommands_1 : Met 0x0301 false false
    (fun (c : Running) (s : State) => let ops := okGet (((State.enter (rigO [obj 3 2097152 1 0 image]) (.ctx 16) (pk 0x301 64 ([(40, 8, 2097152), (48, 4, 48)] ++ decl 0))).2).progImage ((State.enter (rigO [obj 3 2097152 1 0 image]) (.ctx 16) (pk 0x301 64 ([(40, 8, 2097152), (48, 4, 48)] ++ decl 0))).1) (declAt ((State.enter (rigO [obj 3 2097152 1 0 image]) (.ctx 16) (pk 0x301 64 ([(40, 8, 2097152), (48, 4, 48)] ++ decl 0))).1) 64) 40 48) (by decide +kernel); let g := okGet (((State.enter (rigO [obj 3 2097152 1 0 image]) (.ctx 16) (pk 0x301 64 ([(40, 8, 2097152), (48, 4, 48)] ++ decl 0))).2).admission ((State.enter (rigO [obj 3 2097152 1 0 image]) (.ctx 16) (pk 0x301 64 ([(40, 8, 2097152), (48, 4, 48)] ++ decl 0))).1) 64) (by decide +kernel); c.u 26 2 = 64 ∧ c.ticket = 0 ∧ imageFormat c 40 48 = .ok () ∧ s.progImage c (declAt c 64) 40 48 = .ok ops ∧ (s.pairedPart c.part = false ∨ ringBars ops = false) ∧ Zero c 52 12 ∧ declFormat c 64 64 = .ok () ∧ s.admission c 64 = .ok g)
    (rigO [obj 3 2097152 1 0 image]) (.ctx 16) (pk 0x301 64 ([(40, 8, 2097152), (48, 4, 48)] ++ decl 0)) := by
  refine met ?_ ?_ ?_ (okEq ?_) ⟨?_, ?_, okEq ?_, okGet_eq _ ?_, ?_, zero ?_, okEq ?_, okGet_eq _ ?_⟩ <;> decide +kernel

theorem meets_programCommands_2 : Met 0x0302 false false
    (fun (c : Running) (s : State) => let n := 5; let t := tkt (.prog [opEnd]); let ops := [opEnd]; let args := okGet (((State.enter (rigT (.prog [opEnd]) []) (.ctx 16) (pk 0x302 0 [(32, 8, tno)])).2).input ((State.enter (rigT (.prog [opEnd]) []) (.ctx 16) (pk 0x302 0 [(32, 8, tno)])).1) (bit (((State.enter (rigT (.prog [opEnd]) []) (.ctx 16) (pk 0x302 0 [(32, 8, tno)])).1).u 40 8) 0) (((State.enter (rigT (.prog [opEnd]) []) (.ctx 16) (pk 0x302 0 [(32, 8, tno)])).1).u 40 8 / 64 * 64) (((State.enter (rigT (.prog [opEnd]) []) (.ctx 16) (pk 0x302 0 [(32, 8, tno)])).1).u 48 2)) (by decide +kernel); let phys := Option.get (((State.enter (rigT (.prog [opEnd]) []) (.ctx 16) (pk 0x302 0 [(32, 8, tno)])).2).freeCores (tkt (.prog [opEnd])).ctx (tkt (.prog [opEnd])).cores) (by decide +kernel); argsField c 40 48 4096 = .ok () ∧ Zero c 50 14 ∧ s.useTicket c .prog = .ok (n, t) ∧ t.payload = .prog ops ∧ s.input c (bit (c.u 40 8) 0) (c.u 40 8 / 64 * 64) (c.u 48 2) = .ok args ∧ s.freeCores t.ctx t.cores = some phys)
    (rigT (.prog [opEnd]) []) (.ctx 16) (pk 0x302 0 [(32, 8, tno)]) := by
  refine met ?_ ?_ ?_ (okEq ?_) ⟨okEq ?_, zero ?_, okEq ?_, ?_, okGet_eq _ ?_, getAll ?_⟩ <;> decide +kernel

theorem meets_programCommands_3 : Met 0x0303 false false
    (fun (c : Running) (s : State) => let es := okGet (((State.enter (rigO [obj 3 2097152 1 0 planImg]) (.ctx 16) (pk 0x303 64 ([(40, 8, 2097152), (48, 4, 64)] ++ decl 0))).2).planImage ((State.enter (rigO [obj 3 2097152 1 0 planImg]) (.ctx 16) (pk 0x303 64 ([(40, 8, 2097152), (48, 4, 64)] ++ decl 0))).1) (declAt ((State.enter (rigO [obj 3 2097152 1 0 planImg]) (.ctx 16) (pk 0x303 64 ([(40, 8, 2097152), (48, 4, 64)] ++ decl 0))).1) 64)) (by decide +kernel); let g := okGet (((State.enter (rigO [obj 3 2097152 1 0 planImg]) (.ctx 16) (pk 0x303 64 ([(40, 8, 2097152), (48, 4, 64)] ++ decl 0))).2).admission ((State.enter (rigO [obj 3 2097152 1 0 planImg]) (.ctx 16) (pk 0x303 64 ([(40, 8, 2097152), (48, 4, 64)] ++ decl 0))).1) 64) (by decide +kernel); c.u 26 2 = 64 ∧ c.ticket = 0 ∧ imageFormat c 40 48 = .ok () ∧ s.planImage c (declAt c 64) = .ok es ∧ (s.pairedPart c.part = false ∨ ∀ e ∈ es, s.ringEntry c e = false) ∧ Zero c 52 12 ∧ declFormat c 64 64 = .ok () ∧ s.admission c 64 = .ok g)
    (rigO [obj 3 2097152 1 0 planImg]) (.ctx 16) (pk 0x303 64 ([(40, 8, 2097152), (48, 4, 64)] ++ decl 0)) := by
  refine met ?_ ?_ ?_ (okEq ?_) ⟨?_, ?_, okEq ?_, okGet_eq _ ?_, ?_, zero ?_, okEq ?_, okGet_eq _ ?_⟩ <;> decide +kernel

theorem meets_programCommands_4 : Met 0x0304 false false
    (fun (c : Running) (s : State) => let n := 5; let t := tkt (.plan [planE]); let es := [planE]; let phys := Option.get (((State.enter (rigT (.plan [planE]) []) (.ctx 16) (pk 0x304 0 [(32, 8, tno)])).2).freeCores (tkt (.plan [planE])).ctx (tkt (.plan [planE])).cores) (by decide +kernel); s.useTicket c .plan = .ok (n, t) ∧ Zero c 40 24 ∧ t.payload = .plan es ∧ (∀ e ∈ es, e.kind = 3 → (s.entryTicket c e.ticket).isSome) ∧ s.freeCores t.ctx t.cores = some phys)
    (rigT (.plan [planE]) []) (.ctx 16) (pk 0x304 0 [(32, 8, tno)]) := by
  refine met ?_ ?_ ?_ (okEq ?_) ⟨okEq ?_, zero ?_, ?_, ?_, getAll ?_⟩ <;> decide +kernel

theorem meets_programCommands_5 : Met 0x0310 false false
    (fun (c : Running) (s : State) => let ops := okGet (((State.enter (rigO [obj 3 2097152 1 0 image]) (.ctx 16) (pk 0x310 80 ([(40, 2, 7), (42, 1, 8), (128, 8, 2097152), (136, 4, 48)] ++ decl 0))).2).progImage ((State.enter (rigO [obj 3 2097152 1 0 image]) (.ctx 16) (pk 0x310 80 ([(40, 2, 7), (42, 1, 8), (128, 8, 2097152), (136, 4, 48)] ++ decl 0))).1) (declAt ((State.enter (rigO [obj 3 2097152 1 0 image]) (.ctx 16) (pk 0x310 80 ([(40, 2, 7), (42, 1, 8), (128, 8, 2097152), (136, 4, 48)] ++ decl 0))).1) 64) 128 136) (by decide +kernel); let a := okGet (((State.enter (rigO [obj 3 2097152 1 0 image]) (.ctx 16) (pk 0x310 80 ([(40, 2, 7), (42, 1, 8), (128, 8, 2097152), (136, 4, 48)] ++ decl 0))).2).admission ((State.enter (rigO [obj 3 2097152 1 0 image]) (.ctx 16) (pk 0x310 80 ([(40, 2, 7), (42, 1, 8), (128, 8, 2097152), (136, 4, 48)] ++ decl 0))).1) 64) (by decide +kernel); c.u 26 2 = 80 ∧ c.ticket = 0 ∧ c.u 40 2 < 64 ∧ s.fill? c.part (c.u 40 2) = none ∧ 1 ≤ c.u 42 1 ∧ c.u 42 1 ≤ 64 ∧ Zero c 43 1 ∧ argsField c 48 56 2048 = .ok () ∧ Zero c 58 6 ∧ declFormat c 64 64 = .ok () ∧ imageFormat c 128 136 = .ok () ∧ s.progImage c (declAt c 64) 128 136 = .ok ops ∧ Zero c 140 4 ∧ s.admission c 64 = .ok a)
    (rigO [obj 3 2097152 1 0 image]) (.ctx 16) (pk 0x310 80 ([(40, 2, 7), (42, 1, 8), (128, 8, 2097152), (136, 4, 48)] ++ decl 0)) := by
  refine met ?_ ?_ ?_ (okEq ?_) ⟨?_, ?_, ?_, ?_, ?_, ?_, zero ?_, okEq ?_, zero ?_, okEq ?_, okEq ?_, okGet_eq _ ?_, zero ?_, okGet_eq _ ?_⟩ <;> decide +kernel

theorem meets_programCommands_6 : Met 0x0311 false false
    (fun (c : Running) (s : State) => let n := (5, tkt (.fill 7)); let k := fill7; s.useTicket c .fill = .ok n ∧ n.2.payload = .fill (c.u 40 2) ∧ s.fill? c.part (c.u 40 2) = some k ∧ k.destroying = false ∧ 1 ≤ c.u 42 1 ∧ c.u 42 1 ≤ k.maxRows ∧ Zero c 43 5 ∧ bits (c.u 48 8) 5 1 = 0 ∧ bits (c.u 56 8) 5 1 = 0)
    (rigF) (.ctx 16) (pk 0x311 0 [(32, 8, tno), (40, 2, 7), (42, 1, 1)]) := by
  refine met ?_ ?_ ?_ (okEq ?_) ⟨okEq ?_, ?_, ?_, ?_, ?_, ?_, zero ?_, ?_, ?_⟩ <;> decide +kernel

theorem meets_programCommands_7 : Met 0x0312 false false
    (fun (c : Running) (s : State) => let n := (5, tkt (.fill 7)); let k := fill7; s.useTicket c .fill = .ok n ∧ n.2.payload = .fill (c.u 40 2) ∧ s.fill? c.part (c.u 40 2) = some k ∧ k.destroying = false ∧ Zero c 42 22)
    (rigF) (.ctx 16) (pk 0x312 0 [(32, 8, tno), (40, 2, 7)]) := by
  refine met ?_ ?_ ?_ (okEq ?_) ⟨okEq ?_, ?_, ?_, ?_, zero ?_⟩ <;> decide +kernel

theorem meets_programCommands_8 : Met 0x0313 false false
    (fun (c : Running) (s : State) => let n := (5, tkt (.fill 7)); let k := fill7; s.useTicket c .fill = .ok n ∧ n.2.payload = .fill (c.u 40 2) ∧ s.fill? c.part (c.u 40 2) = some k ∧ k.destroying = false ∧ Zero c 42 22 ∧ k.issued = [])
    (rigF) (.ctx 16) (pk 0x313 0 [(32, 8, tno), (40, 2, 7)]) := by
  refine met ?_ ?_ ?_ (okEq ?_) ⟨okEq ?_, ?_, ?_, ?_, zero ?_, ?_⟩ <;> decide +kernel

theorem meets_streamCommands_1 : Met 0x0401 false false
    (fun (c : Running) (s : State) => let n := 5; let t := tkt (.prog [opEnd]); let cores := okGet (coreRange (tkt (.prog [opEnd])) (((State.enter (rigT (.prog [opEnd]) [obj 3 2097152 1 0 []]) (.ctx 16) (pk 0x401 128 ([(32, 8, tno)] ++ at_ 64 sdesc))).1).u 41 1) (((State.enter (rigT (.prog [opEnd]) [obj 3 2097152 1 0 []]) (.ctx 16) (pk 0x401 128 ([(32, 8, tno)] ++ at_ 64 sdesc))).1).u 42 1) 41) (by decide +kernel); let phys := Option.get (((State.enter (rigT (.prog [opEnd]) [obj 3 2097152 1 0 []]) (.ctx 16) (pk 0x401 128 ([(32, 8, tno)] ++ at_ 64 sdesc))).2).physCores (okGet (coreRange (tkt (.prog [opEnd])) (((State.enter (rigT (.prog [opEnd]) [obj 3 2097152 1 0 []]) (.ctx 16) (pk 0x401 128 ([(32, 8, tno)] ++ at_ 64 sdesc))).1).u 41 1) (((State.enter (rigT (.prog [opEnd]) [obj 3 2097152 1 0 []]) (.ctx 16) (pk 0x401 128 ([(32, 8, tno)] ++ at_ 64 sdesc))).1).u 42 1) 41) (by decide +kernel))) (by decide +kernel); let s1 := okGet ((((State.enter (rigT (.prog [opEnd]) [obj 3 2097152 1 0 []]) (.ctx 16) (pk 0x401 128 ([(32, 8, tno)] ++ at_ 64 sdesc))).2).holdCores ((State.enter (rigT (.prog [opEnd]) [obj 3 2097152 1 0 []]) (.ctx 16) (pk 0x401 128 ([(32, 8, tno)] ++ at_ 64 sdesc))).1).uid ((State.enter (rigT (.prog [opEnd]) [obj 3 2097152 1 0 []]) (.ctx 16) (pk 0x401 128 ([(32, 8, tno)] ++ at_ 64 sdesc))).1).ctx (Option.get (((State.enter (rigT (.prog [opEnd]) [obj 3 2097152 1 0 []]) (.ctx 16) (pk 0x401 128 ([(32, 8, tno)] ++ at_ 64 sdesc))).2).physCores (okGet (coreRange (tkt (.prog [opEnd])) (((State.enter (rigT (.prog [opEnd]) [obj 3 2097152 1 0 []]) (.ctx 16) (pk 0x401 128 ([(32, 8, tno)] ++ at_ 64 sdesc))).1).u 41 1) (((State.enter (rigT (.prog [opEnd]) [obj 3 2097152 1 0 []]) (.ctx 16) (pk 0x401 128 ([(32, 8, tno)] ++ at_ 64 sdesc))).1).u 42 1) 41) (by decide +kernel))) (by decide +kernel))).startSplit ((State.enter (rigT (.prog [opEnd]) [obj 3 2097152 1 0 []]) (.ctx 16) (pk 0x401 128 ([(32, 8, tno)] ++ at_ 64 sdesc))).1) 0 ((State.enter (rigT (.prog [opEnd]) [obj 3 2097152 1 0 []]) (.ctx 16) (pk 0x401 128 ([(32, 8, tno)] ++ at_ 64 sdesc))).1).pkt.bytes (Option.get (((State.enter (rigT (.prog [opEnd]) [obj 3 2097152 1 0 []]) (.ctx 16) (pk 0x401 128 ([(32, 8, tno)] ++ at_ 64 sdesc))).2).physCores (okGet (coreRange (tkt (.prog [opEnd])) (((State.enter (rigT (.prog [opEnd]) [obj 3 2097152 1 0 []]) (.ctx 16) (pk 0x401 128 ([(32, 8, tno)] ++ at_ 64 sdesc))).1).u 41 1) (((State.enter (rigT (.prog [opEnd]) [obj 3 2097152 1 0 []]) (.ctx 16) (pk 0x401 128 ([(32, 8, tno)] ++ at_ 64 sdesc))).1).u 42 1) 41) (by decide +kernel))) (by decide +kernel)) (tkt (.prog [opEnd])).decl.dense) (by decide +kernel); let d := (c.pkt.bytes.drop 64).take 128; c.u 26 2 = 128 ∧ s.useTicket c .progOrPlan = .ok (n, t) ∧ c.u 40 1 ≤ 5 ∧ coreRange t (c.u 41 1) (c.u 42 1) 41 = .ok cores ∧ Zero c 43 21 ∧ streamErrors d (streamDesc d [0, 0, 0, 0]) = none ∧ s.physCores cores = some phys ∧ c.u 40 1 < fld d 115 1 ∧ (∀ k ∈ phys, s.coreFree c.ctx k = true) ∧ (s.holdCores c.uid c.ctx phys).startSplit c 0 c.pkt.bytes phys t.decl.dense = .ok s1)
    (rigT (.prog [opEnd]) [obj 3 2097152 1 0 []]) (.ctx 16) (pk 0x401 128 ([(32, 8, tno)] ++ at_ 64 sdesc)) := by
  refine met ?_ ?_ ?_ (okEq ?_) ⟨?_, okEq ?_, ?_, okGet_eq _ ?_, zero ?_, ?_, getAll ?_, ?_, ?_, okGet_eq _ ?_⟩ <;> decide +kernel

theorem meets_streamCommands_2 : Met 0x0402 false false
    (fun (c : Running) (s : State) => let n := 5; let t := tkt (.prog [opEnd]); let gs := okGet (fusedFields ((State.enter (rigT (.prog [opEnd]) [obj 3 2097152 1 0 []]) (.ctx 16) (pk 0x402 208 ([(32, 8, tno), (40, 1, 2), (44, 4, 1), (64, 1, 1), (65, 1, 1), (66, 1, 1)] ++ at_ 72 tdesc ++ [(136, 1, 7), (137, 1, 1), (138, 1, 2)] ++ at_ 144 sdesc7))).1).pkt.bytes) (by decide +kernel); let cores := okGet (coreRange (tkt (.prog [opEnd])) (((State.enter (rigT (.prog [opEnd]) [obj 3 2097152 1 0 []]) (.ctx 16) (pk 0x402 208 ([(32, 8, tno), (40, 1, 2), (44, 4, 1), (64, 1, 1), (65, 1, 1), (66, 1, 1)] ++ at_ 72 tdesc ++ [(136, 1, 7), (137, 1, 1), (138, 1, 2)] ++ at_ 144 sdesc7))).1).u 41 1) (((State.enter (rigT (.prog [opEnd]) [obj 3 2097152 1 0 []]) (.ctx 16) (pk 0x402 208 ([(32, 8, tno), (40, 1, 2), (44, 4, 1), (64, 1, 1), (65, 1, 1), (66, 1, 1)] ++ at_ 72 tdesc ++ [(136, 1, 7), (137, 1, 1), (138, 1, 2)] ++ at_ 144 sdesc7))).1).u 42 1) 41) (by decide +kernel); let phys := Option.get (((State.enter (rigT (.prog [opEnd]) [obj 3 2097152 1 0 []]) (.ctx 16) (pk 0x402 208 ([(32, 8, tno), (40, 1, 2), (44, 4, 1), (64, 1, 1), (65, 1, 1), (66, 1, 1)] ++ at_ 72 tdesc ++ [(136, 1, 7), (137, 1, 1), (138, 1, 2)] ++ at_ 144 sdesc7))).2).physCores (okGet (coreRange (tkt (.prog [opEnd])) (((State.enter (rigT (.prog [opEnd]) [obj 3 2097152 1 0 []]) (.ctx 16) (pk 0x402 208 ([(32, 8, tno), (40, 1, 2), (44, 4, 1), (64, 1, 1), (65, 1, 1), (66, 1, 1)] ++ at_ 72 tdesc ++ [(136, 1, 7), (137, 1, 1), (138, 1, 2)] ++ at_ 144 sdesc7))).1).u 41 1) (((State.enter (rigT (.prog [opEnd]) [obj 3 2097152 1 0 []]) (.ctx 16) (pk 0x402 208 ([(32, 8, tno), (40, 1, 2), (44, 4, 1), (64, 1, 1), (65, 1, 1), (66, 1, 1)] ++ at_ 72 tdesc ++ [(136, 1, 7), (137, 1, 1), (138, 1, 2)] ++ at_ 144 sdesc7))).1).u 42 1) 41) (by decide +kernel))) (by decide +kernel); let s1 := okGet (((((State.enter (rigT (.prog [opEnd]) [obj 3 2097152 1 0 []]) (.ctx 16) (pk 0x402 208 ([(32, 8, tno), (40, 1, 2), (44, 4, 1), (64, 1, 1), (65, 1, 1), (66, 1, 1)] ++ at_ 72 tdesc ++ [(136, 1, 7), (137, 1, 1), (138, 1, 2)] ++ at_ 144 sdesc7))).2).holdCores ((State.enter (rigT (.prog [opEnd]) [obj 3 2097152 1 0 []]) (.ctx 16) (pk 0x402 208 ([(32, 8, tno), (40, 1, 2), (44, 4, 1), (64, 1, 1), (65, 1, 1), (66, 1, 1)] ++ at_ 72 tdesc ++ [(136, 1, 7), (137, 1, 1), (138, 1, 2)] ++ at_ 144 sdesc7))).1).uid ((State.enter (rigT (.prog [opEnd]) [obj 3 2097152 1 0 []]) (.ctx 16) (pk 0x402 208 ([(32, 8, tno), (40, 1, 2), (44, 4, 1), (64, 1, 1), (65, 1, 1), (66, 1, 1)] ++ at_ 72 tdesc ++ [(136, 1, 7), (137, 1, 1), (138, 1, 2)] ++ at_ 144 sdesc7))).1).ctx (Option.get (((State.enter (rigT (.prog [opEnd]) [obj 3 2097152 1 0 []]) (.ctx 16) (pk 0x402 208 ([(32, 8, tno), (40, 1, 2), (44, 4, 1), (64, 1, 1), (65, 1, 1), (66, 1, 1)] ++ at_ 72 tdesc ++ [(136, 1, 7), (137, 1, 1), (138, 1, 2)] ++ at_ 144 sdesc7))).2).physCores (okGet (coreRange (tkt (.prog [opEnd])) (((State.enter (rigT (.prog [opEnd]) [obj 3 2097152 1 0 []]) (.ctx 16) (pk 0x402 208 ([(32, 8, tno), (40, 1, 2), (44, 4, 1), (64, 1, 1), (65, 1, 1), (66, 1, 1)] ++ at_ 72 tdesc ++ [(136, 1, 7), (137, 1, 1), (138, 1, 2)] ++ at_ 144 sdesc7))).1).u 41 1) (((State.enter (rigT (.prog [opEnd]) [obj 3 2097152 1 0 []]) (.ctx 16) (pk 0x402 208 ([(32, 8, tno), (40, 1, 2), (44, 4, 1), (64, 1, 1), (65, 1, 1), (66, 1, 1)] ++ at_ 72 tdesc ++ [(136, 1, 7), (137, 1, 1), (138, 1, 2)] ++ at_ 144 sdesc7))).1).u 42 1) 41) (by decide +kernel))) (by decide +kernel))).modCmd ((State.enter (rigT (.prog [opEnd]) [obj 3 2097152 1 0 []]) (.ctx 16) (pk 0x402 208 ([(32, 8, tno), (40, 1, 2), (44, 4, 1), (64, 1, 1), (65, 1, 1), (66, 1, 1)] ++ at_ 72 tdesc ++ [(136, 1, 7), (137, 1, 1), (138, 1, 2)] ++ at_ 144 sdesc7))).1).uid (fun k => { k with work := .jobs })).startFused ((State.enter (rigT (.prog [opEnd]) [obj 3 2097152 1 0 []]) (.ctx 16) (pk 0x402 208 ([(32, 8, tno), (40, 1, 2), (44, 4, 1), (64, 1, 1), (65, 1, 1), (66, 1, 1)] ++ at_ 72 tdesc ++ [(136, 1, 7), (137, 1, 1), (138, 1, 2)] ++ at_ 144 sdesc7))).1) 0 ((State.enter (rigT (.prog [opEnd]) [obj 3 2097152 1 0 []]) (.ctx 16) (pk 0x402 208 ([(32, 8, tno), (40, 1, 2), (44, 4, 1), (64, 1, 1), (65, 1, 1), (66, 1, 1)] ++ at_ 72 tdesc ++ [(136, 1, 7), (137, 1, 1), (138, 1, 2)] ++ at_ 144 sdesc7))).1).pkt.bytes (okGet (fusedFields ((State.enter (rigT (.prog [opEnd]) [obj 3 2097152 1 0 []]) (.ctx 16) (pk 0x402 208 ([(32, 8, tno), (40, 1, 2), (44, 4, 1), (64, 1, 1), (65, 1, 1), (66, 1, 1)] ++ at_ 72 tdesc ++ [(136, 1, 7), (137, 1, 1), (138, 1, 2)] ++ at_ 144 sdesc7))).1).pkt.bytes) (by decide +kernel)) (Option.get (((State.enter (rigT (.prog [opEnd]) [obj 3 2097152 1 0 []]) (.ctx 16) (pk 0x402 208 ([(32, 8, tno), (40, 1, 2), (44, 4, 1), (64, 1, 1), (65, 1, 1), (66, 1, 1)] ++ at_ 72 tdesc ++ [(136, 1, 7), (137, 1, 1), (138, 1, 2)] ++ at_ 144 sdesc7))).2).physCores (okGet (coreRange (tkt (.prog [opEnd])) (((State.enter (rigT (.prog [opEnd]) [obj 3 2097152 1 0 []]) (.ctx 16) (pk 0x402 208 ([(32, 8, tno), (40, 1, 2), (44, 4, 1), (64, 1, 1), (65, 1, 1), (66, 1, 1)] ++ at_ 72 tdesc ++ [(136, 1, 7), (137, 1, 1), (138, 1, 2)] ++ at_ 144 sdesc7))).1).u 41 1) (((State.enter (rigT (.prog [opEnd]) [obj 3 2097152 1 0 []]) (.ctx 16) (pk 0x402 208 ([(32, 8, tno), (40, 1, 2), (44, 4, 1), (64, 1, 1), (65, 1, 1), (66, 1, 1)] ++ at_ 72 tdesc ++ [(136, 1, 7), (137, 1, 1), (138, 1, 2)] ++ at_ 144 sdesc7))).1).u 42 1) 41) (by decide +kernel))) (by decide +kernel))) (by decide +kernel); s.useTicket c .progOrPlan = .ok (n, t) ∧ fusedFields c.pkt.bytes = .ok gs ∧ coreRange t (c.u 41 1) (c.u 42 1) 41 = .ok cores ∧ (∀ g ∈ gs, g.bad = none) ∧ s.physCores cores = some phys ∧ (∀ k ∈ phys, s.coreFree c.ctx k = true) ∧ ((s.holdCores c.uid c.ctx phys).modCmd c.uid (fun k => { k with work := .jobs })).startFused c 0 c.pkt.bytes gs phys = .ok s1)
    (rigT (.prog [opEnd]) [obj 3 2097152 1 0 []]) (.ctx 16) (pk 0x402 208 ([(32, 8, tno), (40, 1, 2), (44, 4, 1), (64, 1, 1), (65, 1, 1), (66, 1, 1)] ++ at_ 72 tdesc ++ [(136, 1, 7), (137, 1, 1), (138, 1, 2)] ++ at_ 144 sdesc7)) := by
  refine met ?_ ?_ ?_ (okEq ?_) ⟨okEq ?_, okGet_eq _ ?_, okGet_eq _ ?_, ?_, getAll ?_, ?_, okGet_eq _ ?_⟩ <;> decide +kernel

theorem meets_streamCommands_3 : Met 0x0404 false false
    (fun (c : Running) (_ : State) => c.u 26 2 = 8 ∧ c.ticket = 0 ∧ c.u 40 1 ≤ 1 ∧ Zero c 41 7 ∧ c.u 48 8 % 64 = 0 ∧ c.u 56 8 % 64 = 0 ∧ c.u 56 8 < 2 ^ 52 ∧ c.u 64 8 % 64 = 0 ∧ 64 ≤ c.u 64 8 ∧ c.u 64 8 ≤ 2 ^ 40 ∧ c.u 56 8 + c.u 64 8 ≤ 2 ^ 52 ∧ c.u 48 8 + c.u 64 8 ≤ 2 ^ 64)
    (rig) (.ctx 16) (pk 0x404 8 [(56, 8, 2097152), (64, 8, 64)]) := by
  refine met ?_ ?_ ?_ (okEq ?_) ⟨?_, ?_, ?_, zero ?_, ?_, ?_, ?_, ?_, ?_, ?_, ?_, ?_⟩ <;> decide +kernel

theorem meets_streamCommands_4 : Met 0x0405 false false
    (fun (c : Running) (_ : State) => c.ticket = 0 ∧ c.u 40 8 % 8 = 0 ∧ c.u 40 8 < 2 ^ 52 ∧ c.u 48 8 % 8 = 0 ∧ 8 ≤ c.u 48 8 ∧ c.u 48 8 ≤ 2 ^ 48 ∧ c.u 40 8 + c.u 48 8 ≤ 2 ^ 52)
    (rig) (.ctx 16) (pk 0x405 0 [(40, 8, 2097152), (48, 8, 8)]) := by
  refine met ?_ ?_ ?_ (okEq ?_) ⟨?_, ?_, ?_, ?_, ?_, ?_, ?_⟩ <;> decide +kernel

theorem meets_collectiveCommands_1 : Met 0x0501 false false
    (fun (c : Running) (s : State) => let k := okGet (((State.enter (rigR 2) (.ctx 16) (pk 0x501 8 [(40, 1, 1), (41, 1, 4), (64, 8, 128)])).2).collFields ((State.enter (rigR 2) (.ctx 16) (pk 0x501 8 [(40, 1, 1), (41, 1, 4), (64, 8, 128)])).1) 1) (by decide +kernel); s.collFields c 1 = .ok k ∧ k.compress = false ∧ k.toCru = false ∧ s.refuseAxis c = .ok () ∧ s.waitLines c k.lines = none)
    (rigR 2) (.ctx 16) (pk 0x501 8 [(40, 1, 1), (41, 1, 4), (64, 8, 128)]) := by
  refine met ?_ ?_ ?_ (okEq ?_) ⟨okGet_eq _ ?_, ?_, ?_, okEq ?_, ?_⟩ <;> decide +kernel

theorem meets_collectiveCommands_3 : Met 0x0502 false false
    (fun (c : Running) (s : State) => let k := okGet (((State.enter (rigR 2) (.ctx 16) (pk 0x502 8 [(40, 1, 1), (41, 1, 4), (64, 8, 128)])).2).collFields ((State.enter (rigR 2) (.ctx 16) (pk 0x502 8 [(40, 1, 1), (41, 1, 4), (64, 8, 128)])).1) 2) (by decide +kernel); s.collFields c 2 = .ok k ∧ k.compress = false ∧ k.toCru = false ∧ s.refuseAxis c = .ok () ∧ s.waitLines c k.lines = none)
    (rigR 2) (.ctx 16) (pk 0x502 8 [(40, 1, 1), (41, 1, 4), (64, 8, 128)]) := by
  refine met ?_ ?_ ?_ (okEq ?_) ⟨okGet_eq _ ?_, ?_, ?_, okEq ?_, ?_⟩ <;> decide +kernel

theorem meets_collectiveCommands_4 : Met 0x0503 false false
    (fun (c : Running) (s : State) => let k := okGet (((State.enter (rigR 2) (.ctx 16) (pk 0x503 8 [(40, 1, 1), (41, 1, 4), (64, 8, 128)])).2).collFields ((State.enter (rigR 2) (.ctx 16) (pk 0x503 8 [(40, 1, 1), (41, 1, 4), (64, 8, 128)])).1) 3) (by decide +kernel); s.collFields c 3 = .ok k ∧ k.compress = false ∧ k.toCru = false ∧ s.refuseAxis c = .ok () ∧ s.waitLines c k.lines = none)
    (rigR 2) (.ctx 16) (pk 0x503 8 [(40, 1, 1), (41, 1, 4), (64, 8, 128)]) := by
  refine met ?_ ?_ ?_ (okEq ?_) ⟨okGet_eq _ ?_, ?_, ?_, okEq ?_, ?_⟩ <;> decide +kernel

theorem meets_collectiveCommands_5 : Met 0x0504 false false
    (fun (c : Running) (s : State) => let k := okGet (((State.enter (rigR 2) (.ctx 16) (pk 0x504 8 [(40, 1, 1), (41, 1, 4), (64, 8, 128)])).2).collFields ((State.enter (rigR 2) (.ctx 16) (pk 0x504 8 [(40, 1, 1), (41, 1, 4), (64, 8, 128)])).1) 4) (by decide +kernel); s.collFields c 4 = .ok k ∧ k.compress = false ∧ k.toCru = false ∧ s.refuseAxis c = .ok () ∧ s.waitLines c k.lines = none)
    (rigR 2) (.ctx 16) (pk 0x504 8 [(40, 1, 1), (41, 1, 4), (64, 8, 128)]) := by
  refine met ?_ ?_ ?_ (okEq ?_) ⟨okGet_eq _ ?_, ?_, ?_, okEq ?_, ?_⟩ <;> decide +kernel

theorem meets_collectiveCommands_6 : Met 0x0505 false false
    (fun (c : Running) (s : State) => let n := 5; let t := tkt (.prog [opEnd]); let b := 1; s.useTicket c .any = .ok (n, t) ∧ t.barIds[c.u 40 2]? = some b ∧ 1 ≤ c.u 42 1 ∧ c.u 42 1 ≤ 3 ∧ s.field .colRing c.part (c.u 42 1 - 1) 0 16 = 1 ∧ Zero c 43 21 ∧ s.refuseAxis c = .ok ())
    ((({ rigT (.prog [opEnd]) [] with regs := (rigR 1).regs } : State))) (.ctx 16) (pk 0x505 0 [(32, 8, tno), (40, 2, 1), (42, 1, 1)]) := by
  refine met ?_ ?_ ?_ (okEq ?_) ⟨okEq ?_, ?_, ?_, ?_, ?_, zero ?_, okEq ?_⟩ <;> decide +kernel

theorem meets_collectiveCommands_7 : Met 0x0505 false false
    (fun (c : Running) (s : State) => let n := 5; let t := tkt (.prog [opEnd]); let b := 1; s.useTicket c .any = .ok (n, t) ∧ t.barIds[c.u 40 2]? = some b ∧ 1 ≤ c.u 42 1 ∧ c.u 42 1 ≤ 3 ∧ 1 < s.field .colRing c.part (c.u 42 1 - 1) 0 16 ∧ Zero c 43 21 ∧ s.refuseAxis c = .ok ())
    ((({ rigT (.prog [opEnd]) [] with regs := (rigR 2).regs } : State))) (.ctx 16) (pk 0x505 0 [(32, 8, tno), (40, 2, 1), (42, 1, 1)]) := by
  refine met ?_ ?_ ?_ (okEq ?_) ⟨okEq ?_, ?_, ?_, ?_, ?_, zero ?_, okEq ?_⟩ <;> decide +kernel

theorem meets_collectiveCommands_8 : Met 0x0506 false false
    (fun (c : Running) (s : State) => let x := ctx1; let l := []; c.ticket = 0 ∧ s.ctx? c.ctx = some x ∧ c.step ≠ 0 ∧ (∀ v ∈ x.votes, v.step ≠ c.step) ∧ c.step ∉ x.pendingVotes ∧ c.u 40 1 < 8 ∧ (∀ r ∈ s.ringsOf c.part (c.u 40 1), r.2.1 ≠ 0) ∧ Zero c 41 7 ∧ c.u 48 8 % 4 = 0 ∧ Zero c 56 8 ∧ s.refuseAxis c = .ok () ∧ (if c.u 48 8 = 0 then l = [] else s.input c false (c.u 48 8) 4 = .ok l))
    (rigR 2) (.ctx 16) (pk 0x506 0 [(8, 8, 9), (40, 1, 0)]) := by
  refine met ?_ ?_ ?_ (okEq ?_) ⟨?_, ?_, ?_, ?_, ?_, ?_, ?_, zero ?_, ?_, zero ?_, okEq ?_, by rw [if_pos (by decide +kernel)]⟩ <;> decide +kernel

def m_collectiveCommands_9_s : State := { rig with tenants := { rig.tenants with ctxs := [ctx1] } }
def m_collectiveCommands_9_c : Running := { nopRun 7 with ballot := some { word := 1, rings := [(1, 2, 0)] } }
def m_collectiveCommands_9_v : Ballot := { word := 1, rings := [(1, 2, 0)] }
def m_collectiveCommands_9_w : Nat := (m_collectiveCommands_9_v).word ||| (if (ctx1).overflow then 1 else 0)
def m_collectiveCommands_9_s1 : State := ((m_collectiveCommands_9_s).modCtx (m_collectiveCommands_9_c).ctx (fun k => { k with overflow := false })).modCmd (m_collectiveCommands_9_c).uid (fun q => { q with ballot := none })
theorem meets_collectiveCommands_9 :
    let s : State := m_collectiveCommands_9_s; let c : Running := m_collectiveCommands_9_c; let v : Ballot := m_collectiveCommands_9_v; let x : Ctx := ctx1; let s1 : State := m_collectiveCommands_9_s1; let w : Nat := m_collectiveCommands_9_w; c.ballot = some v ∧ s.ctx? c.ctx = some x ∧ w = v.word ||| (if x.overflow then 1 else 0) ∧ s1 = (s.modCtx c.ctx (fun k => { k with overflow := false })).modCmd c.uid (fun q => { q with ballot := none }) := by
  refine ⟨?_, ?_, rfl, rfl⟩ <;> decide +kernel

/-- A ballot with no ring of two members, and one with such a ring. -/
theorem meets_collectiveCommands_9_rings : (∀ r ∈ ({ word := 1, rings := [(1, 1, 0)] } : Ballot).rings, r.2.1 ≤ 1) ∧
    ({ word := 1, rings := [(1, 2, 0)] } : Ballot).rings.filter (fun r => decide (1 < r.2.1)) = (1, 2, 0) :: [] := by decide +kernel

theorem meets_embeddingCommands_1 : Met 0x0601 false false
    (fun (c : Running) (s : State) => let bs := okGet (((State.enter (rigO [obj 3 2097152 1 0 [], obj 4 4194304 1 0 tblBytes]) (.ctx 16) (pk 0x601 64 ([(40, 8, 4194304), (48, 2, 1)] ++ decl 0))).2).input ((State.enter (rigO [obj 3 2097152 1 0 [], obj 4 4194304 1 0 tblBytes]) (.ctx 16) (pk 0x601 64 ([(40, 8, 4194304), (48, 2, 1)] ++ decl 0))).1) false (((State.enter (rigO [obj 3 2097152 1 0 [], obj 4 4194304 1 0 tblBytes]) (.ctx 16) (pk 0x601 64 ([(40, 8, 4194304), (48, 2, 1)] ++ decl 0))).1).u 40 8) (64 * ((State.enter (rigO [obj 3 2097152 1 0 [], obj 4 4194304 1 0 tblBytes]) (.ctx 16) (pk 0x601 64 ([(40, 8, 4194304), (48, 2, 1)] ++ decl 0))).1).u 48 2)) (by decide +kernel); let g := okGet (((State.enter (rigO [obj 3 2097152 1 0 [], obj 4 4194304 1 0 tblBytes]) (.ctx 16) (pk 0x601 64 ([(40, 8, 4194304), (48, 2, 1)] ++ decl 0))).2).admission ((State.enter (rigO [obj 3 2097152 1 0 [], obj 4 4194304 1 0 tblBytes]) (.ctx 16) (pk 0x601 64 ([(40, 8, 4194304), (48, 2, 1)] ++ decl 0))).1) 64) (by decide +kernel); let id := Option.get ((((State.enter (rigO [obj 3 2097152 1 0 [], obj 4 4194304 1 0 tblBytes]) (.ctx 16) (pk 0x601 64 ([(40, 8, 4194304), (48, 2, 1)] ++ decl 0))).2).sawInput ((State.enter (rigO [obj 3 2097152 1 0 [], obj 4 4194304 1 0 tblBytes]) (.ctx 16) (pk 0x601 64 ([(40, 8, 4194304), (48, 2, 1)] ++ decl 0))).1) false (((State.enter (rigO [obj 3 2097152 1 0 [], obj 4 4194304 1 0 tblBytes]) (.ctx 16) (pk 0x601 64 ([(40, 8, 4194304), (48, 2, 1)] ++ decl 0))).1).u 40 8) (64 * ((State.enter (rigO [obj 3 2097152 1 0 [], obj 4 4194304 1 0 tblBytes]) (.ctx 16) (pk 0x601 64 ([(40, 8, 4194304), (48, 2, 1)] ++ decl 0))).1).u 48 2)).pick 65536 ((((State.enter (rigO [obj 3 2097152 1 0 [], obj 4 4194304 1 0 tblBytes]) (.ctx 16) (pk 0x601 64 ([(40, 8, 4194304), (48, 2, 1)] ++ decl 0))).2).embed.tsets.filter (·.ctx == ((State.enter (rigO [obj 3 2097152 1 0 [], obj 4 4194304 1 0 tblBytes]) (.ctx 16) (pk 0x601 64 ([(40, 8, 4194304), (48, 2, 1)] ++ decl 0))).1).ctx)).map (·.id))).1 (by decide +kernel); let s0 := ((((State.enter (rigO [obj 3 2097152 1 0 [], obj 4 4194304 1 0 tblBytes]) (.ctx 16) (pk 0x601 64 ([(40, 8, 4194304), (48, 2, 1)] ++ decl 0))).2).sawInput ((State.enter (rigO [obj 3 2097152 1 0 [], obj 4 4194304 1 0 tblBytes]) (.ctx 16) (pk 0x601 64 ([(40, 8, 4194304), (48, 2, 1)] ++ decl 0))).1) false (((State.enter (rigO [obj 3 2097152 1 0 [], obj 4 4194304 1 0 tblBytes]) (.ctx 16) (pk 0x601 64 ([(40, 8, 4194304), (48, 2, 1)] ++ decl 0))).1).u 40 8) (64 * ((State.enter (rigO [obj 3 2097152 1 0 [], obj 4 4194304 1 0 tblBytes]) (.ctx 16) (pk 0x601 64 ([(40, 8, 4194304), (48, 2, 1)] ++ decl 0))).1).u 48 2)).pick 65536 ((((State.enter (rigO [obj 3 2097152 1 0 [], obj 4 4194304 1 0 tblBytes]) (.ctx 16) (pk 0x601 64 ([(40, 8, 4194304), (48, 2, 1)] ++ decl 0))).2).embed.tsets.filter (·.ctx == ((State.enter (rigO [obj 3 2097152 1 0 [], obj 4 4194304 1 0 tblBytes]) (.ctx 16) (pk 0x601 64 ([(40, 8, 4194304), (48, 2, 1)] ++ decl 0))).1).ctx)).map (·.id))).2; c.u 26 2 = 64 ∧ c.ticket = 0 ∧ c.u 40 8 % 64 = 0 ∧ c.u 40 8 < 2 ^ 52 ∧ 1 ≤ c.u 48 2 ∧ c.u 48 2 ≤ 4096 ∧ Zero c 50 14 ∧ declFormat c 64 64 = .ok () ∧ s.input c false (c.u 40 8) (64 * c.u 48 2) = .ok bs ∧ (∀ p ∈ (chunks 64 4097 bs).zipIdx, s.tableErrors c.ctx p.1 = none) ∧ s.admission c 64 = .ok g ∧ (s.sawInput c false (c.u 40 8) (64 * c.u 48 2)).pick 65536 ((s.embed.tsets.filter (·.ctx == c.ctx)).map (·.id)) = (some id, s0))
    (rigO [obj 3 2097152 1 0 [], obj 4 4194304 1 0 tblBytes]) (.ctx 16) (pk 0x601 64 ([(40, 8, 4194304), (48, 2, 1)] ++ decl 0)) := by
  refine met ?_ ?_ ?_ (okEq ?_) ⟨?_, ?_, ?_, ?_, ?_, ?_, zero ?_, okEq ?_, okGet_eq _ ?_, ?_, okGet_eq _ ?_, getFst ?_⟩ <;> decide +kernel

theorem meets_embeddingCommands_2 : Met 0x0602 false false
    (fun (c : Running) (s : State) => let d := (((State.enter (rigE) (.ctx 16) (pk 0x602 128 ([(32, 8, tno)] ++ at_ 64 bag1))).1).pkt.bytes.drop 64).take 128; let tbl := tbl0; let phys := [0]; let tk := tkt (.tables 0); let s2 := okGet (((((State.enter (rigE) (.ctx 16) (pk 0x602 128 ([(32, 8, tno)] ++ at_ 64 bag1))).2).holdCores ((State.enter (rigE) (.ctx 16) (pk 0x602 128 ([(32, 8, tno)] ++ at_ 64 bag1))).1).uid ((State.enter (rigE) (.ctx 16) (pk 0x602 128 ([(32, 8, tno)] ++ at_ 64 bag1))).1).ctx ([0])).modCmd ((State.enter (rigE) (.ctx 16) (pk 0x602 128 ([(32, 8, tno)] ++ at_ 64 bag1))).1).uid (fun k => { k with work := .jobs })).lookupShares ((State.enter (rigE) (.ctx 16) (pk 0x602 128 ([(32, 8, tno)] ++ at_ 64 bag1))).1) ((((State.enter (rigE) (.ctx 16) (pk 0x602 128 ([(32, 8, tno)] ++ at_ 64 bag1))).1).pkt.bytes.drop 64).take 128) (tkt (.tables 0)).decl.sparse ([0])) (by decide +kernel); let t := embDesc d; s.embCommand c 1 = .ok (.ok (d, tbl, phys, tk)) ∧ (∀ k ∈ phys, s.coreFree c.ctx k = true) ∧ s.yarrowWaits c.ctx t.tset t.table = false ∧ s.provHeld none (s.embPlaces t tbl 1 0 c.ctx 0 t.bags) = false ∧ s.waitLines c [(t.data, (t.bags - 1) * t.stride + dataBytes 1 t tbl.width, true)] = none ∧ ((s.holdCores c.uid c.ctx phys).modCmd c.uid (fun k => { k with work := .jobs })).lookupShares c d tk.decl.sparse phys = .ok s2)
    (rigE) (.ctx 16) (pk 0x602 128 ([(32, 8, tno)] ++ at_ 64 bag1)) := by
  refine met ?_ ?_ ?_ (okEq ?_) ⟨okEq2 ?_, ?_, ?_, ?_, ?_, okGet_eq _ ?_⟩ <;> decide +kernel

theorem meets_embeddingCommands_3 : Met 0x0603 false false
    (fun (c : Running) (s : State) => let d := (((State.enter (rigE) (.ctx 16) (pk 0x603 128 ([(32, 8, tno), (8, 8, 0)] ++ at_ 64 bag1))).1).pkt.bytes.drop 64).take 128; let tbl := tbl0; let phys := [0]; let tk := tkt (.tables 0); let parts := ([0]).zipIdx.map (fun q => (q.1, q.2, bagShare (embDesc ((((State.enter (rigE) (.ctx 16) (pk 0x603 128 ([(32, 8, tno), (8, 8, 0)] ++ at_ 64 bag1))).1).pkt.bytes.drop 64).take 128)).bags ([0]).length q.2, ((State.enter (rigE) (.ctx 16) (pk 0x603 128 ([(32, 8, tno), (8, 8, 0)] ++ at_ 64 bag1))).2).contributions q.1 ((State.enter (rigE) (.ctx 16) (pk 0x603 128 ([(32, 8, tno), (8, 8, 0)] ++ at_ 64 bag1))).1).ctx (embDesc ((((State.enter (rigE) (.ctx 16) (pk 0x603 128 ([(32, 8, tno), (8, 8, 0)] ++ at_ 64 bag1))).1).pkt.bytes.drop 64).take 128)) (tbl0) (bagShare (embDesc ((((State.enter (rigE) (.ctx 16) (pk 0x603 128 ([(32, 8, tno), (8, 8, 0)] ++ at_ 64 bag1))).1).pkt.bytes.drop 64).take 128)).bags ([0]).length q.2).1 (bagShare (embDesc ((((State.enter (rigE) (.ctx 16) (pk 0x603 128 ([(32, 8, tno), (8, 8, 0)] ++ at_ 64 bag1))).1).pkt.bytes.drop 64).take 128)).bags ([0]).length q.2).2)); let t := embDesc d; let p := ((s.ctx? c.ctx).map (·.part)).getD 0; let all : List Contribution := parts.flatMap (fun q => q.2.2.2); let rows := all.map (fun k => (s.authority p c.ctx (tbl.rowAddr k.row), rowLen tbl.width tbl.bits)); s.stepWaits c.ctx c.step = false ∧ s.embCommand c 2 = .ok (.ok (d, tbl, phys, tk)) ∧ s.stepSkipped c.ctx c.step = false ∧ (∀ k ∈ phys, s.coreFree c.ctx k = true) ∧ s.yarrowWaits c.ctx t.tset t.table = false ∧ s.provHeld none (s.embPlaces t tbl 2 0 c.ctx 0 t.bags) = false ∧ firstUnmapped s c.ctx ([dataRange 2 t tbl.width 0 t.bags] ++ (if c.chill = true ∨ t.coalesce = true then [(true, t.scratch, t.scratchBytes)] else [])) = none ∧ s.idsUnmapped 0 c.ctx t 2 0 t.bags = none ∧ parts = phys.zipIdx.map (fun q => (q.1, q.2, bagShare t.bags phys.length q.2, s.contributions q.1 c.ctx t tbl (bagShare t.bags phys.length q.2).1 (bagShare t.bags phys.length q.2).2)) ∧ firstUnmapped s c.ctx (rows.map (fun r => (true, r.1, r.2))) = none ∧ s.farProtected p c.ctx tbl all = false ∧ (c.chill = true → entryBytes tbl.width * sumOf (fun q => (distinct (q.2.2.2.map (fun (k : Contribution) => k.row))).length) parts ≤ t.scratchBytes) ∧ s.waitLines c (rows.map (fun r => (r.1, r.2, true))) = none)
    (rigE) (.ctx 16) (pk 0x603 128 ([(32, 8, tno), (8, 8, 0)] ++ at_ 64 bag1)) := by
  refine met ?_ ?_ ?_ (okEq ?_) ⟨?_, okEq2 ?_, ?_, ?_, ?_, ?_, ?_, ?_, rfl, ?_, ?_, ?_, ?_⟩ <;> decide +kernel

theorem meets_embeddingCommands_4 : Met 0x0604 false false
    (fun (c : Running) (s : State) => let tbl := (okGet (((State.enter (rigE) (.ctx 16) (pk 0x604 0 [(32, 8, tno), (44, 1, 1), (48, 8, 4194304), (56, 4, 1)])).2).yarrowArgs ((State.enter (rigE) (.ctx 16) (pk 0x604 0 [(32, 8, tno), (44, 1, 1), (48, 8, 4194304), (56, 4, 1)])).1) true) (by decide +kernel)).1; let rows := (okGet (((State.enter (rigE) (.ctx 16) (pk 0x604 0 [(32, 8, tno), (44, 1, 1), (48, 8, 4194304), (56, 4, 1)])).2).yarrowArgs ((State.enter (rigE) (.ctx 16) (pk 0x604 0 [(32, 8, tno), (44, 1, 1), (48, 8, 4194304), (56, 4, 1)])).1) true) (by decide +kernel)).2; let k := part0; s.yarrowArgs c true = .ok (tbl, rows) ∧ s.part? c.part = some k ∧ c.u 44 1 = 1)
    (rigE) (.ctx 16) (pk 0x604 0 [(32, 8, tno), (44, 1, 1), (48, 8, 4194304), (56, 4, 1)]) := by
  refine met ?_ ?_ ?_ (okEq ?_) ⟨okGet_eq _ ?_, ?_, ?_⟩ <;> decide +kernel

theorem meets_embeddingCommands_5 : Met 0x0605 false false
    (fun (c : Running) (s : State) => let tbl := (okGet (((State.enter (rigE) (.ctx 16) (pk 0x605 0 [(32, 8, tno)])).2).yarrowArgs ((State.enter (rigE) (.ctx 16) (pk 0x605 0 [(32, 8, tno)])).1) false) (by decide +kernel)).1; let rows := (okGet (((State.enter (rigE) (.ctx 16) (pk 0x605 0 [(32, 8, tno)])).2).yarrowArgs ((State.enter (rigE) (.ctx 16) (pk 0x605 0 [(32, 8, tno)])).1) false) (by decide +kernel)).2; s.yarrowArgs c false = .ok (tbl, rows) ∧ c.u 44 1 ≠ 2)
    (rigE) (.ctx 16) (pk 0x605 0 [(32, 8, tno)]) := by
  refine met ?_ ?_ ?_ (okEq ?_) ⟨okGet_eq _ ?_, ?_⟩ <;> decide +kernel

theorem meets_crucibleCommands_1 : Met 0x0701 false false
    (fun (c : Running) (s : State) => let g := okGet (((State.enter (rigO cobjs) (.ctx 16) (pk 0x701 192 (decl 0 ++ [(144, 8, 64), (153, 1, 0x53), (160, 8, 2097152), (168, 8, 4194304), (192, 8, 6291456)]))).2).admission ((State.enter (rigO cobjs) (.ctx 16) (pk 0x701 192 (decl 0 ++ [(144, 8, 64), (153, 1, 0x53), (160, 8, 2097152), (168, 8, 4194304), (192, 8, 6291456)]))).1) 64) (by decide +kernel); let id := Option.get ((({ ((State.enter (rigO cobjs) (.ctx 16) (pk 0x701 192 (decl 0 ++ [(144, 8, 64), (153, 1, 0x53), (160, 8, 2097152), (168, 8, 4194304), (192, 8, 6291456)]))).2) with free := ((State.enter (rigO cobjs) (.ctx 16) (pk 0x701 192 (decl 0 ++ [(144, 8, 64), (153, 1, 0x53), (160, 8, 2097152), (168, 8, 4194304), (192, 8, 6291456)]))).2).free + (okGet (((State.enter (rigO cobjs) (.ctx 16) (pk 0x701 192 (decl 0 ++ [(144, 8, 64), (153, 1, 0x53), (160, 8, 2097152), (168, 8, 4194304), (192, 8, 6291456)]))).2).admission ((State.enter (rigO cobjs) (.ctx 16) (pk 0x701 192 (decl 0 ++ [(144, 8, 64), (153, 1, 0x53), (160, 8, 2097152), (168, 8, 4194304), (192, 8, 6291456)]))).1) 64) (by decide +kernel)).decl.cores + (okGet (((State.enter (rigO cobjs) (.ctx 16) (pk 0x701 192 (decl 0 ++ [(144, 8, 64), (153, 1, 0x53), (160, 8, 2097152), (168, 8, 4194304), (192, 8, 6291456)]))).2).admission ((State.enter (rigO cobjs) (.ctx 16) (pk 0x701 192 (decl 0 ++ [(144, 8, 64), (153, 1, 0x53), (160, 8, 2097152), (168, 8, 4194304), (192, 8, 6291456)]))).1) 64) (by decide +kernel)).decl.barriers + 1 } : State).pick 1024 (((State.enter (rigO cobjs) (.ctx 16) (pk 0x701 192 (decl 0 ++ [(144, 8, 64), (153, 1, 0x53), (160, 8, 2097152), (168, 8, 4194304), (192, 8, 6291456)]))).2).cru.groups.map (·.id))).1) (by decide +kernel); s.stepSkipped c.ctx c.step = false ∧ s.stepWaits c.ctx c.step = false ∧ c.u 26 2 = 192 ∧ c.ticket = 0 ∧ Zero c 40 24 ∧ declFormat c 64 0 = .ok () ∧ leastOf (s.groupErrors c.ctx (fun o n => c.u (128 + o) n)) = none ∧ s.cru.groups.length < 1024 ∧ s.admission c 64 = .ok g ∧ (({ s with free := s.free + g.decl.cores + g.decl.barriers + 1 } : State).pick 1024 (s.cru.groups.map (·.id))).1 = some id)
    (rigO cobjs) (.ctx 16) (pk 0x701 192 (decl 0 ++ [(144, 8, 64), (153, 1, 0x53), (160, 8, 2097152), (168, 8, 4194304), (192, 8, 6291456)])) := by
  refine met ?_ ?_ ?_ (okEq ?_) ⟨?_, ?_, ?_, ?_, zero ?_, okEq ?_, ?_, ?_, okGet_eq _ ?_, getAll ?_⟩ <;> decide +kernel

theorem meets_crucibleCommands_2 : Met 0x0702 false false
    (fun (c : Running) (s : State) => let faults : List Nat := []; let g := grp0; let k := 0; let h := okGet (((State.enter (rigC grp0) (.ctx 16) (pk 0x702 16 [(32, 8, tno), (8, 8, 1), (42, 1, 4), (48, 8, 6291456), (72, 8, 64)])).2).hyperWords (grp0)) (by decide +kernel); c.u 26 2 = 16 ∧ s.groupArg c 40 false = .ok g ∧ (c.u 42 1 = 4 ∨ c.u 42 1 = 5) ∧ Zero c 43 5 ∧ c.u 48 8 % 64 = 0 ∧ Zero c 56 8 ∧ c.u 64 8 % g.gpe = 0 ∧ c.u 64 8 < g.elems ∧ c.u 64 8 + c.u 72 8 ≤ g.elems ∧ (c.u 72 8 % g.gpe = 0 ∨ c.u 64 8 + c.u 72 8 = g.elems) ∧ s.quiesced c = false ∧ s.stepSkipped c.ctx c.step = false ∧ s.applyScale c g = some k ∧ (c.u 72 8 = 0 ∨ s.stepOk c g (c.u 64 8 / g.gpe) (cdiv (c.u 64 8 + c.u 72 8) g.gpe) = true) ∧ s.waitLines c ((c.u 48 8, c.u 72 8 * (es2 (c.u 42 1) / 2), false) :: g.stateRanges (c.u 64 8) (c.u 72 8)) = none ∧ s.hyperWords g = .ok h)
    (rigC grp0) (.ctx 16) (pk 0x702 16 [(32, 8, tno), (8, 8, 1), (42, 1, 4), (48, 8, 6291456), (72, 8, 64)]) := by
  refine met ?_ ?_ ?_ (okEq ?_) ⟨?_, okEq ?_, ?_, zero ?_, ?_, zero ?_, ?_, ?_, ?_, ?_, ?_, ?_, ?_, ?_, ?_, okGet_eq _ ?_⟩ <;> decide +kernel

theorem meets_crucibleCommands_3 : Met 0x0703 false false
    (fun (c : Running) (s : State) => s.stepSkipped c.ctx c.step = false ∧ s.stepWaits c.ctx c.step = false ∧ c.ticket = 0 ∧ -24 ≤ sgn 8 (c.u 40 1) ∧ sgn 8 (c.u 40 1) ≤ 40 ∧ c.u 41 1 ≤ 15 ∧ -24 ≤ sgn 8 (c.u 42 1) ∧ sgn 8 (c.u 42 1) ≤ sgn 8 (c.u 40 1) ∧ sgn 8 (c.u 40 1) ≤ sgn 8 (c.u 43 1) ∧ sgn 8 (c.u 43 1) ≤ 40 ∧ Zero c 48 16)
    (rig) (.ctx 16) (pk 0x703 0 []) := by
  refine met ?_ ?_ ?_ (okEq ?_) ⟨?_, ?_, ?_, ?_, ?_, ?_, ?_, ?_, ?_, ?_, zero ?_⟩ <;> decide +kernel

theorem meets_crucibleCommands_4 : Met 0x0704 false false
    (fun (c : Running) (s : State) => let g := { grp0 with deferN := 1, dAddr := 2097152 }; let h := okGet (((State.enter (rigC { grp0 with deferN := 1, dAddr := 2097152 }) (.ctx 16) (pk 0x704 0 [(32, 8, tno), (8, 8, 1)])).2).hyperWords ({ grp0 with deferN := 1, dAddr := 2097152 })) (by decide +kernel); s.groupArg c 40 true = .ok g ∧ Zero c 42 22 ∧ g.deferN ≠ 0 ∧ s.quiesced c = false ∧ s.stepSkipped c.ctx c.step = false ∧ s.stepWaits c.ctx c.step = false ∧ s.waitLines c (g.stateRanges 0 g.elems) = none ∧ s.hyperWords g = .ok h)
    (rigC { grp0 with deferN := 1, dAddr := 2097152 }) (.ctx 16) (pk 0x704 0 [(32, 8, tno), (8, 8, 1)]) := by
  refine met ?_ ?_ ?_ (okEq ?_) ⟨okEq ?_, zero ?_, ?_, ?_, ?_, ?_, ?_, okGet_eq _ ?_⟩ <;> decide +kernel

theorem meets_crucibleCommands_5 : Met 0x0704 false false
    (fun (c : Running) (s : State) => let g := grp0; s.groupArg c 40 true = .ok g ∧ Zero c 42 22 ∧ g.deferN = 0)
    (rigC grp0) (.ctx 16) (pk 0x704 0 [(32, 8, tno), (8, 8, 1)]) := by
  refine met ?_ ?_ ?_ (okEq ?_) ⟨okEq ?_, zero ?_, ?_⟩ <;> decide +kernel

theorem meets_crucibleCommands_6 : Met 0x0B01 false false
    (fun (c : Running) (s : State) => let g := grp0; let body := ((State.enter (rigC grp0) (.ctx 16) (pk 0xB01 16 [(32, 8, tno), (48, 8, 6291456), (72, 8, 1)])).2).canonical (grp0) (bit (((State.enter (rigC grp0) (.ctx 16) (pk 0xB01 16 [(32, 8, tno), (48, 8, 6291456), (72, 8, 1)])).1).u 42 1) 0) (((State.enter (rigC grp0) (.ctx 16) (pk 0xB01 16 [(32, 8, tno), (48, 8, 6291456), (72, 8, 1)])).1).u 64 8) (1); let n := 1; let s1 := okGet (((State.enter (rigC grp0) (.ctx 16) (pk 0xB01 16 [(32, 8, tno), (48, 8, 6291456), (72, 8, 1)])).2).output ((State.enter (rigC grp0) (.ctx 16) (pk 0xB01 16 [(32, 8, tno), (48, 8, 6291456), (72, 8, 1)])).1) (bit (((State.enter (rigC grp0) (.ctx 16) (pk 0xB01 16 [(32, 8, tno), (48, 8, 6291456), (72, 8, 1)])).1).u 42 1) 1) (((State.enter (rigC grp0) (.ctx 16) (pk 0xB01 16 [(32, 8, tno), (48, 8, 6291456), (72, 8, 1)])).1).u 48 8) (exportHeader (grp0) (((State.enter (rigC grp0) (.ctx 16) (pk 0xB01 16 [(32, 8, tno), (48, 8, 6291456), (72, 8, 1)])).1).u 42 1) (((State.enter (rigC grp0) (.ctx 16) (pk 0xB01 16 [(32, 8, tno), (48, 8, 6291456), (72, 8, 1)])).1).u 64 8) (1) (((State.enter (rigC grp0) (.ctx 16) (pk 0xB01 16 [(32, 8, tno), (48, 8, 6291456), (72, 8, 1)])).2).canonical (grp0) (bit (((State.enter (rigC grp0) (.ctx 16) (pk 0xB01 16 [(32, 8, tno), (48, 8, 6291456), (72, 8, 1)])).1).u 42 1) 0) (((State.enter (rigC grp0) (.ctx 16) (pk 0xB01 16 [(32, 8, tno), (48, 8, 6291456), (72, 8, 1)])).1).u 64 8) (1)).length (crc64 (((State.enter (rigC grp0) (.ctx 16) (pk 0xB01 16 [(32, 8, tno), (48, 8, 6291456), (72, 8, 1)])).2).canonical (grp0) (bit (((State.enter (rigC grp0) (.ctx 16) (pk 0xB01 16 [(32, 8, tno), (48, 8, 6291456), (72, 8, 1)])).1).u 42 1) 0) (((State.enter (rigC grp0) (.ctx 16) (pk 0xB01 16 [(32, 8, tno), (48, 8, 6291456), (72, 8, 1)])).1).u 64 8) (1))) ++ (((State.enter (rigC grp0) (.ctx 16) (pk 0xB01 16 [(32, 8, tno), (48, 8, 6291456), (72, 8, 1)])).2).canonical (grp0) (bit (((State.enter (rigC grp0) (.ctx 16) (pk 0xB01 16 [(32, 8, tno), (48, 8, 6291456), (72, 8, 1)])).1).u 42 1) 0) (((State.enter (rigC grp0) (.ctx 16) (pk 0xB01 16 [(32, 8, tno), (48, 8, 6291456), (72, 8, 1)])).1).u 64 8) (1))) ((grp0).tensor % 2 ^ 16)) (by decide +kernel); s.stepSkipped c.ctx c.step = false ∧ s.stepWaits c.ctx c.step = false ∧ c.u 26 2 = 16 ∧ s.groupArg c 40 false = .ok g ∧ c.u 42 1 < 4 ∧ Zero c 43 5 ∧ c.u 48 8 % 64 = 0 ∧ Zero c 56 8 ∧ c.u 64 8 < g.elems ∧ n = (if c.u 72 8 = 0 then g.elems - c.u 64 8 else c.u 72 8) ∧ c.u 64 8 + n ≤ g.elems ∧ ((∀ o, s.objAt g.ctx g.pAddr = some o → o.prot = false) ∨ (c.u 42 1 / 2 = 0 ∧ ∃ o, s.objAt c.ctx (c.u 48 8) = some o ∧ o.prot = true)) ∧ s.groupBusy c g = false ∧ body = s.canonical g (bit (c.u 42 1) 0) (c.u 64 8) n ∧ s.badRuns g.ctx 64 (g.canonicalRanges (bit (c.u 42 1) 0) (c.u 64 8) n) = [] ∧ s.waitLines c ((g.canonicalRanges (bit (c.u 42 1) 0) (c.u 64 8) n).map (fun r => (r.1, r.2, false)) ++ (if bit (c.u 42 1) 1 then [] else [(c.u 48 8, 64 + body.length, true)])) = none ∧ s.output c (bit (c.u 42 1) 1) (c.u 48 8) (exportHeader g (c.u 42 1) (c.u 64 8) n body.length (crc64 body) ++ body) (g.tensor % 2 ^ 16) = .ok s1)
    (rigC grp0) (.ctx 16) (pk 0xB01 16 [(32, 8, tno), (48, 8, 6291456), (72, 8, 1)]) := by
  refine met ?_ ?_ ?_ (okEq ?_) ⟨?_, ?_, ?_, okEq ?_, ?_, zero ?_, ?_, zero ?_, ?_, ?_, ?_, Or.inl (ofAll ?_), ?_, rfl, ?_, ?_, okGet_eq _ ?_⟩ <;> decide +kernel

theorem meets_crucibleCommands_7 : Met 0x0B02 false false
    (fun (c : Running) (s : State) => let bs := okGet (((State.enter ((({ rigC grp0 with host := { rig.host with links := ({ state := .up }, { state := .up }) } } : State))) (.ctx 16) (pk 0xB02 16 [(40, 1, 2), (43, 1, 16), (64, 8, 6291456), (72, 2, 1)])).2).input ((State.enter ((({ rigC grp0 with host := { rig.host with links := ({ state := .up }, { state := .up }) } } : State))) (.ctx 16) (pk 0xB02 16 [(40, 1, 2), (43, 1, 16), (64, 8, 6291456), (72, 2, 1)])).1) false (((State.enter ((({ rigC grp0 with host := { rig.host with links := ({ state := .up }, { state := .up }) } } : State))) (.ctx 16) (pk 0xB02 16 [(40, 1, 2), (43, 1, 16), (64, 8, 6291456), (72, 2, 1)])).1).u 64 8) (2 * ((State.enter ((({ rigC grp0 with host := { rig.host with links := ({ state := .up }, { state := .up }) } } : State))) (.ctx 16) (pk 0xB02 16 [(40, 1, 2), (43, 1, 16), (64, 8, 6291456), (72, 2, 1)])).1).u 72 2)) (by decide +kernel); let far := false; let s1 := (((State.enter ((({ rigC grp0 with host := { rig.host with links := ({ state := .up }, { state := .up }) } } : State))) (.ctx 16) (pk 0xB02 16 [(40, 1, 2), (43, 1, 16), (64, 8, 6291456), (72, 2, 1)])).2).sawInput ((State.enter ((({ rigC grp0 with host := { rig.host with links := ({ state := .up }, { state := .up }) } } : State))) (.ctx 16) (pk 0xB02 16 [(40, 1, 2), (43, 1, 16), (64, 8, 6291456), (72, 2, 1)])).1) false (((State.enter ((({ rigC grp0 with host := { rig.host with links := ({ state := .up }, { state := .up }) } } : State))) (.ctx 16) (pk 0xB02 16 [(40, 1, 2), (43, 1, 16), (64, 8, 6291456), (72, 2, 1)])).1).u 64 8) (2 * ((State.enter ((({ rigC grp0 with host := { rig.host with links := ({ state := .up }, { state := .up }) } } : State))) (.ctx 16) (pk 0xB02 16 [(40, 1, 2), (43, 1, 16), (64, 8, 6291456), (72, 2, 1)])).1).u 72 2)).hostStore (((State.enter ((({ rigC grp0 with host := { rig.host with links := ({ state := .up }, { state := .up }) } } : State))) (.ctx 16) (pk 0xB02 16 [(40, 1, 2), (43, 1, 16), (64, 8, 6291456), (72, 2, 1)])).2).linkOf ((State.enter ((({ rigC grp0 with host := { rig.host with links := ({ state := .up }, { state := .up }) } } : State))) (.ctx 16) (pk 0xB02 16 [(40, 1, 2), (43, 1, 16), (64, 8, 6291456), (72, 2, 1)])).1).queue) (((State.enter ((({ rigC grp0 with host := { rig.host with links := ({ state := .up }, { state := .up }) } } : State))) (.ctx 16) (pk 0xB02 16 [(40, 1, 2), (43, 1, 16), (64, 8, 6291456), (72, 2, 1)])).2).pasidOf ((State.enter ((({ rigC grp0 with host := { rig.host with links := ({ state := .up }, { state := .up }) } } : State))) (.ctx 16) (pk 0xB02 16 [(40, 1, 2), (43, 1, 16), (64, 8, 6291456), (72, 2, 1)])).1)) ((State.enter ((({ rigC grp0 with host := { rig.host with links := ({ state := .up }, { state := .up }) } } : State))) (.ctx 16) (pk 0xB02 16 [(40, 1, 2), (43, 1, 16), (64, 8, 6291456), (72, 2, 1)])).1).uid (((State.enter ((({ rigC grp0 with host := { rig.host with links := ({ state := .up }, { state := .up }) } } : State))) (.ctx 16) (pk 0xB02 16 [(40, 1, 2), (43, 1, 16), (64, 8, 6291456), (72, 2, 1)])).1).u 56 8) (toLe 8 0); s.stepSkipped c.ctx c.step = false ∧ s.stepWaits c.ctx c.step = false ∧ c.u 26 2 = 16 ∧ c.ticket = 0 ∧ c.u 40 1 < 16 ∧ c.u 41 1 < 4 ∧ far = bit (c.u 41 1) 0 ∧ c.u 42 1 < 8 ∧ 16 ≤ c.u 43 1 ∧ c.u 43 1 ≤ 40 ∧ Zero c 44 4 ∧ c.u 48 8 % 4096 = 0 ∧ c.u 56 8 % 8 = 0 ∧ s.campion? (c.u 40 1) = none ∧ 1 ≤ c.u 72 2 ∧ c.u 72 2 ≤ 1024 ∧ Zero c 74 6 ∧ s.input c false (c.u 64 8) (2 * c.u 72 2) = .ok bs ∧ (∀ i < c.u 72 2, s.mayStream c.ctx (fld bs (2 * i) 2) = true) ∧ (far = true → ∃ x, s.rawFar (.tail (c.u 40 1)) c.uid (c.u 42 1) (c.u 56 8) (toLe 8 0) = some x ∧ s1 = x.1.sawInput c false (c.u 64 8) (2 * c.u 72 2)) ∧ (far = false → s.hostMiss (s.linkOf c.queue) (s.pasidOf c) (c.u 56 8) 8 = none ∧ s1 = (s.sawInput c false (c.u 64 8) (2 * c.u 72 2)).hostStore (s.linkOf c.queue) (s.pasidOf c) c.uid (c.u 56 8) (toLe 8 0)))
    ((({ rigC grp0 with host := { rig.host with links := ({ state := .up }, { state := .up }) } } : State))) (.ctx 16) (pk 0xB02 16 [(40, 1, 2), (43, 1, 16), (64, 8, 6291456), (72, 2, 1)]) := by
  refine met ?_ ?_ ?_ (okEq ?_) ⟨?_, ?_, ?_, ?_, ?_, ?_, ?_, ?_, ?_, ?_, zero ?_, ?_, ?_, ?_, ?_, ?_, zero ?_, okGet_eq _ ?_, ?_, (fun h => nomatch h), fun _ => ⟨by decide +kernel, rfl⟩⟩ <;> decide +kernel

theorem meets_crucibleCommands_8 : Met 0x0B03 false false
    (fun (c : Running) (s : State) => let k := camp; s.stepSkipped c.ctx c.step = false ∧ s.stepWaits c.ctx c.step = false ∧ c.ticket = 0 ∧ Zero c 41 23 ∧ s.campion? (c.u 40 1) = some k ∧ k.ctx = c.ctx ∧ k.sent = [] ∧ (∀ f ∈ s.memory.far, f.use ≠ .tail k.j) ∧ ∀ q ∈ s.cru.jobs, (∃ f ∈ q.frames, f.1 = k.j) → ∀ r, s.cmd? q.uid = some r → r.reply = none)
    ((({ rigC grp0 with cru := { rig.cru with groups := [grp0], streams := [camp] } } : State))) (.ctx 16) (pk 0xB03 0 [(40, 1, 2)]) := by
  refine met ?_ ?_ ?_ (okEq ?_) ⟨?_, ?_, ?_, zero ?_, ?_, ?_, ?_, ?_, fun q h => nomatch h⟩ <;> decide +kernel

theorem meets_collectiveCommands_2 : Met 0x0501 false false
    (fun (c : Running) (s : State) => let k := okGet (((State.enter ((({ rigC grp0 with regs := (rigR 2).regs } : State))) (.ctx 16) (pk 0x501 8 [(32, 8, tno), (8, 8, 1), (40, 1, 1), (41, 1, 4), (42, 1, 2), (64, 8, 128)])).2).collFields ((State.enter ((({ rigC grp0 with regs := (rigR 2).regs } : State))) (.ctx 16) (pk 0x501 8 [(32, 8, tno), (8, 8, 1), (40, 1, 1), (41, 1, 4), (42, 1, 2), (64, 8, 128)])).1) 1) (by decide +kernel); let s1 := okSome (((State.enter ((({ rigC grp0 with regs := (rigR 2).regs } : State))) (.ctx 16) (pk 0x501 8 [(32, 8, tno), (8, 8, 1), (40, 1, 1), (41, 1, 4), (42, 1, 2), (64, 8, 128)])).2).collGroup ((State.enter ((({ rigC grp0 with regs := (rigR 2).regs } : State))) (.ctx 16) (pk 0x501 8 [(32, 8, tno), (8, 8, 1), (40, 1, 1), (41, 1, 4), (42, 1, 2), (64, 8, 128)])).1) (okGet (((State.enter ((({ rigC grp0 with regs := (rigR 2).regs } : State))) (.ctx 16) (pk 0x501 8 [(32, 8, tno), (8, 8, 1), (40, 1, 1), (41, 1, 4), (42, 1, 2), (64, 8, 128)])).2).collFields ((State.enter ((({ rigC grp0 with regs := (rigR 2).regs } : State))) (.ctx 16) (pk 0x501 8 [(32, 8, tno), (8, 8, 1), (40, 1, 1), (41, 1, 4), (42, 1, 2), (64, 8, 128)])).1) 1) (by decide +kernel))) (by decide +kernel); s.collFields c 1 = .ok k ∧ k.compress = false ∧ k.toCru = true ∧ s.refuseAxis c = .ok () ∧ s.waitLines c k.lines = none ∧ s.collGroup c k = .ok (some s1))
    ((({ rigC grp0 with regs := (rigR 2).regs } : State))) (.ctx 16) (pk 0x501 8 [(32, 8, tno), (8, 8, 1), (40, 1, 1), (41, 1, 4), (42, 1, 2), (64, 8, 128)]) := by
  refine met ?_ ?_ ?_ (okEq ?_) ⟨okGet_eq _ ?_, ?_, ?_, okEq ?_, ?_, okSome_eq _ ?_⟩ <;> decide +kernel

theorem meets_chillCommands_1 : Met 0x0801 false false
    (fun (c : Running) (s : State) => let x := ctx1; let s1 := okGet (((State.enter (rigO cobjs) (.ctx 16) (pk 0x801 0 [(40, 1, 1), (48, 8, 2097152)])).2).output ((State.enter (rigO cobjs) (.ctx 16) (pk 0x801 0 [(40, 1, 1), (48, 8, 2097152)])).1) (bit (((State.enter (rigO cobjs) (.ctx 16) (pk 0x801 0 [(40, 1, 1), (48, 8, 2097152)])).1).u 41 1) 1) (((State.enter (rigO cobjs) (.ctx 16) (pk 0x801 0 [(40, 1, 1), (48, 8, 2097152)])).1).u 48 8) (toLe 8 (ctx1).run ++ toLe 8 (ctx1).refresh ++ toLe 8 (ctx1).retry ++ toLe 8 (ctx1).chillCmds)) (by decide +kernel); c.ticket = 0 ∧ s.ctx? (c.u 40 1) = some x ∧ (if c.admin then serves c.fn x.part = true else x.id = c.ctx) ∧ c.u 41 1 < 4 ∧ Zero c 42 6 ∧ c.u 48 8 % 32 = 0 ∧ Zero c 56 8 ∧ s.output c (bit (c.u 41 1) 1) (c.u 48 8) (toLe 8 x.run ++ toLe 8 x.refresh ++ toLe 8 x.retry ++ toLe 8 x.chillCmds) = .ok s1)
    (rigO cobjs) (.ctx 16) (pk 0x801 0 [(40, 1, 1), (48, 8, 2097152)]) := by
  refine met ?_ ?_ ?_ (okEq ?_) ⟨?_, ?_, ?_, ?_, zero ?_, ?_, zero ?_, okGet_eq _ ?_⟩ <;> decide +kernel

theorem meets_chillCommands_2 : Met 0x0802 false false
    (fun (c : Running) (s : State) => let bs := (Option.get (((State.enter (rigO cobjs) (.ctx 16) (pk 0x802 8 [(48, 8, 2097152), (56, 8, 0), (64, 8, 8)])).2).vaRead ((State.enter (rigO cobjs) (.ctx 16) (pk 0x802 8 [(48, 8, 2097152), (56, 8, 0), (64, 8, 8)])).1).space (((State.enter (rigO cobjs) (.ctx 16) (pk 0x802 8 [(48, 8, 2097152), (56, 8, 0), (64, 8, 8)])).1).u 48 8) (((State.enter (rigO cobjs) (.ctx 16) (pk 0x802 8 [(48, 8, 2097152), (56, 8, 0), (64, 8, 8)])).1).u 64 8)) (by decide +kernel)).1; let s1 := ((State.enter (rigO cobjs) (.ctx 16) (pk 0x802 8 [(48, 8, 2097152), (56, 8, 0), (64, 8, 8)])).2).vaTouch ((State.enter (rigO cobjs) (.ctx 16) (pk 0x802 8 [(48, 8, 2097152), (56, 8, 0), (64, 8, 8)])).1).space (((State.enter (rigO cobjs) (.ctx 16) (pk 0x802 8 [(48, 8, 2097152), (56, 8, 0), (64, 8, 8)])).1).u 48 8) (((State.enter (rigO cobjs) (.ctx 16) (pk 0x802 8 [(48, 8, 2097152), (56, 8, 0), (64, 8, 8)])).1).u 64 8); c.u 26 2 = 8 ∧ c.ticket = 0 ∧ c.u 40 1 = 0 ∧ c.u 41 1 < 4 ∧ Zero c 44 4 ∧ c.u 56 8 % 8 = 0 ∧ 1 ≤ c.u 64 8 ∧ c.u 64 8 ≤ 2 ^ 46 ∧ s.waitLines c [(c.u 48 8, c.u 64 8, false)] = none ∧ s.vaRead c.space (c.u 48 8) (c.u 64 8) = some (bs, false) ∧ (if c.u 56 8 = 0 then s1 = s.vaTouch c.space (c.u 48 8) (c.u 64 8) else (s.vaTouch c.space (c.u 48 8) (c.u 64 8)).output c (bit (c.u 41 1) 1) (c.u 56 8) (toLe 8 (crc64 bs).toNat) = .ok s1))
    (rigO cobjs) (.ctx 16) (pk 0x802 8 [(48, 8, 2097152), (56, 8, 0), (64, 8, 8)]) := by
  refine met ?_ ?_ ?_ (okEq ?_) ⟨?_, ?_, ?_, ?_, zero ?_, ?_, ?_, ?_, ?_, getPair ?_ ?_, by rw [if_pos (by decide +kernel)]⟩ <;> decide +kernel

theorem meets_chillCommands_3 : Met 0x0802 false false
    (fun (c : Running) (s : State) => let g := grp0; let bs := ((State.enter (rigC grp0) (.ctx 16) (pk 0x802 8 [(32, 8, tno), (40, 1, 1), (56, 8, 0)])).2).canonical (grp0) (bit (((State.enter (rigC grp0) (.ctx 16) (pk 0x802 8 [(32, 8, tno), (40, 1, 1), (56, 8, 0)])).1).u 41 1) 0) 0 (grp0).elems; let s1 := ((State.enter (rigC grp0) (.ctx 16) (pk 0x802 8 [(32, 8, tno), (40, 1, 1), (56, 8, 0)])).2).sawCanonical (grp0) ((State.enter (rigC grp0) (.ctx 16) (pk 0x802 8 [(32, 8, tno), (40, 1, 1), (56, 8, 0)])).1).uid 1 (bit (((State.enter (rigC grp0) (.ctx 16) (pk 0x802 8 [(32, 8, tno), (40, 1, 1), (56, 8, 0)])).1).u 41 1) 0) 0 (grp0).elems; c.u 26 2 = 8 ∧ c.u 40 1 = 1 ∧ c.u 41 1 < 4 ∧ s.groupArg c 42 false = .ok g ∧ Zero c 44 4 ∧ c.u 56 8 % 8 = 0 ∧ s.groupBusy c g = false ∧ s.waitLines c ((g.canonicalRanges (bit (c.u 41 1) 0) 0 g.elems).map (fun r => (r.1, r.2, false))) = none ∧ bs = s.canonical g (bit (c.u 41 1) 0) 0 g.elems ∧ s.badRuns g.ctx 0 (g.canonicalRanges (bit (c.u 41 1) 0) 0 g.elems) = [] ∧ (if c.u 56 8 = 0 then s1 = s.sawCanonical g c.uid 1 (bit (c.u 41 1) 0) 0 g.elems else (s.sawCanonical g c.uid 1 (bit (c.u 41 1) 0) 0 g.elems).output c (bit (c.u 41 1) 1) (c.u 56 8) (toLe 8 (crc64 bs).toNat) = .ok s1))
    (rigC grp0) (.ctx 16) (pk 0x802 8 [(32, 8, tno), (40, 1, 1), (56, 8, 0)]) := by
  refine met ?_ ?_ ?_ (okEq ?_) ⟨?_, ?_, ?_, okEq ?_, zero ?_, ?_, ?_, ?_, rfl, ?_, by rw [if_pos (by decide +kernel)]⟩ <;> decide +kernel

theorem meets_chillCommands_4 : Met 0x0803 true true
    (fun (c : Running) (s : State) => c.ticket = 0 ∧ c.u 40 1 ≤ 31 ∧ (s.part? (c.u 40 1)).isSome ∧ s.pair.active = false ∧ s.pair.pending = none ∧ c.u 41 1 ≤ 23 ∧ c.u 42 1 ≤ 1 ∧ c.u 43 1 ≤ 1 ∧ 1 ≤ c.u 44 1 ∧ c.u 44 1 ≤ 64 ∧ c.u 45 1 < 2 ∧ Zero c 46 18)
    (rig) (.admin 0) (pk 0x803 0 [(44, 1, 1)]) := by
  refine met ?_ ?_ ?_ (okEq ?_) ⟨?_, ?_, ?_, ?_, ?_, ?_, ?_, ?_, ?_, ?_, ?_, zero ?_⟩ <;> decide +kernel

theorem meets_chillCommands_5 : Met 0x0804 true true
    (fun (c : Running) (s : State) => c.ticket = 0 ∧ s.pair.active = true ∧ c.u 40 1 = s.pair.part ∧ s.pair.unpairing = none ∧ Zero c 41 23)
    ((({ rig with pair := { active := true } } : State))) (.admin 0) (pk 0x804 0 []) := by
  refine met ?_ ?_ ?_ (okEq ?_) ⟨?_, ?_, ?_, ?_, zero ?_⟩ <;> decide +kernel

theorem meets_serviceCommands_1 : Met 0x0901 true true
    (fun (c : Running) (_ : State) => c.ticket = 0 ∧ Zero c 49 7 ∧ (c.u 48 1 ≤ 2 ∧ unitValid (c.u 40 4) = true ∨ c.u 48 1 = 3 ∧ c.u 40 4 = 0 ∧ c.u 44 4 = 0 ∧ rowValid (BitVec.ofNat 64 (c.u 56 8)) = true))
    (rig) (.admin 0) (pk 0x901 0 [(40, 4, coreUnit 0), (44, 4, 1)]) := by
  refine met ?_ ?_ ?_ (okEq ?_) ⟨?_, zero ?_, ?_⟩ <;> decide +kernel

def m_serviceCommands_2_s1 : State := (rigBusy.riserAct .retire (coreUnit 0) 9 0).1
def m_serviceCommands_2_k : Running := { nopRun 7 with work := .jobs }
def m_serviceCommands_2_r : Reply := errConflict 2 (coreUnit 0)
theorem meets_serviceCommands_2 :
    let s : State := rigBusy; let s1 : State := m_serviceCommands_2_s1; let k : Running := m_serviceCommands_2_k; let u : Nat := coreUnit 0; let uid : Nat := 7; let gen : Nat := 9; let act : RiserAction := .retire; let loc : BitVec 64 := (0 : BitVec 64); let r : Reply := m_serviceCommands_2_r; s.cmd? uid = some k ∧ k.reply = none ∧ s.riserAct act u gen loc = (s1, some r) := by
  refine ⟨?_, ?_, ?_⟩ <;> decide +kernel

theorem meets_serviceCommands_3 : Met 0x0902 true false
    (fun (c : Running) (s : State) => let host := false; let addr := 2097152; let s1 := okGet (((State.enter (rigO cobjs) (.admin 0) (pk 0x902 0 [(40, 4, coreUnit 4), (48, 8, 2097152)])).2).output ((State.enter (rigO cobjs) (.admin 0) (pk 0x902 0 [(40, 4, coreUnit 4), (48, 8, 2097152)])).1) (false) (2097152) (((State.enter (rigO cobjs) (.admin 0) (pk 0x902 0 [(40, 4, coreUnit 4), (48, 8, 2097152)])).2).unitBytes (((State.enter (rigO cobjs) (.admin 0) (pk 0x902 0 [(40, 4, coreUnit 4), (48, 8, 2097152)])).1).u 40 4))) (by decide +kernel); c.ticket = 0 ∧ unitValid (c.u 40 4) = true ∧ c.fn = 0 ∧ Zero c 44 4 ∧ recordField c 48 = .ok (host, addr) ∧ (host = false → (s.ctx? (c.u 3 1)).isSome) ∧ Zero c 56 8 ∧ s.output c host addr (s.unitBytes (c.u 40 4)) = .ok s1)
    (rigO cobjs) (.admin 0) (pk 0x902 0 [(40, 4, coreUnit 4), (48, 8, 2097152)]) := by
  refine met ?_ ?_ ?_ (okEq ?_) ⟨?_, ?_, ?_, zero ?_, okEq ?_, fun _ => by decide +kernel, zero ?_, okGet_eq _ ?_⟩ <;> decide +kernel

theorem meets_serviceCommands_4 : Met 0x0903 true true
    (fun (c : Running) (_ : State) => c.ticket = 0 ∧ c.u 40 2 ≠ 0 ∧ Zero c 42 22)
    (rig) (.admin 0) (pk 0x903 0 [(40, 2, 1)]) := by
  refine met ?_ ?_ ?_ (okEq ?_) ⟨?_, ?_, zero ?_⟩ <;> decide +kernel

theorem meets_serviceCommands_5 : Met 0x0904 true true
    (fun (c : Running) (s : State) => let host := false; let addr := 0; c.ticket = 0 ∧ imageField c 40 = .ok (host, addr) ∧ c.u 52 1 = 2 ∧ s.fw.rollUid = none ∧ s.fw.staged.isSome ∧ Zero c 53 11)
    ((({ rig with fw := { rig.fw with staged := some [] } } : State))) (.admin 0) (pk 0x904 0 [(52, 1, 2)]) := by
  refine met ?_ ?_ ?_ (okEq ?_) ⟨?_, okEq ?_, ?_, ?_, ?_, zero ?_⟩ <;> decide +kernel

theorem meets_serviceCommands_6 : Met 0x0904 true true
    (fun (c : Running) (s : State) => let host := false; let addr := 2097152; let bs := okGet (((State.enter (rigO cobjs) (.admin 0) (pk 0x904 0 [(3, 1, 1), (40, 8, 2097152), (48, 4, 64)])).2).input ((State.enter (rigO cobjs) (.admin 0) (pk 0x904 0 [(3, 1, 1), (40, 8, 2097152), (48, 4, 64)])).1) (false) (2097152) (((State.enter (rigO cobjs) (.admin 0) (pk 0x904 0 [(3, 1, 1), (40, 8, 2097152), (48, 4, 64)])).1).u 48 4)) (by decide +kernel); c.ticket = 0 ∧ imageField c 40 = .ok (host, addr) ∧ 64 ≤ c.u 48 4 ∧ c.u 48 4 ≤ 8388608 ∧ c.u 52 1 ≤ 1 ∧ s.fw.rollUid = none ∧ Zero c 53 11 ∧ s.input c host addr (c.u 48 4) = .ok bs)
    (rigO cobjs) (.admin 0) (pk 0x904 0 [(3, 1, 1), (40, 8, 2097152), (48, 4, 64)]) := by
  refine met ?_ ?_ ?_ (okEq ?_) ⟨?_, okEq ?_, ?_, ?_, ?_, ?_, zero ?_, okGet_eq _ ?_⟩ <;> decide +kernel

set_option maxRecDepth 1000000 in
theorem meets_serviceCommands_7 : Met 0x0A01 false false
    (fun (c : Running) (s : State) => let es := (((State.enter (rigO [obj 3 2097152 1 0 block1, obj 4 4194304 1 0 []]) (.ctx 16) (pk 0xA01 16 [(40, 8, 2097152), (48, 8, 4194304), (64, 8, block1.length), (72, 2, 1), (74, 2, 1)])).2).walkBlocks ((State.enter (rigO [obj 3 2097152 1 0 block1, obj 4 4194304 1 0 []]) (.ctx 16) (pk 0xA01 16 [(40, 8, 2097152), (48, 8, 4194304), (64, 8, block1.length), (72, 2, 1), (74, 2, 1)])).1).space (((State.enter (rigO [obj 3 2097152 1 0 block1, obj 4 4194304 1 0 []]) (.ctx 16) (pk 0xA01 16 [(40, 8, 2097152), (48, 8, 4194304), (64, 8, block1.length), (72, 2, 1), (74, 2, 1)])).1).u 40 8) (((State.enter (rigO [obj 3 2097152 1 0 block1, obj 4 4194304 1 0 []]) (.ctx 16) (pk 0xA01 16 [(40, 8, 2097152), (48, 8, 4194304), (64, 8, block1.length), (72, 2, 1), (74, 2, 1)])).1).u 48 8) (((State.enter (rigO [obj 3 2097152 1 0 block1, obj 4 4194304 1 0 []]) (.ctx 16) (pk 0xA01 16 [(40, 8, 2097152), (48, 8, 4194304), (64, 8, block1.length), (72, 2, 1), (74, 2, 1)])).1).u 64 8) (((State.enter (rigO [obj 3 2097152 1 0 block1, obj 4 4194304 1 0 []]) (.ctx 16) (pk 0xA01 16 [(40, 8, 2097152), (48, 8, 4194304), (64, 8, block1.length), (72, 2, 1), (74, 2, 1)])).1).u 74 2) (((State.enter (rigO [obj 3 2097152 1 0 block1, obj 4 4194304 1 0 []]) (.ctx 16) (pk 0xA01 16 [(40, 8, 2097152), (48, 8, 4194304), (64, 8, block1.length), (72, 2, 1), (74, 2, 1)])).1).u 72 2 * ((State.enter (rigO [obj 3 2097152 1 0 block1, obj 4 4194304 1 0 []]) (.ctx 16) (pk 0xA01 16 [(40, 8, 2097152), (48, 8, 4194304), (64, 8, block1.length), (72, 2, 1), (74, 2, 1)])).1).u 74 2) (((State.enter (rigO [obj 3 2097152 1 0 block1, obj 4 4194304 1 0 []]) (.ctx 16) (pk 0xA01 16 [(40, 8, 2097152), (48, 8, 4194304), (64, 8, block1.length), (72, 2, 1), (74, 2, 1)])).1).u 72 2 * ((State.enter (rigO [obj 3 2097152 1 0 block1, obj 4 4194304 1 0 []]) (.ctx 16) (pk 0xA01 16 [(40, 8, 2097152), (48, 8, 4194304), (64, 8, block1.length), (72, 2, 1), (74, 2, 1)])).1).u 74 2) 0 0 []).1; let pos := (((State.enter (rigO [obj 3 2097152 1 0 block1, obj 4 4194304 1 0 []]) (.ctx 16) (pk 0xA01 16 [(40, 8, 2097152), (48, 8, 4194304), (64, 8, block1.length), (72, 2, 1), (74, 2, 1)])).2).walkBlocks ((State.enter (rigO [obj 3 2097152 1 0 block1, obj 4 4194304 1 0 []]) (.ctx 16) (pk 0xA01 16 [(40, 8, 2097152), (48, 8, 4194304), (64, 8, block1.length), (72, 2, 1), (74, 2, 1)])).1).space (((State.enter (rigO [obj 3 2097152 1 0 block1, obj 4 4194304 1 0 []]) (.ctx 16) (pk 0xA01 16 [(40, 8, 2097152), (48, 8, 4194304), (64, 8, block1.length), (72, 2, 1), (74, 2, 1)])).1).u 40 8) (((State.enter (rigO [obj 3 2097152 1 0 block1, obj 4 4194304 1 0 []]) (.ctx 16) (pk 0xA01 16 [(40, 8, 2097152), (48, 8, 4194304), (64, 8, block1.length), (72, 2, 1), (74, 2, 1)])).1).u 48 8) (((State.enter (rigO [obj 3 2097152 1 0 block1, obj 4 4194304 1 0 []]) (.ctx 16) (pk 0xA01 16 [(40, 8, 2097152), (48, 8, 4194304), (64, 8, block1.length), (72, 2, 1), (74, 2, 1)])).1).u 64 8) (((State.enter (rigO [obj 3 2097152 1 0 block1, obj 4 4194304 1 0 []]) (.ctx 16) (pk 0xA01 16 [(40, 8, 2097152), (48, 8, 4194304), (64, 8, block1.length), (72, 2, 1), (74, 2, 1)])).1).u 74 2) (((State.enter (rigO [obj 3 2097152 1 0 block1, obj 4 4194304 1 0 []]) (.ctx 16) (pk 0xA01 16 [(40, 8, 2097152), (48, 8, 4194304), (64, 8, block1.length), (72, 2, 1), (74, 2, 1)])).1).u 72 2 * ((State.enter (rigO [obj 3 2097152 1 0 block1, obj 4 4194304 1 0 []]) (.ctx 16) (pk 0xA01 16 [(40, 8, 2097152), (48, 8, 4194304), (64, 8, block1.length), (72, 2, 1), (74, 2, 1)])).1).u 74 2) (((State.enter (rigO [obj 3 2097152 1 0 block1, obj 4 4194304 1 0 []]) (.ctx 16) (pk 0xA01 16 [(40, 8, 2097152), (48, 8, 4194304), (64, 8, block1.length), (72, 2, 1), (74, 2, 1)])).1).u 72 2 * ((State.enter (rigO [obj 3 2097152 1 0 block1, obj 4 4194304 1 0 []]) (.ctx 16) (pk 0xA01 16 [(40, 8, 2097152), (48, 8, 4194304), (64, 8, block1.length), (72, 2, 1), (74, 2, 1)])).1).u 74 2) 0 0 []).2.1; let n := c.u 72 2 * c.u 74 2; c.u 26 2 = 16 ∧ c.ticket = 0 ∧ c.u 40 8 % 64 = 0 ∧ c.u 40 8 < 2 ^ 52 ∧ c.u 48 8 % 64 = 0 ∧ c.u 48 8 < 2 ^ 52 ∧ Zero c 56 8 ∧ 64 ≤ c.u 64 8 ∧ c.u 64 8 ≤ 2 ^ 46 ∧ c.u 72 2 ≠ 0 ∧ c.u 74 2 ≠ 0 ∧ Zero c 76 4 ∧ s.protectedIn c.space (c.u 40 8) (c.u 64 8) = false ∧ s.protectedIn c.space (c.u 48 8) (64 + 8 * (n + 1)) = false ∧ s.waitLines c [(c.u 40 8, c.u 64 8, false), (c.u 48 8, 64 + 8 * (n + 1), true)] = none ∧ s.walkBlocks c.space (c.u 40 8) (c.u 48 8) (c.u 64 8) (c.u 74 2) n n 0 0 [] = (es, pos, none) ∧ s.unmapped c.space (c.u 48 8) 64 = none)
    (rigO [obj 3 2097152 1 0 block1, obj 4 4194304 1 0 []]) (.ctx 16) (pk 0xA01 16 [(40, 8, 2097152), (48, 8, 4194304), (64, 8, block1.length), (72, 2, 1), (74, 2, 1)]) := by
  refine met ?_ ?_ ?_ (okEq ?_) ⟨?_, ?_, ?_, ?_, ?_, ?_, zero ?_, ?_, ?_, ?_, ?_, zero ?_, ?_, ?_, ?_, getTrip ?_, ?_⟩ <;> decide +kernel

set_option maxRecDepth 1000000 in
theorem meets_serviceCommands_8 : Met 0x0A02 false false
    (fun (c : Running) (s : State) => let h := (Option.get (((State.enter (rigO [obj 3 2097152 1 0 block1, obj 4 4194304 1 0 idxTable]) (.ctx 16) (pk 0xA02 0 [(40, 8, 4194304)])).2).vaRead ((State.enter (rigO [obj 3 2097152 1 0 block1, obj 4 4194304 1 0 idxTable]) (.ctx 16) (pk 0xA02 0 [(40, 8, 4194304)])).1).space (((State.enter (rigO [obj 3 2097152 1 0 block1, obj 4 4194304 1 0 idxTable]) (.ctx 16) (pk 0xA02 0 [(40, 8, 4194304)])).1).u 40 8) 64) (by decide +kernel)).1; let es := (Option.get (((State.enter (rigO [obj 3 2097152 1 0 block1, obj 4 4194304 1 0 idxTable]) (.ctx 16) (pk 0xA02 0 [(40, 8, 4194304)])).2).vaRead ((State.enter (rigO [obj 3 2097152 1 0 block1, obj 4 4194304 1 0 idxTable]) (.ctx 16) (pk 0xA02 0 [(40, 8, 4194304)])).1).space (((State.enter (rigO [obj 3 2097152 1 0 block1, obj 4 4194304 1 0 idxTable]) (.ctx 16) (pk 0xA02 0 [(40, 8, 4194304)])).1).u 40 8 + 64) (8 * ((fld ((Option.get (((State.enter (rigO [obj 3 2097152 1 0 block1, obj 4 4194304 1 0 idxTable]) (.ctx 16) (pk 0xA02 0 [(40, 8, 4194304)])).2).vaRead ((State.enter (rigO [obj 3 2097152 1 0 block1, obj 4 4194304 1 0 idxTable]) (.ctx 16) (pk 0xA02 0 [(40, 8, 4194304)])).1).space (((State.enter (rigO [obj 3 2097152 1 0 block1, obj 4 4194304 1 0 idxTable]) (.ctx 16) (pk 0xA02 0 [(40, 8, 4194304)])).1).u 40 8) 64) (by decide +kernel)).1) 4 4) + 1))) (by decide +kernel)).1; let n := fld h 4 4; let k := if c.u 52 4 = 0 then n - c.u 48 4 else c.u 52 4; c.ticket = 0 ∧ c.u 40 8 % 64 = 0 ∧ c.u 40 8 < 2 ^ 52 ∧ Zero c 56 8 ∧ s.protectedIn c.space (c.u 40 8) 64 = false ∧ s.vaRead c.space (c.u 40 8) 64 = some (h, false) ∧ fld h 0 2 = 0xF7C2 ∧ s.vaRead c.space (c.u 40 8 + 64) (8 * (n + 1)) = some (es, false) ∧ fld h 62 2 = crc16 (h.take 62 ++ es) ∧ c.u 48 4 ≤ n ∧ c.u 48 4 + c.u 52 4 ≤ n ∧ s.waitLines c [(c.u 40 8, 64 + 8 * (n + 1), false), (fld h 16 8, fld h 24 8, false)] = none ∧ s.verifyBlocks c.space (c.u 40 8) (max 1 (fld h 10 2)) n (fld h 16 8 + fld h 24 8) k (c.u 48 4) = none)
    (rigO [obj 3 2097152 1 0 block1, obj 4 4194304 1 0 idxTable]) (.ctx 16) (pk 0xA02 0 [(40, 8, 4194304)]) := by
  refine met ?_ ?_ ?_ (okEq ?_) ⟨?_, ?_, ?_, zero ?_, ?_, getPair ?_ ?_, ?_, getPair ?_ ?_, ?_, ?_, ?_, ?_, ?_⟩ <;> decide +kernel

theorem meets_queueEvents_1 :
    let s : State := rig; let fn : Fin 33 := (0 : Fin 33); let q : QueueId := .ctx 16; let e : Queue := que; let v : BitVec 32 := (1 : BitVec 32); s.power.stopped = false ∧ s.seesQueue fn q = true ∧ s.queue? q = some e ∧ e.state ≠ .absent ∧ 1 ≤ (v.toNat + 2 ^ 32 - e.tail) % 2 ^ 32 ∧ (v.toNat + 2 ^ 32 - e.tail) % 2 ^ 32 < 2 ^ 31 ∧ (v.toNat + 2 ^ 32 - e.head) % 2 ^ 32 ≤ 2 ^ e.sizeLog2 := by
  refine ⟨?_, ?_, ?_, ?_, ?_, ?_, ?_⟩ <;> decide +kernel

def m_queueEvents_2_s : State := { rig with queues := [{ que with tail := 1 }], host := { rig.host with links := ({ state := .up }, { state := .up }) } }
def m_queueEvents_2_e : Queue := { que with tail := 1 }
def m_queueEvents_2_h : List Byte := okGet ((m_queueEvents_2_s).ringRead (m_queueEvents_2_e) (ringAddrs (m_queueEvents_2_e) 1) (((none : Option (Fin 8))).map (·.val))) (by decide +kernel)
def m_queueEvents_2_bs : List Byte := okGet ((m_queueEvents_2_s).ringRead (m_queueEvents_2_e) (ringAddrs (m_queueEvents_2_e) (1 + cdiv (fld (m_queueEvents_2_h) 26 2) 64)) (((none : Option (Fin 8))).map (·.val))) (by decide +kernel)
theorem meets_queueEvents_2 :
    let s : State := m_queueEvents_2_s; let q : QueueId := .ctx 16; let bad : Option (Fin 8) := (none : Option (Fin 8)); let e : Queue := m_queueEvents_2_e; let h : List Byte := m_queueEvents_2_h; let bs : List Byte := m_queueEvents_2_bs; s.power.stopped = false ∧ s.findQueue q = some e ∧ e.state = .running ∧ e.stopping = false ∧ e.fetchWait = none ∧ (s.pair.lead = true ∨ s.pairedPart (((s.ctx? q.owner).map (·.part)).getD 32) = false) ∧ (e.inDevice = true ∨ (s.link e.link).state ≠ .down) ∧ s.ringRead e (ringAddrs e 1) (bad.map (·.val)) = .ok h ∧ fld h 26 2 % 8 = 0 ∧ fld h 26 2 ≤ 448 ∧ 1 + cdiv (fld h 26 2) 64 ≤ (e.tail + 2 ^ 32 - e.head) % 2 ^ 32 ∧ s.ringRead e (ringAddrs e (1 + cdiv (fld h 26 2) 64)) (bad.map (·.val)) = .ok bs := by
  refine ⟨?_, ?_, ?_, ?_, ?_, ?_, ?_, okGet_eq _ ?_, ?_, ?_, ?_, okGet_eq _ ?_⟩ <;> decide +kernel

def m_queueEvents_3_s : State := { rig with queues := [{ que with fetched := [pk 0x130 0 []] }] }
def m_queueEvents_3_s0 : State := (m_queueEvents_3_s)
def m_queueEvents_3_e : Queue := { que with fetched := [pk 0x130 0 []] }
def m_queueEvents_3_p : Packet := pk 0x130 0 []
theorem meets_queueEvents_3 :
    let s : State := m_queueEvents_3_s; let s0 : State := m_queueEvents_3_s0; let q : QueueId := .ctx 16; let e : Queue := m_queueEvents_3_e; let p : Packet := m_queueEvents_3_p; let rest : List Packet := ([] : List Packet); s.power.stopped = false ∧ (∀ k ∈ s.queues.flatMap (·.running), k.work ≠ .held) ∧ s.findQueue q = some e ∧ e.fetched = p :: rest ∧ (q.key < 64 ∨ s.silent (s.queuePart q) = false) ∧ e.ready = true ∧ s.outranked e = false ∧ s.ctxHeld q = false ∧ (fld p.bytes 2 1).testBit 5 = false ∧ (e.fenceNeed = none ∧ s0 = s ∨ ∃ sys, e.fenceNeed = some sys ∧ s0 = s.flushQueue q sys) ∧ s0.fenceHeld e = false := by
  refine ⟨?_, ?_, ?_, ?_, ?_, ?_, ?_, ?_, ?_, Or.inl ⟨by decide +kernel, rfl⟩, ?_⟩ <;> decide +kernel

def m_queueEvents_4_s : State := { rig with queues := [{ que with running := [{ nopRun 7 with reply := some {} }] }] }
def m_queueEvents_4_c : Running := { nopRun 7 with reply := some {} }
def m_queueEvents_4_s1 : State := (m_queueEvents_4_s).settleColls
theorem meets_queueEvents_4 :
    let s : State := m_queueEvents_4_s; let s1 : State := m_queueEvents_4_s1; let uid : Nat := 7; let c : Running := m_queueEvents_4_c; let r : Reply := {}; s.power.stopped = false ∧ s1 = s.settleColls ∧ s1.cmd? uid = some c ∧ c.reply = some r ∧ (s1.cmdAdds uid = false ∨ 0x10 ≤ r.status) ∧ c.matchIndex = 0 := by
  refine ⟨?_, rfl, ?_, ?_, ?_, ?_⟩ <;> decide +kernel

theorem meets_queueEvents_5 :
    let s : State := rig; let uid : Nat := 7; s.power.stopped = false :=
  by decide +kernel

def m_queueEvents_6_s : State := { rig with queues := [{ que with running := [{ nopRun 7 with work := .apply, pkt := pk 0x702 0 [(28, 4, 5)] }] }] }
def m_queueEvents_6_c : Running := { nopRun 7 with work := .apply, pkt := pk 0x702 0 [(28, 4, 5)] }
def m_queueEvents_6_s1 : State := (m_queueEvents_6_s).settleColls
theorem meets_queueEvents_6 :
    let s : State := m_queueEvents_6_s; let s1 : State := m_queueEvents_6_s1; let uid : Nat := 7; let c : Running := m_queueEvents_6_c; s1 = s.settleColls ∧ s1.cmd? uid = some c ∧ c.reply = none ∧ c.work = .apply ∧ s1.parkedHost uid = none ∧ s1.inLadle uid = false ∧ c.timeout ≠ 0 ∧ c.resolvedAt ≠ some s1.now := by
  refine ⟨rfl, ?_, ?_, ?_, ?_, ?_, ?_, ?_⟩ <;> decide +kernel

theorem meets_queueEvents_7 :
    let s : State := rig; let p : Fin 32 := (0 : Fin 32); let g : Fin 64 := (7 : Fin 64); s.power.stopped = false :=
  by decide +kernel

def m_queueEvents_8_s : State := { rig with now := 200, cores := { rig.cores with fills := [{ fill7 with openBatch := some { id := 0 } }] } }
def m_queueEvents_8_k : FillGroup := { fill7 with openBatch := some { id := 0 } }
theorem meets_queueEvents_8 :
    let s : State := m_queueEvents_8_s; let p : Nat := 0; let g : Nat := 7; let k : FillGroup := m_queueEvents_8_k; let b : Batch := { id := 0 }; s.fill? p g = some k ∧ k.openBatch = some b ∧ k.deadline ≠ 0 ∧ b.noDeadline = false ∧ b.openedAt + k.deadline ≤ s.now := by
  refine ⟨?_, ?_, ?_, ?_, ?_⟩ <;> decide +kernel

def m_sequencerRows_1_s : State := rigP [sop 0 0 0] (run0) [] ([])
def m_sequencerRows_1_r : Run := (Option.get ((m_sequencerRows_1_s).seqOp ((0 : Fin 40)) 0) (by decide +kernel)).1
def m_sequencerRows_1_o : Op := (Option.get ((m_sequencerRows_1_s).seqOp ((0 : Fin 40)) 0) (by decide +kernel)).2
theorem meets_sequencerRows_1 :
    let s : State := m_sequencerRows_1_s; let c : Fin 40 := (0 : Fin 40); let r : Run := m_sequencerRows_1_r; let o : Op := m_sequencerRows_1_o; s.power.stopped = false ∧ s.seqOp c 0 = some (r, o) := by
  refine ⟨?_, getAll ?_⟩ <;> decide +kernel

def m_sequencerRows_2_s : State := rigP [sop 2 1 3] (run0) [] ([])
def m_sequencerRows_2_r : Run := (Option.get ((m_sequencerRows_2_s).seqOp ((0 : Fin 40)) 2) (by decide +kernel)).1
def m_sequencerRows_2_o : Op := (Option.get ((m_sequencerRows_2_s).seqOp ((0 : Fin 40)) 2) (by decide +kernel)).2
theorem meets_sequencerRows_2 :
    let s : State := m_sequencerRows_2_s; let c : Fin 40 := (0 : Fin 40); let r : Run := m_sequencerRows_2_r; let o : Op := m_sequencerRows_2_o; s.power.stopped = false ∧ s.seqOp c 2 = some (r, o) := by
  refine ⟨?_, getAll ?_⟩ <;> decide +kernel

def m_sequencerRows_3_s : State := rigP [sop 2 1 3, sop 3 1 0] ({ run0 with pc := 1 }) [] ([])
def m_sequencerRows_3_r : Run := (Option.get ((m_sequencerRows_3_s).seqOp ((0 : Fin 40)) 3) (by decide +kernel)).1
def m_sequencerRows_3_o : Op := (Option.get ((m_sequencerRows_3_s).seqOp ((0 : Fin 40)) 3) (by decide +kernel)).2
def m_sequencerRows_3_l : Launch := Option.get ((m_sequencerRows_3_s).launch? (m_sequencerRows_3_r).launch) (by decide +kernel)
def m_sequencerRows_3_b : Op := Option.get ((m_sequencerRows_3_l).ops[(m_sequencerRows_3_o).imm.toNat % 2 ^ 16]?) (by decide +kernel)
def m_sequencerRows_3_n : Nat := (((m_sequencerRows_3_r).loops[(m_sequencerRows_3_o).desc.toNat % 4]?).getD 0) + 1
theorem meets_sequencerRows_3 :
    let s : State := m_sequencerRows_3_s; let c : Fin 40 := (0 : Fin 40); let r : Run := m_sequencerRows_3_r; let o : Op := m_sequencerRows_3_o; let b : Op := m_sequencerRows_3_b; let l : Launch := m_sequencerRows_3_l; let n : Nat := m_sequencerRows_3_n; s.power.stopped = false ∧ s.seqOp c 3 = some (r, o) ∧ s.launch? r.launch = some l ∧ l.ops[o.imm.toNat % 2 ^ 16]? = some b ∧ n = ((r.loops[o.desc.toNat % 4]?).getD 0) + 1 := by
  refine ⟨?_, getAll ?_, getAll ?_, getAll ?_, rfl⟩ <;> decide +kernel

def m_sequencerRows_4_s : State := rigP [sop 4 0 0] (run0) [] ([])
def m_sequencerRows_4_r : Run := (Option.get ((m_sequencerRows_4_s).seqOp ((0 : Fin 40)) 4) (by decide +kernel)).1
def m_sequencerRows_4_o : Op := (Option.get ((m_sequencerRows_4_s).seqOp ((0 : Fin 40)) 4) (by decide +kernel)).2
def m_sequencerRows_4_s1 : State := (((m_sequencerRows_4_s).yieldClear ((0 : Fin 40))).modRun ((0 : Fin 40)) (fun r => r.pastYield (m_sequencerRows_4_o).post)).yieldProgress (m_sequencerRows_4_r).launch
theorem meets_sequencerRows_4 :
    let s : State := m_sequencerRows_4_s; let s1 : State := m_sequencerRows_4_s1; let c : Fin 40 := (0 : Fin 40); let r : Run := m_sequencerRows_4_r; let o : Op := m_sequencerRows_4_o; s.power.stopped = false ∧ s.seqOp c 4 = some (r, o) ∧ r.drained = true ∧ s1 = ((s.yieldClear c).modRun c (fun r => r.pastYield o.post)).yieldProgress r.launch ∧ s1.lapsedCmd r.launch = none ∧ (s1.unit (coreUnit c)).state = .active ∧ (s1.core c).switchPending = false ∧ s1.contended c = false := by
  refine ⟨?_, getAll ?_, ?_, rfl, ?_, ?_, ?_, ?_⟩ <;> decide +kernel

def m_sequencerRows_5_s : State := rigP [sop 5 1 0] (run0) [] ([])
def m_sequencerRows_5_l : Launch := lau [sop 5 1 0]
def m_sequencerRows_5_r : Run := (Option.get ((m_sequencerRows_5_s).seqOp ((0 : Fin 40)) 5) (by decide +kernel)).1
def m_sequencerRows_5_o : Op := (Option.get ((m_sequencerRows_5_s).seqOp ((0 : Fin 40)) 5) (by decide +kernel)).2
def m_sequencerRows_5_id : Nat := ((m_sequencerRows_5_l).barIds[bits (m_sequencerRows_5_o).desc.toNat 9 0]?).getD 0
theorem meets_sequencerRows_5 :
    let s : State := m_sequencerRows_5_s; let c : Fin 40 := (0 : Fin 40); let r : Run := m_sequencerRows_5_r; let o : Op := m_sequencerRows_5_o; let l : Launch := m_sequencerRows_5_l; let id : Nat := m_sequencerRows_5_id; s.power.stopped = false ∧ s.seqOp c 5 = some (r, o) ∧ s.launch? r.launch = some l ∧ r.drained = true ∧ id = (l.barIds[bits o.desc.toNat 9 0]?).getD 0 ∧ bits o.desc.toNat 13 12 = 0 := by
  refine ⟨?_, getAll ?_, ?_, ?_, rfl, ?_⟩ <;> decide +kernel

def m_sequencerRows_6_s : State := rigP [opEnd] (run0) [] ([])
def m_sequencerRows_6_r : Run := (Option.get ((m_sequencerRows_6_s).seqOp ((0 : Fin 40)) 1) (by decide +kernel)).1
def m_sequencerRows_6_o : Op := (Option.get ((m_sequencerRows_6_s).seqOp ((0 : Fin 40)) 1) (by decide +kernel)).2
def m_sequencerRows_6_s2 : State := ((((m_sequencerRows_6_s).modCore ((0 : Fin 40)) (fun k => { k.clearArrays.leave with switchPending := false, slot := false })).coreDrained ((0 : Fin 40))).modPart (m_sequencerRows_6_r).part (fun p => { p with slotWait := p.slotWait.filter (· != ((0 : Fin 40)).val) })).modLaunch (m_sequencerRows_6_r).launch (fun l => l.endedOn (m_sequencerRows_6_r) ((0 : Fin 40)))
def m_sequencerRows_6_l : Launch := Option.get ((m_sequencerRows_6_s2).launch? (m_sequencerRows_6_r).launch) (by decide +kernel)
theorem meets_sequencerRows_6 :
    let s : State := m_sequencerRows_6_s; let s2 : State := m_sequencerRows_6_s2; let c : Fin 40 := (0 : Fin 40); let r : Run := m_sequencerRows_6_r; let o : Op := m_sequencerRows_6_o; let l : Launch := m_sequencerRows_6_l; let u : Nat := 7; s.power.stopped = false ∧ s.seqOp c 1 = some (r, o) ∧ r.drained = true ∧ s2 = (((s.modCore c (fun k => { k.clearArrays.leave with switchPending := false, slot := false })).coreDrained c).modPart r.part (fun p => { p with slotWait := p.slotWait.filter (· != c.val) })).modLaunch r.launch (fun l => l.endedOn r c) ∧ s2.launch? r.launch = some l ∧ s2.lapsedCmd l.id = none ∧ l.by_ = .cmd u ∧ l.cores.length ≤ l.ended.length := by
  refine ⟨?_, getAll ?_, ?_, rfl, getAll ?_, ?_, ?_, ?_⟩ <;> decide +kernel

def m_sequencerRows_7_s : State := { rig with cores := { rig.cores with launches := [{ lau [] with arrived := [(1, 0)] }] } }
def m_sequencerRows_7_l : Launch := Option.get ((m_sequencerRows_7_s).cores.launches.find? (fun l => l.arrived.any (fun a => a.1 == ((1 : Fin 1024)).val) && l.allArrived ((1 : Fin 1024)) && !(m_sequencerRows_7_s).fabric.bars.any (fun b => b.launch == some (l.id, ((1 : Fin 1024)).val)))) (by decide +kernel)
theorem meets_sequencerRows_7 :
    let s : State := m_sequencerRows_7_s; let n : Fin 1024 := (1 : Fin 1024); let l : Launch := m_sequencerRows_7_l; s.power.stopped = false ∧ s.cores.launches.find? (fun l => l.arrived.any (fun a => a.1 == n.val) && l.allArrived n && !s.fabric.bars.any (fun b => b.launch == some (l.id, n.val))) = some l ∧ s.launchAdds l.id (s.launchCmds l.id) = false ∧ s.stagedBarred (fun g => g.launch == some l.id) = false := by
  refine ⟨?_, getAll ?_, ?_, ?_⟩ <;> decide +kernel

def m_sequencerRows_8_s : State := { rig with queues := [{ que with running := [{ nopRun 7 with work := .barrier }] }] }
def m_sequencerRows_8_c : Running := Option.get ((m_sequencerRows_8_s).cmd? (7)) (by decide +kernel)
theorem meets_sequencerRows_8 :
    let s : State := m_sequencerRows_8_s; let uid : Nat := 7; let c : Running := m_sequencerRows_8_c; s.power.stopped = false ∧ s.cmd? uid = some c ∧ c.reply = none ∧ c.work = .barrier ∧ s.cmdAdds uid = false ∧ s.stagedBarred (fun g => s.cmdLaunch uid g.launch g.uid) = false := by
  refine ⟨?_, getAll ?_, ?_, ?_, ?_, ?_⟩ <;> decide +kernel

def m_coreEvents_1_s : State := rigP [opEnd] ({ run0 with engines := [{}, { cur := some { index := 0, op := { op := 1, engine := 1, wait := none, post := none, desc := 0, imm := 0 }, loops := [0, 0, 0, 0] } }] }) [] ([])
def m_coreEvents_1_r : Run := Option.get (((m_coreEvents_1_s).core ((0 : Fin 40))).run) (by decide +kernel)
def m_coreEvents_1_q : Queued := Option.get (((m_coreEvents_1_r).engine ((1 : Fin 9))).cur) (by decide +kernel)
theorem meets_coreEvents_1 :
    let s : State := m_coreEvents_1_s; let c : Fin 40 := (0 : Fin 40); let e : Fin 9 := (1 : Fin 9); let r : Run := m_coreEvents_1_r; let q : Queued := m_coreEvents_1_q; s.power.stopped = false ∧ e.val ≠ 0 ∧ s.opDone c e = true ∧ (s.core c).run = some r ∧ (r.engine e).cur = some q := by
  refine ⟨?_, ?_, ?_, getAll ?_, getAll ?_⟩ <;> decide +kernel

def m_coreEvents_2_s : State := rigP [opEnd] ({ run0 with engines := [{}, { queue := [{ index := 0, op := { op := 1, engine := 1, wait := none, post := none, desc := 0, imm := 0 }, loops := [0, 0, 0, 0] }], taken := true }] }) [] ([])
def m_coreEvents_2_r : Run := Option.get (((m_coreEvents_2_s).core ((0 : Fin 40))).run) (by decide +kernel)
theorem meets_coreEvents_2 :
    let s : State := m_coreEvents_2_s; let c : Fin 40 := (0 : Fin 40); let r : Run := m_coreEvents_2_r; s.power.stopped = false ∧ (s.core c).run = some r ∧ r.wantsSwitch = true ∧ (∀ k ∈ r.engines, k.cur = none ∧ k.go = false) := by
  refine ⟨?_, getAll ?_, ?_, ?_⟩ <;> decide +kernel

def m_coreEvents_3_s : State := ({ rig with tenants := { rig.tenants with parts := [{ part0 with slotWait := [0] }] } } : State).setField .coreStagger 0 0 0 6 1
def m_coreEvents_3_k : Part := { part0 with slotWait := [0] }
theorem meets_coreEvents_3 :
    let s : State := m_coreEvents_3_s; let p : Fin 32 := (0 : Fin 32); let k : Part := m_coreEvents_3_k; let c : Nat := 0; let rest : List Nat := ([] : List Nat); s.power.stopped = false ∧ s.part? p = some k ∧ k.slotWait = c :: rest ∧ s.slotHolders k < s.moveSlots p := by
  refine ⟨?_, ?_, ?_, ?_⟩ <;> decide +kernel

theorem meets_coreEvents_4 :
    let s : State := rig; let c : Fin 40 := (0 : Fin 40); let e : Fin 9 := (1 : Fin 9); s.power.stopped = false :=
  by decide +kernel

def m_coreEvents_5_s : State := rigP [opEnd] ({ run0 with engines := [{}, { cur := some { index := 0, op := { op := 1, engine := 1, wait := none, post := none, desc := 0, imm := 0 }, loops := [0, 0, 0, 0] } }] }) [] ([])
def m_coreEvents_5_r : Run := Option.get (((m_coreEvents_5_s).core (0)).run) (by decide +kernel)
def m_coreEvents_5_k : Engine := Option.get ((m_coreEvents_5_r).engines[(1)]?) (by decide +kernel)
theorem meets_coreEvents_5 :
    let s : State := m_coreEvents_5_s; let c : Nat := 0; let e : Nat := 1; let r : Run := m_coreEvents_5_r; let k : Engine := m_coreEvents_5_k; (s.core c).run = some r ∧ r.engines[e]? = some k ∧ k.cur.isSome = true ∧ k.streaming = false := by
  refine ⟨getAll ?_, getAll ?_, ?_, ?_⟩ <;> decide +kernel

def m_engineRows_1_s : State := rigX 1 1 [] (laid 64 tdesc)
def m_engineRows_1_r : Run := (Option.get ((m_engineRows_1_s).startable ((0 : Fin 40)) (((0 : Fin 4)) + 1)) (by decide +kernel)).1
def m_engineRows_1_q : Queued := (Option.get ((m_engineRows_1_s).startable ((0 : Fin 40)) (((0 : Fin 4)) + 1)) (by decide +kernel)).2
def m_engineRows_1_d : List Byte := okGet (((m_engineRows_1_s).begin ((0 : Fin 40)) (((0 : Fin 4)) + 1) (m_engineRows_1_q)).opDesc ((0 : Fin 40)) (m_engineRows_1_q) 64 5) (by decide +kernel)
theorem meets_engineRows_1 :
    let s : State := m_engineRows_1_s; let c : Fin 40 := (0 : Fin 40); let a : Fin 4 := (0 : Fin 4); let f : Option Residue := (none : Option Residue); let r : Run := m_engineRows_1_r; let q : Queued := m_engineRows_1_q; let d : List Byte := m_engineRows_1_d; s.power.stopped = false ∧ s.startable c (a + 1) = some (r, q) ∧ q.op.op = 1 ∧ q.descBeyond 64 = false ∧ (s.begin c (a + 1) q).opDesc c q 64 5 = .ok d ∧ tileErrors d (tileDesc false d q.loops) = none ∧ (s.begin c (a + 1) q).provHeld none ((tileDesc false d q.loops).places c false) = false := by
  refine ⟨?_, getAll ?_, ?_, ?_, okGet_eq _ ?_, ?_, ?_⟩ <;> decide +kernel

def m_engineRows_2_s : State := rigX 1 2 [] (laid 128 (tdesc ++ [(64, 1, 1), (66, 2, 4), (72, 4, 1), (76, 4, 1), (80, 1, 1), (81, 1, 1), (82, 1, 1)]))
def m_engineRows_2_r : Run := (Option.get ((m_engineRows_2_s).startable ((0 : Fin 40)) (((0 : Fin 4)) + 1)) (by decide +kernel)).1
def m_engineRows_2_q : Queued := (Option.get ((m_engineRows_2_s).startable ((0 : Fin 40)) (((0 : Fin 4)) + 1)) (by decide +kernel)).2
def m_engineRows_2_d : List Byte := okGet (((m_engineRows_2_s).begin ((0 : Fin 40)) (((0 : Fin 4)) + 1) (m_engineRows_2_q)).opDesc ((0 : Fin 40)) (m_engineRows_2_q) 128 5) (by decide +kernel)
theorem meets_engineRows_2 :
    let s : State := m_engineRows_2_s; let c : Fin 40 := (0 : Fin 40); let a : Fin 4 := (0 : Fin 4); let f : Option Residue := (none : Option Residue); let r : Run := m_engineRows_2_r; let q : Queued := m_engineRows_2_q; let d : List Byte := m_engineRows_2_d; s.power.stopped = false ∧ s.startable c (a + 1) = some (r, q) ∧ q.op.op = 2 ∧ q.descBeyond 128 = false ∧ (s.begin c (a + 1) q).opDesc c q 128 5 = .ok d ∧ tileErrors d (tileDesc true d q.loops) = none ∧ (s.begin c (a + 1) q).provHeld none ((tileDesc true d q.loops).places c false) = false := by
  refine ⟨?_, getAll ?_, ?_, ?_, okGet_eq _ ?_, ?_, ?_⟩ <;> decide +kernel

def m_engineRows_3_s : State := rigX 1 3 [] (laid 64 tdesc)
def m_engineRows_3_r : Run := (Option.get ((m_engineRows_3_s).startable ((0 : Fin 40)) (((0 : Fin 4)) + 1)) (by decide +kernel)).1
def m_engineRows_3_q : Queued := (Option.get ((m_engineRows_3_s).startable ((0 : Fin 40)) (((0 : Fin 4)) + 1)) (by decide +kernel)).2
def m_engineRows_3_d : List Byte := okGet (((m_engineRows_3_s).begin ((0 : Fin 40)) (((0 : Fin 4)) + 1) (m_engineRows_3_q)).opDesc ((0 : Fin 40)) (m_engineRows_3_q) 64 5) (by decide +kernel)
theorem meets_engineRows_3 :
    let s : State := m_engineRows_3_s; let c : Fin 40 := (0 : Fin 40); let a : Fin 4 := (0 : Fin 4); let f : Option Residue := (none : Option Residue); let r : Run := m_engineRows_3_r; let q : Queued := m_engineRows_3_q; let d : List Byte := m_engineRows_3_d; s.power.stopped = false ∧ s.startable c (a + 1) = some (r, q) ∧ q.op.op = 3 ∧ q.descBeyond 64 = false ∧ (s.begin c (a + 1) q).opDesc c q 64 5 = .ok d ∧ drainOpErrors d (drainDesc d q.loops) = none ∧ (s.begin c (a + 1) q).provHeld none ((drainDesc d q.loops).places c true) = false := by
  refine ⟨?_, getAll ?_, ?_, ?_, okGet_eq _ ?_, ?_, ?_⟩ <;> decide +kernel

def m_engineRows_4_s : State := rigX 5 1 [] (laid 64 [(0, 4, 1024), (4, 4, 64), (16, 4, 2048), (20, 4, 64), (24, 3, 4), (28, 3, 1), (33, 1, 0x55)])
def m_engineRows_4_r : Run := (Option.get ((m_engineRows_4_s).startable ((0 : Fin 40)) 5) (by decide +kernel)).1
def m_engineRows_4_q : Queued := (Option.get ((m_engineRows_4_s).startable ((0 : Fin 40)) 5) (by decide +kernel)).2
def m_engineRows_4_s1 : State := (m_engineRows_4_s).begin ((0 : Fin 40)) 5 (m_engineRows_4_q)
def m_engineRows_4_d : List Byte := okGet ((m_engineRows_4_s1).opDesc ((0 : Fin 40)) (m_engineRows_4_q) 64 6) (by decide +kernel)
def m_engineRows_4_t : VecDesc := vecDesc (m_engineRows_4_d) (m_engineRows_4_q).loops (m_engineRows_4_q).op.imm.toNat
theorem meets_engineRows_4 :
    let s : State := m_engineRows_4_s; let s1 : State := m_engineRows_4_s1; let c : Fin 40 := (0 : Fin 40); let r : Run := m_engineRows_4_r; let q : Queued := m_engineRows_4_q; let d : List Byte := m_engineRows_4_d; let t : VecDesc := m_engineRows_4_t; s.power.stopped = false ∧ s.startable c 5 = some (r, q) ∧ q.descBeyond 64 = false ∧ s1 = s.begin c 5 q ∧ s1.opDesc c q 64 6 = .ok d ∧ t = vecDesc d q.loops q.op.imm.toNat ∧ vecErrors d t = none ∧ s1.provHeld none (t.places c) = false := by
  refine ⟨?_, getAll ?_, ?_, rfl, okGet_eq _ ?_, rfl, ?_, ?_⟩ <;> decide +kernel

def m_engineRows_5_s : State := rigX 6 1 [obj 3 2097152 1 0 []] (laid 192 sdesc)
def m_engineRows_5_e : Nat := (if (false) then 7 else 6)
def m_engineRows_5_r : Run := (Option.get ((m_engineRows_5_s).startable ((0 : Fin 40)) (m_engineRows_5_e)) (by decide +kernel)).1
def m_engineRows_5_q : Queued := (Option.get ((m_engineRows_5_s).startable ((0 : Fin 40)) (m_engineRows_5_e)) (by decide +kernel)).2
def m_engineRows_5_d : List Byte := okGet (((m_engineRows_5_s).begin ((0 : Fin 40)) (m_engineRows_5_e) (m_engineRows_5_q)).opDesc ((0 : Fin 40)) (m_engineRows_5_q) 192 1) (by decide +kernel)
def m_engineRows_5_k : Running := Option.get (((m_engineRows_5_s).begin ((0 : Fin 40)) (m_engineRows_5_e) (m_engineRows_5_q)).cmd? (((((m_engineRows_5_s).begin ((0 : Fin 40)) (m_engineRows_5_e) (m_engineRows_5_q)).coreWork ((0 : Fin 40))).map (·.1)).getD 0)) (by decide +kernel)
theorem meets_engineRows_5 :
    let s : State := m_engineRows_5_s; let c : Fin 40 := (0 : Fin 40); let out : Bool := false; let r : Run := m_engineRows_5_r; let q : Queued := m_engineRows_5_q; let e : Nat := m_engineRows_5_e; let d : List Byte := m_engineRows_5_d; let k : Running := m_engineRows_5_k; s.power.stopped = false ∧ e = (if out then 7 else 6) ∧ s.startable c e = some (r, q) ∧ q.descBeyond 192 = false ∧ (s.begin c e q).opDesc c q 192 1 = .ok d ∧ streamBad e d (streamDesc d q.loops) = none ∧ (streamDesc d q.loops).cmp % 4 = 0 ∧ (s.begin c e q).cmd? ((((s.begin c e q).coreWork c).map (·.1)).getD 0) = some k := by
  refine ⟨?_, rfl, getAll ?_, ?_, okGet_eq _ ?_, ?_, ?_, getAll ?_⟩ <;> decide +kernel

def m_engineRows_6_s : State := rigX 8 0x20 ladleObjs (laid 64 [(0, 8, 2097152), (16, 8, 4194304), (24, 8, 4), (32, 1, 4), (33, 1, 0x55)])
def m_engineRows_6_r : Run := (Option.get ((m_engineRows_6_s).gatherOp ((0 : Fin 40)) 0x20 64) (by decide +kernel)).1
def m_engineRows_6_q : Queued := (Option.get ((m_engineRows_6_s).gatherOp ((0 : Fin 40)) 0x20 64) (by decide +kernel)).2.1
def m_engineRows_6_d : List Byte := okGet (Option.get ((m_engineRows_6_s).gatherOp ((0 : Fin 40)) 0x20 64) (by decide +kernel)).2.2 (by decide +kernel)
def m_engineRows_6_s1 : State := (m_engineRows_6_s).begin ((0 : Fin 40)) 8 (m_engineRows_6_q)
theorem meets_engineRows_6 :
    let s : State := m_engineRows_6_s; let s1 : State := m_engineRows_6_s1; let c : Fin 40 := (0 : Fin 40); let f : Option Nat := (none : Option Nat); let r : Run := m_engineRows_6_r; let q : Queued := m_engineRows_6_q; let d : List Byte := m_engineRows_6_d; s.power.stopped = false ∧ s.gatherOp c 0x20 64 = some (r, q, .ok d) ∧ s1 = s.begin c 8 q ∧ Unsnooped s1 ∧ s1.ladleErrors r.ctx d (ladleDesc d) = none ∧ s1.provHeld none ((ladleDesc d).places c r.ctx) = false := by
  refine ⟨?_, getOp ?_ ?_, rfl, ⟨rfl, rfl, rfl, rfl⟩, ?_, ?_⟩ <;> decide +kernel

def m_engineRows_7_s : State := rigX 8 0x21 cobjs (laid 64 [(0, 8, 2097152), (8, 4, 1024), (12, 4, 1), (16, 1, 5)])
def m_engineRows_7_r : Run := (Option.get ((m_engineRows_7_s).gatherOp ((0 : Fin 40)) 0x21 64) (by decide +kernel)).1
def m_engineRows_7_q : Queued := (Option.get ((m_engineRows_7_s).gatherOp ((0 : Fin 40)) 0x21 64) (by decide +kernel)).2.1
def m_engineRows_7_d : List Byte := okGet (Option.get ((m_engineRows_7_s).gatherOp ((0 : Fin 40)) 0x21 64) (by decide +kernel)).2.2 (by decide +kernel)
def m_engineRows_7_s1 : State := (m_engineRows_7_s).begin ((0 : Fin 40)) 8 (m_engineRows_7_q)
def m_engineRows_7_n : Nat := fld (m_engineRows_7_d) 12 4 * addEs (fld (m_engineRows_7_d) 16 1)
def m_engineRows_7_u : Nat := (Option.get ((m_engineRows_7_s1).coreWork ((0 : Fin 40))) (by decide +kernel)).1
def m_engineRows_7_e : Nat := (Option.get ((m_engineRows_7_s1).coreWork ((0 : Fin 40))) (by decide +kernel)).2
def m_engineRows_7_s2 : State := okGet ((((m_engineRows_7_s1).digestCore ((0 : Fin 40)) 8 11 (((m_engineRows_7_s1).core ((0 : Fin 40))).store.read (fld (m_engineRows_7_d) 8 4) (m_engineRows_7_n))).translate (some ((0 : Fin 40))) (m_engineRows_7_r).ctx (fld (m_engineRows_7_d) 0 8) (m_engineRows_7_n)).maddAll ((0 : Fin 40)) (m_engineRows_7_u) (m_engineRows_7_r).ctx (fld (m_engineRows_7_d) 16 1) ((m_engineRows_7_s1).coreChill ((0 : Fin 40))) (maddGranules ((m_engineRows_7_s1).core ((0 : Fin 40))) (fld (m_engineRows_7_d) 0 8) (fld (m_engineRows_7_d) 8 4) (fld (m_engineRows_7_d) 12 4) (fld (m_engineRows_7_d) 16 1))) (by decide +kernel)
theorem meets_engineRows_7 :
    let s : State := m_engineRows_7_s; let s1 : State := m_engineRows_7_s1; let s2 : State := m_engineRows_7_s2; let c : Fin 40 := (0 : Fin 40); let r : Run := m_engineRows_7_r; let q : Queued := m_engineRows_7_q; let d : List Byte := m_engineRows_7_d; let u : Nat := m_engineRows_7_u; let e : Nat := m_engineRows_7_e; let n : Nat := m_engineRows_7_n; s.power.stopped = false ∧ s.gatherOp c 0x21 64 = some (r, q, .ok d) ∧ s1 = s.begin c 8 q ∧ Unsnooped s1 ∧ n = fld d 12 4 * addEs (fld d 16 1) ∧ maddErrors d = none ∧ s1.unmapped r.ctx (fld d 0 8) n = none ∧ (∀ p ∈ pieces (fld d 0 8) n, ∀ o, s1.pageAt r.ctx p.1 = some o → o.2.tier = .t3 → o.1.prot = false ∧ (s1.farPort o.2.place).isSome = true) ∧ s1.provHeld none [(.core c (fld d 8 4), n), (.dev r.ctx (fld d 0 8), n)] = false ∧ s1.coreWork c = some (u, e) ∧ ((s1.digestCore c 8 11 ((s1.core c).store.read (fld d 8 4) n)).translate (some c) r.ctx (fld d 0 8) n).maddAll c u r.ctx (fld d 16 1) (s1.coreChill c) (maddGranules (s1.core c) (fld d 0 8) (fld d 8 4) (fld d 12 4) (fld d 16 1)) = .ok s2 := by
  refine ⟨?_, getOp ?_ ?_, rfl, ⟨rfl, rfl, rfl, rfl⟩, rfl, ?_, ?_, tiers ?_, ?_, getAll ?_, okGet_eq _ ?_⟩ <;> decide +kernel

def m_engineRows_8_s : State := rigG 1 (laid 128 bag1)
def m_engineRows_8_r : Run := (Option.get ((m_engineRows_8_s).gatherOp ((0 : Fin 40)) 1 128) (by decide +kernel)).1
def m_engineRows_8_q : Queued := (Option.get ((m_engineRows_8_s).gatherOp ((0 : Fin 40)) 1 128) (by decide +kernel)).2.1
def m_engineRows_8_d : List Byte := okGet (Option.get ((m_engineRows_8_s).gatherOp ((0 : Fin 40)) 1 128) (by decide +kernel)).2.2 (by decide +kernel)
def m_engineRows_8_s1 : State := (m_engineRows_8_s).begin ((0 : Fin 40)) 8 (m_engineRows_8_q)
def m_engineRows_8_t : EmbDesc := embDesc (m_engineRows_8_d)
def m_engineRows_8_s2 : State := okGet (((m_engineRows_8_s1).streamingOn (.engine ((0 : Fin 40)) 8)).startLookup (.engine ((0 : Fin 40)) 8) ((((m_engineRows_8_s1).coreWork ((0 : Fin 40))).map (·.1)).getD 0) ((0 : Fin 40)) (m_engineRows_8_r).logical (m_engineRows_8_r).ctx (m_engineRows_8_d) 0 (m_engineRows_8_t).bags ((((m_engineRows_8_s1).launch? (m_engineRows_8_r).launch).map (·.sparse)).getD 0)) (by decide +kernel)
theorem meets_engineRows_8 :
    let s : State := m_engineRows_8_s; let s1 : State := m_engineRows_8_s1; let s2 : State := m_engineRows_8_s2; let c : Fin 40 := (0 : Fin 40); let r : Run := m_engineRows_8_r; let q : Queued := m_engineRows_8_q; let d : List Byte := m_engineRows_8_d; let t : EmbDesc := m_engineRows_8_t; let tbl : Table := tbl0; s.power.stopped = false ∧ s.gatherOp c 1 128 = some (r, q, .ok d) ∧ s1 = s.begin c 8 q ∧ t = embDesc d ∧ Unsnooped s1 ∧ s1.provHeld none (t.offsAt 1 c r.ctx 0 t.bags) = false ∧ s1.embErrors 1 c r.ctx d false = none ∧ s1.table? r.ctx t.tset t.table = some tbl ∧ s1.yarrowWaits r.ctx t.tset t.table = false ∧ s1.provHeld none (s1.embPlaces t tbl 1 c r.ctx 0 t.bags) = false ∧ (s1.streamingOn (.engine c 8)).startLookup (.engine c 8) (((s1.coreWork c).map (·.1)).getD 0) c r.logical r.ctx d 0 t.bags (((s1.launch? r.launch).map (·.sparse)).getD 0) = .ok s2 := by
  refine ⟨?_, getOp ?_ ?_, rfl, rfl, ⟨rfl, rfl, rfl, rfl⟩, ?_, ?_, ?_, ?_, ?_, okGet_eq _ ?_⟩ <;> decide +kernel

def m_engineRows_9_s : State := rigG 2 (laid 128 bag1)
def m_engineRows_9_r : Run := (Option.get ((m_engineRows_9_s).gatherOp ((0 : Fin 40)) 2 128) (by decide +kernel)).1
def m_engineRows_9_q : Queued := (Option.get ((m_engineRows_9_s).gatherOp ((0 : Fin 40)) 2 128) (by decide +kernel)).2.1
def m_engineRows_9_d : List Byte := okGet (Option.get ((m_engineRows_9_s).gatherOp ((0 : Fin 40)) 2 128) (by decide +kernel)).2.2 (by decide +kernel)
def m_engineRows_9_s1 : State := (m_engineRows_9_s).begin ((0 : Fin 40)) 8 (m_engineRows_9_q)
def m_engineRows_9_t : EmbDesc := embDesc (m_engineRows_9_d)
def m_engineRows_9_p : Nat := (((m_engineRows_9_s1).ctx? (m_engineRows_9_r).ctx).map (·.part)).getD 0
def m_engineRows_9_cs : List Contribution := (m_engineRows_9_s1).contributions ((0 : Fin 40)) (m_engineRows_9_r).ctx (m_engineRows_9_t) (tbl0) 0 (m_engineRows_9_t).bags
def m_engineRows_9_s2 : State := ((m_engineRows_9_s1).streamingOn (.engine ((0 : Fin 40)) 8)).runUpdate (.engine ((0 : Fin 40)) 8) ((((m_engineRows_9_s1).coreWork ((0 : Fin 40))).map (·.1)).getD 0) ((0 : Fin 40)) (m_engineRows_9_r).logical (m_engineRows_9_q).index (m_engineRows_9_r).ctx (m_engineRows_9_d) (tbl0) 0 (m_engineRows_9_t).bags (m_engineRows_9_t).scratchBytes ((m_engineRows_9_s1).coreStep ((0 : Fin 40))) ((((m_engineRows_9_s1).launch? (m_engineRows_9_r).launch).map (·.sparse)).getD 0) ((m_engineRows_9_s1).coreChill ((0 : Fin 40))) (m_engineRows_9_cs)
theorem meets_engineRows_9 :
    let s : State := m_engineRows_9_s; let s1 : State := m_engineRows_9_s1; let s2 : State := m_engineRows_9_s2; let c : Fin 40 := (0 : Fin 40); let r : Run := m_engineRows_9_r; let q : Queued := m_engineRows_9_q; let d : List Byte := m_engineRows_9_d; let t : EmbDesc := m_engineRows_9_t; let tbl : Table := tbl0; let p : Nat := m_engineRows_9_p; let cs : List Contribution := m_engineRows_9_cs; s.power.stopped = false ∧ s.gatherOp c 2 128 = some (r, q, .ok d) ∧ s1 = s.begin c 8 q ∧ t = embDesc d ∧ p = ((s1.ctx? r.ctx).map (·.part)).getD 0 ∧ Unsnooped s1 ∧ s1.provHeld none (t.offsAt 2 c r.ctx 0 t.bags) = false ∧ s1.embErrors 2 c r.ctx d (s1.coreChill c || t.coalesce) = none ∧ s1.table? r.ctx t.tset t.table = some tbl ∧ s1.yarrowWaits r.ctx t.tset t.table = false ∧ s1.provHeld none (s1.embPlaces t tbl 2 c r.ctx 0 t.bags) = false ∧ (firstUnmapped s1 r.ctx ([dataRange 2 t tbl.width 0 t.bags] ++ (if s1.coreChill c = true ∨ t.coalesce = true then [(true, t.scratch, t.scratchBytes)] else [])) = none) ∧ s1.idsUnmapped c r.ctx t 2 0 t.bags = none ∧ cs = s1.contributions c r.ctx t tbl 0 t.bags ∧ firstUnmapped s1 r.ctx (cs.map (fun k => (true, s1.authority p r.ctx (tbl.rowAddr k.row), rowLen tbl.width tbl.bits))) = none ∧ s1.farProtected p r.ctx tbl cs = false ∧ (s1.coreChill c = true → entryBytes tbl.width * (distinct (cs.map (fun k => k.row))).length ≤ t.scratchBytes) ∧ s2 = (s1.streamingOn (.engine c 8)).runUpdate (.engine c 8) (((s1.coreWork c).map (·.1)).getD 0) c r.logical q.index r.ctx d tbl 0 t.bags t.scratchBytes (s1.coreStep c) (((s1.launch? r.launch).map (·.sparse)).getD 0) (s1.coreChill c) cs := by
  refine ⟨?_, getOp ?_ ?_, rfl, rfl, rfl, ⟨rfl, rfl, rfl, rfl⟩, ?_, ?_, ?_, ?_, ?_, ?_, ?_, rfl, ?_, ?_, ?_, rfl⟩ <;> decide +kernel

def m_engineRows_10_s : State := rigG 3 (laid 128 bag1)
def m_engineRows_10_r : Run := (Option.get ((m_engineRows_10_s).gatherOp ((0 : Fin 40)) 3 128) (by decide +kernel)).1
def m_engineRows_10_q : Queued := (Option.get ((m_engineRows_10_s).gatherOp ((0 : Fin 40)) 3 128) (by decide +kernel)).2.1
def m_engineRows_10_d : List Byte := okGet (Option.get ((m_engineRows_10_s).gatherOp ((0 : Fin 40)) 3 128) (by decide +kernel)).2.2 (by decide +kernel)
def m_engineRows_10_s1 : State := (m_engineRows_10_s).begin ((0 : Fin 40)) 8 (m_engineRows_10_q)
def m_engineRows_10_t : EmbDesc := embDesc (m_engineRows_10_d)
theorem meets_engineRows_10 :
    let s : State := m_engineRows_10_s; let s1 : State := m_engineRows_10_s1; let c : Fin 40 := (0 : Fin 40); let r : Run := m_engineRows_10_r; let q : Queued := m_engineRows_10_q; let d : List Byte := m_engineRows_10_d; let t : EmbDesc := m_engineRows_10_t; let tbl : Table := tbl0; s.power.stopped = false ∧ s.gatherOp c 3 128 = some (r, q, .ok d) ∧ s1 = s.begin c 8 q ∧ t = embDesc d ∧ Unsnooped s1 ∧ s1.embErrors 3 c r.ctx d false = none ∧ s1.table? r.ctx t.tset t.table = some tbl ∧ s1.provHeld none (s1.embPlaces t tbl 3 c r.ctx 0 t.bags) = false ∧ s1.outReady r.ctx (t.dataDev, t.data, 8 * t.bags) = true ∧ firstUnmapped s1 r.ctx [(t.dev, t.ids, 8 * t.bags), (t.dataDev, t.data, 8 * t.bags)] = none := by
  refine ⟨?_, getOp ?_ ?_, rfl, rfl, ⟨rfl, rfl, rfl, rfl⟩, ?_, ?_, ?_, ?_, ?_⟩ <;> decide +kernel

def m_transferEvents_1_s : State := { rigO [obj 3 2097152 1 0 []] with queues := [{ que with running := [{ nopRun 7 with pkt := pk 0x130 0 [(2, 1, 16)], work := .jobs }] }], moves := { rig.moves with transfers := [{ id := 3, stream := 2, piece := { src := .host 0 (some 5) 0, dst := .dev 1 2097152, es := 8 } }], streams := [{ id := 2, owner := .job 1, uid := 7, core := none, engine := 9, pieces := [{ src := .host 0 (some 5) 0, dst := .dev 1 2097152, es := 8 }], todo := [], total := 1 }] } }
def m_transferEvents_1_x : Transfer := { id := 3, stream := 2, piece := { src := .host 0 (some 5) 0, dst := .dev 1 2097152, es := 8 } }
def m_transferEvents_1_t : Stream := { id := 2, owner := .job 1, uid := 7, core := none, engine := 9, pieces := [{ src := .host 0 (some 5) 0, dst := .dev 1 2097152, es := 8 }], todo := [], total := 1 }
theorem meets_transferEvents_1 :
    let s : State := m_transferEvents_1_s; let id : Nat := 3; let res : Landing := .ok; let x : Transfer := m_transferEvents_1_x; let t : Stream := m_transferEvents_1_t; s.power.stopped = false ∧ s.moves.transfers.find? (·.id == id) = some x ∧ s.stream? x.stream = some t ∧ x.parked = none ∧ x.atsWait = false ∧ x.farPending = 0 := by
  refine ⟨?_, ?_, ?_, ?_, ?_, ?_⟩ <;> decide +kernel

theorem meets_transferEvents_2 :
    let s : State := rig; let id : Nat := 3; s.power.stopped = false :=
  by decide +kernel

def m_transferEvents_3_s : State := { rigO [obj 3 2097152 1 0 []] with queues := [{ que with running := [{ nopRun 7 with pkt := pk 0x130 0 [(2, 1, 16)], work := .jobs }] }], moves := { rig.moves with transfers := [{ id := 3, stream := 2, piece := { src := .host 0 (some 5) 0, dst := .dev 1 2097152, es := 8 }, parked := some .hostPage }], streams := [{ id := 2, owner := .job 1, uid := 7, core := none, engine := 9, pieces := [{ src := .host 0 (some 5) 0, dst := .dev 1 2097152, es := 8 }], todo := [], total := 1 }] } }
def m_transferEvents_3_x : Transfer := { id := 3, stream := 2, piece := { src := .host 0 (some 5) 0, dst := .dev 1 2097152, es := 8 }, parked := some .hostPage }
def m_transferEvents_3_t : Stream := { id := 2, owner := .job 1, uid := 7, core := none, engine := 9, pieces := [{ src := .host 0 (some 5) 0, dst := .dev 1 2097152, es := 8 }], todo := [], total := 1 }
def m_transferEvents_3_c : Running := { nopRun 7 with pkt := pk 0x130 0 [(2, 1, 16)], work := .jobs }
theorem meets_transferEvents_3 :
    let s : State := m_transferEvents_3_s; let id : Nat := 3; let j : Nat := 1; let x : Transfer := m_transferEvents_3_x; let t : Stream := m_transferEvents_3_t; let c : Running := m_transferEvents_3_c; s.gather? id = none ∧ s.moves.transfers.find? (·.id == id) = some x ∧ s.stream? x.stream = some t ∧ t.owner = .job j ∧ s.cmd? t.uid = some c ∧ x.parked.isSome = true ∧ c.preemptible = true := by
  refine ⟨?_, ?_, ?_, ?_, ?_, ?_, ?_⟩ <;> decide +kernel

def m_farRows_1_s : State := { rigO [] with memory := { (rigO []).memory with far := [{ op := 1, orig := 2, tag := 9, port := 2, use := .read 3 0, uid := 7, epoch := 1 }], groups := [{ id := 1, group := 0, ports := [2], capGib := 64, epoch := 1, xoSlots := 4096 }] } }
def m_farRows_1_f : Far := { op := 1, orig := 2, tag := 9, port := 2, use := .read 3 0, uid := 7, epoch := 1 }
theorem meets_farRows_1 :
    let s : State := m_farRows_1_s; let port : Fin 8 := (2 : Fin 8); let orig : Fin 8 := (2 : Fin 8); let fc : Bool := false; let tag : Fin 1048576 := (9 : Fin 1048576); let poison : BitVec 64 := (0 : BitVec 64); let data : List Byte := (laid 64 [] : List Byte); let f : Far := m_farRows_1_f; let t : Nat := 3; let a : Nat := 0; s.power.stopped = false ∧ (s.takeReply port 0x81 orig tag).far? orig tag = some f ∧ f.use = .read t a := by
  refine ⟨?_, ?_, ?_⟩ <;> decide +kernel

def m_farRows_2_s : State := { rigO [] with memory := { (rigO []).memory with far := [{ op := 1, orig := 2, tag := 9, port := 2, use := .add none 1 2097152 3, uid := 7, epoch := 1 }], groups := [{ id := 1, group := 0, ports := [2], capGib := 64, epoch := 1, xoSlots := 4096 }] } }
def m_farRows_2_f : Far := { op := 1, orig := 2, tag := 9, port := 2, use := .add none 1 2097152 3, uid := 7, epoch := 1 }
theorem meets_farRows_2 :
    let s : State := m_farRows_2_s; let port : Fin 8 := (2 : Fin 8); let orig : Fin 8 := (2 : Fin 8); let fc : Bool := false; let tag : Fin 1048576 := (9 : Fin 1048576); let f : Far := m_farRows_2_f; let k : Option Nat := (none : Option Nat); let x : Nat := 1; let a : Nat := 2097152; let fmt : Nat := 3; s.power.stopped = false ∧ (s.takeReply port 0x82 orig tag).far? orig tag = some f ∧ f.use = .add k x a fmt := by
  refine ⟨?_, ?_, ?_⟩ <;> decide +kernel

def m_farRows_3_s : State := { rigO [] with memory := { (rigO []).memory with far := [{ op := 1, orig := 2, tag := 9, port := 2, use := .add none 1 2097152 3, uid := 7, epoch := 1 }], groups := [{ id := 1, group := 0, ports := [2], capGib := 64, epoch := 1, xoSlots := 4096 }] } }
def m_farRows_3_f : Far := { op := 1, orig := 2, tag := 9, port := 2, use := .add none 1 2097152 3, uid := 7, epoch := 1 }
theorem meets_farRows_3 :
    let s : State := m_farRows_3_s; let port : Fin 8 := (2 : Fin 8); let orig : Fin 8 := (2 : Fin 8); let tag : Fin 1048576 := (9 : Fin 1048576); let us : BitVec 16 := (5 : BitVec 16); let f : Far := m_farRows_3_f; let k : Option Nat := (none : Option Nat); let x : Nat := 1; let a : Nat := 2097152; let fmt : Nat := 3; s.power.stopped = false ∧ (s.takeReply port 0x83 orig tag).far? orig tag = some f ∧ f.use = .add k x a fmt := by
  refine ⟨?_, ?_, ?_⟩ <;> decide +kernel

def m_farRows_4_s : State := { rigO [] with memory := { (rigO []).memory with far := [{ op := 1, orig := 2, tag := 9, port := 2, use := .add none 1 2097152 3, uid := 7, epoch := 1, retryAfter := some 100 }], groups := [{ id := 1, group := 0, ports := [2], capGib := 64, epoch := 1, xoSlots := 4096 }] } }
def m_farRows_4_f : Far := { op := 1, orig := 2, tag := 9, port := 2, use := .add none 1 2097152 3, uid := 7, epoch := 1, retryAfter := some 100 }
theorem meets_farRows_4 :
    let s : State := m_farRows_4_s; let orig : Fin 8 := (2 : Fin 8); let tag : Fin 1048576 := (9 : Fin 1048576); let f : Far := m_farRows_4_f; let k : Option Nat := (none : Option Nat); let x : Nat := 1; let a : Nat := 2097152; let fmt : Nat := 3; s.power.stopped = false ∧ s.far? orig tag = some f ∧ f.use = .add k x a fmt ∧ f.retryAfter.isSome := by
  refine ⟨?_, ?_, ?_, ?_⟩ <;> decide +kernel

def m_farRows_5_s : State := { rigO [] with memory := { (rigO []).memory with far := [{ op := 1, orig := 2, tag := 9, port := 2, use := .read 3 0, uid := 7, epoch := 1 }], groups := [{ id := 1, group := 0, ports := [2], capGib := 64, epoch := 1, xoSlots := 4096 }] } }
def m_farRows_5_f : Far := { op := 1, orig := 2, tag := 9, port := 2, use := .read 3 0, uid := 7, epoch := 1 }
theorem meets_farRows_5 :
    let s : State := m_farRows_5_s; let port : Fin 8 := (2 : Fin 8); let orig : Fin 8 := (2 : Fin 8); let tag : Fin 1048576 := (9 : Fin 1048576); let code : BitVec 16 := (1 : BitVec 16); let f : Far := m_farRows_5_f; s.power.stopped = false ∧ (s.takeReply port 0x84 orig tag).far? orig tag = some f := by
  refine ⟨?_, ?_⟩ <;> decide +kernel

theorem meets_farRows_6 :
    let s : State := rig; let orig : Fin 8 := (2 : Fin 8); let tag : Fin 1048576 := (9 : Fin 1048576); s.power.stopped = false :=
  by decide +kernel

def m_farRows_7_s : State := { rigO [] with memory := { (rigO []).memory with far := [{ op := 1, orig := 2, tag := 9, port := 2, use := .read 3 0, uid := 7, epoch := 1 }], groups := [{ id := 1, group := 0, ports := [2], capGib := 64, epoch := 1, xoSlots := 4096 }] } }
def m_farRows_7_f : Far := { op := 1, orig := 2, tag := 9, port := 2, use := .read 3 0, uid := 7, epoch := 1 }
theorem meets_farRows_7 :
    let s : State := m_farRows_7_s; let orig : Nat := 2; let tag : Nat := 9; let f : Far := m_farRows_7_f; s.far? orig tag = some f ∧ f.slot = none := by
  refine ⟨?_, ?_⟩ <;> decide +kernel

def m_farRows_8_s : State := { { rigO [] with memory := { (rigO []).memory with far := [{ op := 1, orig := 2, tag := 9, port := 2, use := .read 3 0, uid := 7, epoch := 1 }], groups := [{ id := 1, group := 0, ports := [2], capGib := 64, epoch := 1, xoSlots := 4096 }] } } with memory := { ({ rigO [] with memory := { (rigO []).memory with far := [{ op := 1, orig := 2, tag := 9, port := 2, use := .read 3 0, uid := 7, epoch := 1 }], groups := [{ id := 1, group := 0, ports := [2], capGib := 64, epoch := 1, xoSlots := 4096 }] } }).memory with unresolved := [{ far := { op := 1, orig := 2, tag := 9, port := 2, use := .add none 1 2097152 3, uid := 7, epoch := 1 }, seq := 1, group := 0 }] } }
def m_farRows_8_u : Unresolved := { far := { op := 1, orig := 2, tag := 9, port := 2, use := .add none 1 2097152 3, uid := 7, epoch := 1 }, seq := 1, group := 0 }
def m_farRows_8_s1 : State := (m_farRows_8_s).takeReply ((2 : Fin 8)) 0x89 ((2 : Fin 8)) ((9 : Fin 1048576))
theorem meets_farRows_8 :
    let s : State := m_farRows_8_s; let s1 : State := m_farRows_8_s1; let port : Fin 8 := (2 : Fin 8); let orig : Fin 8 := (2 : Fin 8); let tag : Fin 1048576 := (9 : Fin 1048576); let u : Unresolved := m_farRows_8_u; let k : Option Nat := (none : Option Nat); let x : Nat := 1; let a : Nat := 2097152; let fmt : Nat := 3; s.power.stopped = false ∧ s1 = s.takeReply port 0x89 orig tag ∧ s1.memory.unresolved.find? (fun u => u.far.orig == orig.val && u.far.tag == tag.val) = some u ∧ s1.epochOf u.group = u.far.epoch ∧ u.far.use = .add k x a fmt := by
  refine ⟨?_, rfl, ?_, ?_, ?_⟩ <;> decide +kernel

theorem meets_farRows_9 :
    let s : State := rig; let orig : Fin 8 := (2 : Fin 8); let slot : Fin 4096 := (4 : Fin 4096); s.power.stopped = false :=
  by decide +kernel

def m_farRows_10_s : State := { rigO [] with memory := { (rigO []).memory with far := [{ op := 1, orig := 2, tag := 9, port := 2, use := .read 3 0, uid := 7, epoch := 1 }], groups := [{ id := 1, group := 0, ports := [2], capGib := 64, epoch := 1, xoSlots := 4096 }] } }
theorem meets_farRows_10 :
    let s : State := m_farRows_10_s; let orig : Nat := 2; let slot : Nat := 4; (∀ f ∈ s.memory.far, f.orig = orig → f.slot ≠ some slot) ∧ (∀ u ∈ s.memory.unresolved, u.far.orig = orig → u.far.slot ≠ some slot) := by
  refine ⟨?_, ?_⟩ <;> decide +kernel

def m_farRows_11_s : State := { rig with memory := { rig.memory with far := [{ op := 6, orig := 2, tag := 9, port := 2, use := .caps, uid := 0 }] }, fabric := { rig.fabric with ports := [{ id := 26, role := 26, state := .up, capsWait := true }] } }
def m_farRows_11_caps : Caps := { expander := 1, capGib := 64, ops := 0x3FE, xoSlots := 4096, epoch := 1, maxLen := 64 }
def m_farRows_11_f : Far := { op := 6, orig := 2, tag := 9, port := 2, use := .caps, uid := 0 }
def m_farRows_11_s1 : State := ((m_farRows_11_s).takeReply ((2 : Fin 8)) 0x86 (m_farRows_11_f).orig (m_farRows_11_f).tag).dropFar (m_farRows_11_f).orig (m_farRows_11_f).tag
def m_farRows_11_s2 : State := (m_farRows_11_s1).modPort ((m_farRows_11_s1).rolePort (24 + ((2 : Fin 8)))) (fun p => { p with capsWait := false })
theorem meets_farRows_11 :
    let s : State := m_farRows_11_s; let s1 : State := m_farRows_11_s1; let s2 : State := m_farRows_11_s2; let port : Fin 8 := (2 : Fin 8); let caps : Caps := m_farRows_11_caps; let f : Far := m_farRows_11_f; s.power.stopped = false ∧ s.memory.far.find? (fun f => f.use == .caps && f.orig == port.val) = some f ∧ s1 = (s.takeReply port 0x86 f.orig f.tag).dropFar f.orig f.tag ∧ (s1.port (s1.rolePort (24 + port))).capsWait = true ∧ caps.meets = true ∧ s1.now ≤ f.issuedAt + 25000 ∧ s2 = s1.modPort (s1.rolePort (24 + port)) (fun p => { p with capsWait := false }) := by
  refine ⟨?_, ?_, rfl, ?_, ?_, ?_, rfl⟩ <;> decide +kernel

theorem meets_farRows_12 :
    let s : State := rig; let m : Fin 8 := (2 : Fin 8); s.power.stopped = false :=
  by decide +kernel

def m_farRows_13_s : State := { rig with memory := { rig.memory with trainWait := [2] } }
theorem meets_farRows_13 :
    let s : State := m_farRows_13_s; let m : Nat := 2; m ∈ s.memory.trainWait ∧ (s.port (s.rolePort (24 + m))).capsWait = false := by
  refine ⟨?_, ?_⟩ <;> decide +kernel

def m_farRows_14_s : State := { rigO [] with memory := { (rigO []).memory with far := [{ op := 8, orig := 2, tag := 9, port := 2, use := .read 3 0, uid := 0 }], groups := [{ id := 1, group := 0, ports := [2], capGib := 64, epoch := 1, xoSlots := 4096 }] } }
def m_farRows_14_f : Far := { op := 8, orig := 2, tag := 9, port := 2, use := .read 3 0, uid := 0 }
theorem meets_farRows_14 :
    let s : State := m_farRows_14_s; let port : Fin 8 := (2 : Fin 8); let orig : Fin 8 := (2 : Fin 8); let tag : Fin 1048576 := (9 : Fin 1048576); let f : Far := m_farRows_14_f; s.power.stopped = false ∧ (s.takeReply port 0x88 orig tag).far? orig tag = some f ∧ f.op = 8 := by
  refine ⟨?_, ?_, ?_⟩ <;> decide +kernel

theorem meets_farRows_15 :
    let s : State := rig; let port : Fin 8 := (2 : Fin 8); let orig : Fin 8 := (2 : Fin 8); let tag : Fin 1048576 := (9 : Fin 1048576); s.power.stopped = false ∧ (s.takeReply port 0x88 orig tag).far? orig tag = none := by
  refine ⟨?_, ?_⟩ <;> decide +kernel

def m_flitRows_1_s : State := rigL [{ id := 0, role := 0, state := .up, width := 8, wlMask := 255 }]
def m_flitRows_1_f : List Byte := flit [(0, 1, 1), (2, 1, 16)]
def m_flitRows_1_s2 : State := ((m_flitRows_1_s).rxFlit ((0 : Fin 36)) ((0 : Fin 9)) (some ((0 : Fin 31)))).modPort ((0 : Fin 36)) (fun p => p.common (m_flitRows_1_f))
set_option maxRecDepth 1000000 in
theorem meets_flitRows_1 :
    let s : State := m_flitRows_1_s; let s2 : State := m_flitRows_1_s2; let k : Fin 36 := (0 : Fin 36); let w : Fin 9 := (0 : Fin 9); let n : Fin 31 := (0 : Fin 31); let f : List Byte := m_flitRows_1_f; s.power.stopped = false ∧ flitOk false f = true ∧ flitKind f = 1 ∧ s2 = (s.rxFlit k w (some n)).modPort k (fun p => p.common f) ∧ (s2.port k).state = .up ∧ fld f 4 3 = (s2.port k).rxSeq := by
  refine ⟨?_, ?_, ?_, rfl, ?_, ?_⟩ <;> decide +kernel

def m_flitRows_2_s : State := rigL [{ id := 0, role := 0, state := .up, width := 8, wlMask := 255 }]
def m_flitRows_2_c : Instr := .nak 0 0 none (flit [])
set_option maxRecDepth 1000000 in
theorem meets_flitRows_2 :
    let s : State := m_flitRows_2_s; let k : Fin 36 := (0 : Fin 36); let w : Fin 9 := (0 : Fin 9); let fec : Option (Fin 31) := (none : Option (Fin 31)); let rx : BitVec 8 := (0 : BitVec 8); let f : List Byte := (flit [] : List Byte); let c : Instr := m_flitRows_2_c; s.power.stopped = false ∧ flitOk fec.isNone f = false ∧ (c = .dataFlit k w fec f ∨ c = .idleFlit k w fec f ∨ c = .nak k w fec f ∨ c = .train k w ⟨fec, rx⟩ f) := by
  refine ⟨?_, ?_, Or.inr (Or.inr (Or.inl rfl))⟩ <;> decide +kernel

def m_flitRows_3_s : State := rigL [{ id := 0, role := 0, state := .up, width := 8, wlMask := 255 }]
set_option maxRecDepth 1000000 in
theorem meets_flitRows_3 :
    let s : State := m_flitRows_3_s; let k : Fin 36 := (0 : Fin 36); let w : Fin 9 := (0 : Fin 9); let n : Fin 31 := (0 : Fin 31); let f : List Byte := (flit [] : List Byte); s.power.stopped = false ∧ flitOk false f = true ∧ flitKind f = 0 := by
  refine ⟨?_, ?_, ?_⟩ <;> decide +kernel

def m_flitRows_4_s : State := rigL [{ id := 0, role := 0, state := .up, width := 8, wlMask := 255 }]
def m_flitRows_4_f : List Byte := flit [(0, 1, 2)]
def m_flitRows_4_s2 : State := ((m_flitRows_4_s).rxFlit ((0 : Fin 36)) ((0 : Fin 9)) (some ((0 : Fin 31)))).modPort ((0 : Fin 36)) (fun p => p.common (m_flitRows_4_f))
set_option maxRecDepth 1000000 in
theorem meets_flitRows_4 :
    let s : State := m_flitRows_4_s; let s2 : State := m_flitRows_4_s2; let k : Fin 36 := (0 : Fin 36); let w : Fin 9 := (0 : Fin 9); let n : Fin 31 := (0 : Fin 31); let f : List Byte := m_flitRows_4_f; s.power.stopped = false ∧ flitOk false f = true ∧ flitKind f = 2 ∧ s2 = (s.rxFlit k w (some n)).modPort k (fun p => p.common f) ∧ (s2.port k).state = .up := by
  refine ⟨?_, ?_, ?_, rfl, ?_⟩ <;> decide +kernel

def m_flitRows_5_s : State := rigL [{ id := 0, role := 0, state := .up, width := 8, wlMask := 255 }]
theorem meets_flitRows_5 :
    let s : State := m_flitRows_5_s; let k : Nat := 0; let w : Nat := 0; let n : Nat := 2; n < 31 :=
  by decide +kernel

def m_flitRows_6_s : State := rigL [{ id := 0, role := 0, state := .up, nakOut := true }]
theorem meets_flitRows_6 :
    let s : State := m_flitRows_6_s; let k : Fin 36 := (0 : Fin 36); s.power.stopped = false ∧ (s.port k).nakOut = true ∧ (s.port k).state = .up := by
  refine ⟨?_, ?_, ?_⟩ <;> decide +kernel

def m_flitRows_7_s : State := rigL [{ id := 0, role := 0, state := .up, width := 8, wlMask := 255 }]
theorem meets_flitRows_7 :
    let s : State := m_flitRows_7_s; let k : Fin 36 := (0 : Fin 36); let w : Fin 9 := (0 : Fin 9); s.power.stopped = false :=
  by decide +kernel

def m_flitRows_8_s : State := rigL [{ id := 0, role := 0, state := .up, width := 8, wlMask := 255 }]
theorem meets_flitRows_8 :
    let s : State := m_flitRows_8_s; let k : Fin 36 := (0 : Fin 36); let w : Fin 9 := (1 : Fin 9); s.power.stopped = false ∧ (s.port k).state = .up ∧ (s.port k).proposal = none ∧ 0 < w.val := by
  refine ⟨?_, ?_, ?_, ?_⟩ <;> decide +kernel

def m_flitRows_9_s : State := rigL [{ id := 0, role := 0, state := .up, width := 8, wlMask := 255 }]
def m_flitRows_9_f : List Byte := flit [(0, 1, 4), (23, 1, 4), (24, 2, 15)]
def m_flitRows_9_s1 : State := ((m_flitRows_9_s).modPort ((0 : Fin 36)) (fun p => p.common (m_flitRows_9_f))).modPort ((0 : Fin 36)) (fun p => p.heardFrom (m_flitRows_9_f))
set_option maxRecDepth 1000000 in
theorem meets_flitRows_9 :
    let s : State := m_flitRows_9_s; let s1 : State := m_flitRows_9_s1; let k : Fin 36 := (0 : Fin 36); let f : List Byte := m_flitRows_9_f; let w : Fin 9 := (0 : Fin 9); s.power.stopped = false ∧ flitOk false f = true ∧ flitKind f = 4 ∧ s1 = (s.modPort k (fun p => p.common f)).modPort k (fun p => p.heardFrom f) ∧ (s1.port k).state = .up ∧ (s1.port k).proposal = none := by
  refine ⟨?_, ?_, ?_, rfl, ?_, ?_⟩ <;> decide +kernel

def m_flitRows_10_s : State := rigL [{ id := 0, role := 0, state := .up, width := 8, wlMask := 255 }]
def m_flitRows_10_f : List Byte := flit [(0, 1, 3)]
def m_flitRows_10_s1 : State := ((m_flitRows_10_s).modPort ((0 : Fin 36)) (fun p => p.common (m_flitRows_10_f))).modPort ((0 : Fin 36)) (fun p => p.heardFrom (m_flitRows_10_f))
set_option maxRecDepth 1000000 in
theorem meets_flitRows_10 :
    let s : State := m_flitRows_10_s; let s1 : State := m_flitRows_10_s1; let k : Fin 36 := (0 : Fin 36); let f : List Byte := m_flitRows_10_f; s.power.stopped = false ∧ flitOk false f = true ∧ flitKind f = 3 ∧ s1 = (s.modPort k (fun p => p.common f)).modPort k (fun p => p.heardFrom f) ∧ (s1.port k).state = .up ∧ (s1.port k).proposal = none := by
  refine ⟨?_, ?_, ?_, rfl, ?_, ?_⟩ <;> decide +kernel

def m_flitRows_11_s : State := rigL [{ id := 0, role := 0, state := .training }]
def m_flitRows_11_f : List Byte := flit [(0, 1, 5), (12, 2, 0x0709), (14, 1, 0xA1)]
def m_flitRows_11_s1 : State := ((m_flitRows_11_s).rxFlit ((0 : Fin 36)) ((0 : Fin 9)) (some ((0 : Fin 31)))).setField .glWl ((0 : Fin 36)) ((0 : Fin 9)) 56 8 ((7 : BitVec 8)).toNat
set_option maxRecDepth 1000000 in
theorem meets_flitRows_11 :
    let s : State := m_flitRows_11_s; let s1 : State := m_flitRows_11_s1; let k : Fin 36 := (0 : Fin 36); let w : Fin 9 := (0 : Fin 9); let n : Fin 31 := (0 : Fin 31); let rx : BitVec 8 := (7 : BitVec 8); let f : List Byte := m_flitRows_11_f; s.power.stopped = false ∧ flitOk false f = true ∧ flitKind f = 5 ∧ s1 = (s.rxFlit k w (some n)).setField .glWl k w 56 8 rx.toNat ∧ (s1.port k).state = .training ∧ ((s1.port k).memory = true ∨ fld f 12 2 = 0x0709 ∧ fld f 14 1 = 0xA1) := by
  refine ⟨?_, ?_, ?_, rfl, ?_, ?_⟩ <;> decide +kernel

def m_flitRows_12_s : State := ({ (rigL [{ id := 0, role := 0, state := .up, width := 8, wlMask := 255 }]).setField .pwrCfg 0 0 32 16 100 with riser := rig.riser } : State)
def m_flitRows_12_p : Port := (m_flitRows_12_s).port ((0 : Fin 36))
theorem meets_flitRows_12 :
    let s : State := m_flitRows_12_s; let k : Fin 36 := (0 : Fin 36); let p : Port := m_flitRows_12_p; s.power.stopped = false ∧ p = s.port k ∧ s.field .pwrCfg 0 0 32 16 ≠ 0 ∧ p.state = .up ∧ p.memory = false ∧ p.proposal = none ∧ s.field .pwrCfg 0 0 48 4 < p.width ∧ p.tx = [] ∧ s.field .pwrLinkKeep 0 0 k 1 = 0 ∧ p.chillTraffic = false := by
  refine ⟨?_, rfl, ?_, ?_, ?_, ?_, ?_, ?_, ?_, ?_⟩ <;> decide +kernel

def m_portRows_1_s : State := { rigL [{ id := 0, role := 0, state := .training, heard := true, peerWidth := 8, peerMask := 511 }] with pins := { rig.pins with glPresent := true } }
def m_portRows_1_p : Port := (m_portRows_1_s).port ((0 : Fin 36))
def m_portRows_1_a : Nat × Nat := agreed (((m_portRows_1_p).proposal.map (·.width)).getD ((m_portRows_1_s).ownWidth ((0 : Fin 36)))) (m_portRows_1_p) ((m_portRows_1_s).wlUsable ((0 : Fin 36)))
theorem meets_portRows_1 :
    let s : State := m_portRows_1_s; let k : Fin 36 := (0 : Fin 36); let p : Port := m_portRows_1_p; let a : Nat × Nat := m_portRows_1_a; s.power.stopped = false ∧ p = s.port k ∧ s.pins.glPresent = true ∧ p.heard = true ∧ p.state = .training ∧ p.memory = false ∧ p.replay = [] ∧ a = agreed ((p.proposal.map (·.width)).getD (s.ownWidth k)) p (s.wlUsable k) ∧ a.1 ≠ 0 := by
  refine ⟨?_, rfl, ?_, ?_, ?_, ?_, ?_, rfl, ?_⟩ <;> decide +kernel

theorem meets_portRows_2 :
    let s : State := rig; let k : Fin 36 := (0 : Fin 36); s.power.stopped = false :=
  by decide +kernel

def m_portRows_3_s : State := rigL [{ id := 0, role := 0, state := .retraining, windowAt := some 0 }]
theorem meets_portRows_3 :
    let s : State := m_portRows_3_s; let k : Nat := 0; (s.port k).windowAt.isSome = true ∧ (s.port k).state = .retraining ∧ (s.port k).pairLink = false := by
  refine ⟨?_, ?_, ?_⟩ <;> decide +kernel

theorem meets_portRows_4 :
    let s : State := rig; let k : Fin 36 := (3 : Fin 36); let tag : Fin 4096 := (1 : Fin 4096); s.power.stopped = false :=
  by decide +kernel

def m_portRows_5_s : State := rigL [{ id := 0, role := 0, state := .retraining, outstanding := [{ num := 1, ptype := 4, part := 0, uid := 7, payload := [], firstAt := 0, tag := 1, orig := 3, xo := true }] }]
def m_portRows_5_o : OutPkt := { num := 1, ptype := 4, part := 0, uid := 7, payload := [], firstAt := 0, tag := 1, orig := 3, xo := true }
theorem meets_portRows_5 :
    let s : State := m_portRows_5_s; let k : Nat := 3; let tag : Nat := 1; let j : Nat := 0; let o : OutPkt := m_portRows_5_o; (s.fabric.ports.filter (fun p => p.state != .up)).findSome? (fun p => (p.outstanding.find? (fun o => o.xo && o.orig == k && o.tag == tag)).map (fun o => (p.id, o))) = some (j, o) :=
  by decide +kernel

def m_portRows_6_s : State := rigL [{ id := 0, role := 0, state := .up, partner := 3, outstanding := [{ num := 1, ptype := 4, part := 0, uid := 7, payload := [], firstAt := 0, tag := 1, orig := 0, xo := true }] }]
def m_portRows_6_pkt : FabPacket := { fpk (laid 8 []) with xo := false }
def m_portRows_6_o : OutPkt := { num := 1, ptype := 4, part := 0, uid := 7, payload := [], firstAt := 0, tag := 1, orig := 0, xo := true }
def m_portRows_6_s1 : State := ((m_portRows_6_s).admitPacket ((0 : Fin 36)) 7 (m_portRows_6_pkt)).1
theorem meets_portRows_6 :
    let s : State := m_portRows_6_s; let s1 : State := m_portRows_6_s1; let k : Fin 36 := (0 : Fin 36); let pkt : FabPacket := m_portRows_6_pkt; let j : Nat := 0; let o : OutPkt := m_portRows_6_o; s.power.stopped = false ∧ s.admitPacket k 7 pkt = (s1, true) ∧ s1.fabric.ports.findSome? (fun p => (p.outstanding.find? (fun o => o.xo && o.orig == s1.partnerPort k pkt.orig && o.tag == pkt.tag.val)).map (fun o => (p.id, o))) = some (j, o) := by
  refine ⟨?_, Prod.ext rfl ?_, ?_⟩ <;> decide +kernel

def m_portRows_7_s : State := rigL [{ id := 0, role := 0, state := .up, width := 8, wlMask := 255 }]
def m_portRows_7_pkt : FabPacket := { fpk (laid 8 []) with xo := false }
def m_portRows_7_s1 : State := ((m_portRows_7_s).admitPacket ((0 : Fin 36)) 7 (m_portRows_7_pkt)).1
theorem meets_portRows_7 :
    let s : State := m_portRows_7_s; let s1 : State := m_portRows_7_s1; let k : Fin 36 := (0 : Fin 36); let pkt : FabPacket := m_portRows_7_pkt; s.power.stopped = false ∧ s.admitPacket k 7 pkt = (s1, true) ∧ (∀ p ∈ s1.fabric.ports, ∀ o ∈ p.outstanding, o.xo = true → o.orig = s1.partnerPort k pkt.orig → o.tag ≠ pkt.tag.val) := by
  refine ⟨?_, Prod.ext rfl ?_, ?_⟩ <;> decide +kernel

theorem meets_portRows_8 :
    let s : State := rig; let k : Fin 36 := (0 : Fin 36); let tag : Fin 4096 := (1 : Fin 4096); s.power.stopped = false :=
  by decide +kernel

def m_peerPackets_1_s : State := { rigL [{ id := 0, role := 0, state := .up, width := 8, wlMask := 255 }] with queues := [{ que with peerMask := 1 }] }
def m_peerPackets_1_pkt : FabPacket := fpk (laid 8 [(0, 2, 16)] ++ (pk 0x130 0 []).bytes)
def m_peerPackets_1_p : Packet := pk 0x130 0 []
def m_peerPackets_1_s1 : State := ((m_peerPackets_1_s).admitPacket ((0 : Fin 36)) 4 (m_peerPackets_1_pkt)).1
theorem meets_peerPackets_1 :
    let s : State := m_peerPackets_1_s; let s1 : State := m_peerPackets_1_s1; let k : Fin 36 := (0 : Fin 36); let pkt : FabPacket := m_peerPackets_1_pkt; let q : QueueId := .ctx 16; let p : Packet := m_peerPackets_1_p; s.power.stopped = false ∧ s.admitPacket k 4 pkt = (s1, true) ∧ s1.peerQueue k pkt = .ok (q, p) ∧ pkt.xo = true := by
  refine ⟨?_, Prod.ext rfl ?_, okEq ?_, ?_⟩ <;> decide +kernel

def m_peerPackets_2_s : State := rigL [{ id := 0, role := 0, state := .up, width := 8, wlMask := 255 }]
def m_peerPackets_2_pkt : FabPacket := fpk (laid 33 [(1, 1, 1), (4, 4, 1)])
theorem meets_peerPackets_2 :
    let s : State := m_peerPackets_2_s; let k : Fin 36 := (0 : Fin 36); let pkt : FabPacket := m_peerPackets_2_pkt; s.power.stopped = false ∧ mgetD s.fabric.linkSeqs (pkt.part.val, (s.ringLink k).1, (s.ringLink k).2) 0 < fld pkt.payload 4 4 ∧ fld pkt.payload 1 1 = (s.ringLink k).1 := by
  refine ⟨?_, ?_, ?_⟩ <;> decide +kernel

def m_peerPackets_3_s : State := { rigL [{ id := 0, role := 0, state := .up, width := 8, wlMask := 255 }] with fabric := { (rigL [{ id := 0, role := 0, state := .up, width := 8, wlMask := 255 }]).fabric with colls := [coll0], linkSeqs := [((0, 1, 3), 1)] } }
def m_peerPackets_3_pkt : FabPacket := fpk (laid 96 [(0, 1, 2), (1, 1, 1), (2, 1, 3), (4, 4, 1), (8, 2, 2), (10, 2, 1), (12, 4, 64), (24, 8, 64)])
def m_peerPackets_3_s1 : State := ((m_peerPackets_3_s).admitPacket ((0 : Fin 36)) 2 (m_peerPackets_3_pkt)).1
def m_peerPackets_3_ph : Bool := Option.get ((coll0).phase (m_peerPackets_3_pkt).reissue (fld (m_peerPackets_3_pkt).payload 10 2) (fld (m_peerPackets_3_pkt).payload 16 8) ((m_peerPackets_3_pkt).payload.drop 32)) (by decide +kernel)
set_option maxRecDepth 1000000 in
theorem meets_peerPackets_3 :
    let s : State := m_peerPackets_3_s; let s1 : State := m_peerPackets_3_s1; let k : Fin 36 := (0 : Fin 36); let pkt : FabPacket := m_peerPackets_3_pkt; let c : Coll := coll0; let ph : Bool := m_peerPackets_3_ph; s.power.stopped = false ∧ fld pkt.payload 4 4 ≤ mgetD s.fabric.linkSeqs (pkt.part.val, (s.ringLink k).1, (s.ringLink k).2) 0 ∧ s.admitPacket k 2 pkt = (s1, true) ∧ 1 ≤ (pkt.payload.drop 32).length ∧ (pkt.payload.drop 32).length ≤ 4096 ∧ fld pkt.payload 12 4 = (pkt.payload.drop 32).length ∧ fld pkt.payload 1 1 = (s.ringLink k).1 ∧ s1.fabric.colls.find? (fun c => c.part == pkt.part.val && c.axis == (s.ringLink k).1 && c.recv == some ((s.ringLink k).2, fld pkt.payload 4 4)) = some c ∧ fld pkt.payload 0 1 = c.cop ∧ fld pkt.payload 2 1 = c.fmt ∧ fld pkt.payload 8 2 = c.n ∧ fld pkt.payload 24 8 = c.elems ∧ c.cop ≠ 4 ∧ c.compress = false ∧ c.toCru = false ∧ fld pkt.payload 10 2 < c.n ∧ fld pkt.payload 16 8 + (pkt.payload.drop 32).length ≤ c.chunkBytes ∧ fld pkt.payload 16 8 % max 1 (es2 c.fmt / 2) = 0 ∧ (pkt.payload.drop 32).length % max 1 (es2 c.fmt / 2) = 0 ∧ c.phase pkt.reissue (fld pkt.payload 10 2) (fld pkt.payload 16 8) (pkt.payload.drop 32) = some ph := by
  refine ⟨?_, ?_, Prod.ext rfl ?_, ?_, ?_, ?_, ?_, ?_, ?_, ?_, ?_, ?_, ?_, ?_, ?_, ?_, ?_, ?_, ?_, getAll ?_⟩ <;> decide +kernel

def m_peerPackets_4_s : State := rigL [{ id := 1, role := 1, state := .up }]
def m_peerPackets_4_pkt : FabPacket := fpk (laid 24 [(1, 1, 1), (2, 2, 5), (4, 4, 1)])
def m_peerPackets_4_s1 : State := ((m_peerPackets_4_s).admitPacket ((1 : Fin 36)) 3 (m_peerPackets_4_pkt)).1
theorem meets_peerPackets_4 :
    let s : State := m_peerPackets_4_s; let s1 : State := m_peerPackets_4_s1; let k : Fin 36 := (1 : Fin 36); let pkt : FabPacket := m_peerPackets_4_pkt; s.power.stopped = false ∧ s.admitPacket k 3 pkt = (s1, true) ∧ pkt.payload.length = 24 ∧ fld pkt.payload 0 1 = 0 ∧ fld pkt.payload 1 1 = (s1.ringLink k).1 ∧ (s1.ringLink k).2 = 1 ∧ fld pkt.payload 2 2 ≤ 1023 ∧ s1.fabric.bars = [] ∧ s1.nextEpoch pkt.part (fld pkt.payload 2 2) ≤ fld pkt.payload 4 4 := by
  refine ⟨?_, Prod.ext rfl ?_, ?_, ?_, ?_, ?_, ?_, ?_, ?_⟩ <;> decide +kernel

def m_peerPackets_5_s : State := rigL [{ id := 0, role := 0, state := .up, width := 8, wlMask := 255 }]
def m_peerPackets_5_pkt : FabPacket := fpk (laid 24 [])
def m_peerPackets_5_s1 : State := ((m_peerPackets_5_s).admitPacket ((0 : Fin 36)) 6 (m_peerPackets_5_pkt)).1
def m_peerPackets_5_d : DigestCheck := { part := (m_peerPackets_5_pkt).part, tensor := fld (m_peerPackets_5_pkt).payload 0 4, shard := fld (m_peerPackets_5_pkt).payload 4 4, step := fld (m_peerPackets_5_pkt).payload 8 8, received := [(((m_peerPackets_5_s1).ringLink ((0 : Fin 36))).1, BitVec.ofNat 64 (fld (m_peerPackets_5_pkt).payload 16 8))], heard := [(((m_peerPackets_5_s1).ringLink ((0 : Fin 36))).1, (m_peerPackets_5_pkt).orig.val, (m_peerPackets_5_pkt).tag.val)] }
def m_peerPackets_5_s2 : State := { (m_peerPackets_5_s1) with cru := { (m_peerPackets_5_s1).cru with digests := [(m_peerPackets_5_d)] } }
theorem meets_peerPackets_5 :
    let s : State := m_peerPackets_5_s; let s1 : State := m_peerPackets_5_s1; let s2 : State := m_peerPackets_5_s2; let k : Fin 36 := (0 : Fin 36); let pkt : FabPacket := m_peerPackets_5_pkt; let d : DigestCheck := m_peerPackets_5_d; s.power.stopped = false ∧ s.admitPacket k 6 pkt = (s1, true) ∧ pkt.payload.length = 24 ∧ s1.cru.digests = [] ∧ d = { part := pkt.part, tensor := fld pkt.payload 0 4, shard := fld pkt.payload 4 4, step := fld pkt.payload 8 8, received := [((s1.ringLink k).1, BitVec.ofNat 64 (fld pkt.payload 16 8))], heard := [((s1.ringLink k).1, pkt.orig.val, pkt.tag.val)] } ∧ s2 = { s1 with cru := { s1.cru with digests := [d] } } ∧ s2.field .colRing pkt.part ((s1.ringLink k).1 - 1) 0 16 ≤ 2 := by
  refine ⟨?_, Prod.ext rfl ?_, ?_, ?_, rfl, rfl, ?_⟩ <;> decide +kernel

def m_matchRows_1_s : State := rigL [{ id := 0, role := 0, state := .up, width := 8, wlMask := 255 }]
def m_matchRows_1_s1 : State := ((m_matchRows_1_s).matchAdmit ((0 : Fin 36)) (pairP) 0).2
theorem meets_matchRows_1 :
    let s : State := m_matchRows_1_s; let s1 : State := m_matchRows_1_s1; let k : Fin 36 := (0 : Fin 36); let pkt : FabPacket := pairP; s.power.stopped = false ∧ s.matchAdmit k pkt 0 = (some s1, s1) ∧ s1.pair.active = false := by
  refine ⟨?_, ?_, ?_⟩ <;> decide +kernel

def m_matchRows_2_s : State := rigM false []
def m_matchRows_2_pkt : FabPacket := { pairP with payload := laid 80 [(0, 1, 1), (4, 4, 1), (8, 2, 16)] }
def m_matchRows_2_s1 : State := ((m_matchRows_2_s).matchAdmit ((0 : Fin 36)) (m_matchRows_2_pkt) 1).2
theorem meets_matchRows_2 :
    let s : State := m_matchRows_2_s; let s1 : State := m_matchRows_2_s1; let k : Fin 36 := (0 : Fin 36); let pkt : FabPacket := m_matchRows_2_pkt; let q : Fin 4096 := (16 : Fin 4096); s.power.stopped = false ∧ s.matchAdmit k pkt 1 = (some s1, s1) ∧ fld pkt.payload 8 2 = q.val ∧ s1.pair.lead = false ∧ s1.pair.lastIndex < fld pkt.payload 4 4 := by
  refine ⟨?_, ?_, ?_, ?_, ?_⟩ <;> decide +kernel

def m_matchRows_3_s : State := rigM true [{ index := 1 }]
def m_matchRows_3_pkt : FabPacket := { pairP with payload := laid 24 [(0, 1, 2), (4, 4, 1)] }
def m_matchRows_3_e : Compare := { index := 1 }
def m_matchRows_3_s1 : State := ((m_matchRows_3_s).matchAdmit ((0 : Fin 36)) (m_matchRows_3_pkt) 2).2
theorem meets_matchRows_3 :
    let s : State := m_matchRows_3_s; let s1 : State := m_matchRows_3_s1; let k : Fin 36 := (0 : Fin 36); let pkt : FabPacket := m_matchRows_3_pkt; let e : Compare := m_matchRows_3_e; let n : Nat := 1; s.power.stopped = false ∧ s.matchAdmit k pkt 2 = (some s1, s1) ∧ s1.compare? (fld pkt.payload 4 4) = some e ∧ e.theirs = none ∧ pkt.payload.length = 8 + 12 * n + 4 ∧ n ≠ tensorsPerPacket := by
  refine ⟨?_, ?_, ?_, ?_, ?_, ?_⟩ <;> decide +kernel

def m_matchRows_4_s : State := rigM true [{ index := 1 }]
def m_matchRows_4_pkt : FabPacket := { pairP with payload := laid 24 [(0, 1, 3), (4, 4, 1)] }
def m_matchRows_4_e : Compare := { index := 1 }
def m_matchRows_4_s1 : State := ((m_matchRows_4_s).matchAdmit ((0 : Fin 36)) (m_matchRows_4_pkt) 3).2
theorem meets_matchRows_4 :
    let s : State := m_matchRows_4_s; let s1 : State := m_matchRows_4_s1; let k : Fin 36 := (0 : Fin 36); let pkt : FabPacket := m_matchRows_4_pkt; let e : Compare := m_matchRows_4_e; s.power.stopped = false ∧ s.matchAdmit k pkt 3 = (some s1, s1) ∧ s1.compare? (fld pkt.payload 4 4) = some e ∧ e.peerEnd = false := by
  refine ⟨?_, ?_, ?_, ?_⟩ <;> decide +kernel

def m_matchRows_5_pkt : FabPacket := { pairP with payload := laid 8 [(0, 1, 4)] }
def m_matchRows_5_s1 : State := ((rigM true []).matchAdmit ((0 : Fin 36)) (m_matchRows_5_pkt) 4).2
theorem meets_matchRows_5 :
    let s : State := rigM true []; let s1 : State := m_matchRows_5_s1; let k : Fin 36 := (0 : Fin 36); let pkt : FabPacket := m_matchRows_5_pkt; s.power.stopped = false ∧ s.matchAdmit k pkt 4 = (some s1, s1) := by
  refine ⟨?_, ?_⟩ <;> decide +kernel

def m_hostLinkRows_1_s : State := { rig with host := { rig.host with links := ({ released := true }, {}) } }
theorem meets_hostLinkRows_1 :
    let s : State := m_hostLinkRows_1_s; let l : Fin 2 := (0 : Fin 2); let rate : Fin 7 := (6 : Fin 7); let width : Fin 17 := (16 : Fin 17); let f : Bool := true; s.power.stopped = false ∧ (s.link l).released = true ∧ (s.link l).perst = false ∧ ((s.link l).state = .down ∨ (s.link l).state = .training) ∧ linkMode rate width f = true := by
  refine ⟨?_, ?_, ?_, ?_, ?_⟩ <;> decide +kernel

def m_hostLinkRows_2_s : State := { rig with host := { rig.host with links := ({ state := .up }, {}) } }
theorem meets_hostLinkRows_2 :
    let s : State := m_hostLinkRows_2_s; let l : Fin 2 := (0 : Fin 2); s.power.stopped = false ∧ (s.link l).state = .up := by
  refine ⟨?_, ?_⟩ <;> decide +kernel

theorem meets_hostLinkRows_3 :
    let s : State := rig; let l : Fin 2 := (0 : Fin 2); s.power.stopped = false :=
  by decide +kernel

def m_hostLinkRows_4_s : State := { rig with host := { rig.host with links := ({ state := .down }, {}) } }
theorem meets_hostLinkRows_4 :
    let s : State := m_hostLinkRows_4_s; let l : Fin 2 := (0 : Fin 2); (s.link l).state = .down ∧ s.host.hlc = [] := by
  refine ⟨?_, ?_⟩ <;> decide +kernel

theorem meets_hostLinkRows_5 :
    let s : State := rig; let l : Fin 2 := (0 : Fin 2); s.power.stopped = false :=
  by decide +kernel

theorem meets_hostLinkRows_6 :
    let s : State := rig; let l : Fin 2 := (0 : Fin 2); s.power.stopped = false :=
  by decide +kernel

theorem meets_hostLinkRows_7 :
    let s : State := rig; let l : Fin 2 := (0 : Fin 2); let n : Fin 33 := (2 : Fin 33); s.power.stopped = false :=
  by decide +kernel

theorem meets_hostLinkRows_8 :
    let s : State := rig; let l : Fin 2 := (0 : Fin 2); let on : Bool := true; let alloc : Nat := 4; s.power.stopped = false :=
  by decide +kernel

def m_hostLinkRows_9_s : State := { rig with host := { rig.host with links := ({ state := .up, atsReqs := [(some 5, 3)] }, {}) } }
theorem meets_hostLinkRows_9 :
    let s : State := m_hostLinkRows_9_s; let l : Fin 2 := (0 : Fin 2); let pasid : Option (BitVec 20) := (some 5 : Option (BitVec 20)); let page : Nat := 3; s.power.stopped = false ∧ (pasid, page) ∈ (s.link l).atsReqs ∧ s.moves.transfers = [] := by
  refine ⟨?_, ?_, ?_⟩ <;> decide +kernel

def m_hostLinkRows_10_s : State := { rig with host := { rig.host with links := ({ state := .up, priAlloc := 1, pageReqs := [(some 5, 3)] }, {}) } }
theorem meets_hostLinkRows_10 :
    let s : State := m_hostLinkRows_10_s; let l : Fin 2 := (0 : Fin 2); let pasid : Option (BitVec 20) := (some 5 : Option (BitVec 20)); let page : Nat := 3; s.power.stopped = false ∧ (pasid, page) ∈ (s.link l).pageReqs.take (s.link l).priRoom ∧ s.moves.transfers = [] := by
  refine ⟨?_, ?_, ?_⟩ <;> decide +kernel

theorem meets_hostLinkRows_11 :
    let s : State := rig; let l : Fin 2 := (0 : Fin 2); let pasid : Option (BitVec 20) := (some 5 : Option (BitVec 20)); let page : Nat := 3; s.power.stopped = false ∧ s.moves.transfers = [] := by
  refine ⟨?_, ?_⟩ <;> decide +kernel

def m_hostMemoryRows_1_s : State := ({ rigO [{ obj 3 2097152 1 0 [] with size := 2 ^ 28 }] with host := rig.host } : State).setField .hstWinCfg 0 0 0 1 1 |>.setField .hstWinCfg 0 0 8 8 1 |>.setField .hstWinCfg 0 0 16 32 3
def m_hostMemoryRows_1_o : Obj := { obj 3 2097152 1 0 [] with size := 2 ^ 28 }
theorem meets_hostMemoryRows_1 :
    let s : State := m_hostMemoryRows_1_s; let l : Fin 2 := (0 : Fin 2); let o : Obj := m_hostMemoryRows_1_o; s.power.stopped = false ∧ s.field .hstWinCfg 0 0 0 1 = 1 ∧ s.window = some o ∧ o.policy = 2 ∧ o.prot = false ∧ o.size % 2 ^ 28 = 0 ∧ o.size ≤ 2 ^ 39 := by
  refine ⟨?_, ?_, ?_, ?_, ?_, ?_, ?_⟩ <;> decide +kernel

def m_hostMemoryRows_2_s : State := (({ rigO [obj 3 2097152 1 0 []] with host := { rig.host with links := ({ state := .up, committed := true, cxlMem := true }, {}) } } : State).setField .hstWinCfg 0 0 0 1 1 |>.setField .hstWinCfg 0 0 8 8 1 |>.setField .hstWinCfg 0 0 16 32 3)
def m_hostMemoryRows_2_o : Obj := obj 3 2097152 1 0 []
theorem meets_hostMemoryRows_2 :
    let s : State := m_hostMemoryRows_2_s; let l : Fin 2 := (0 : Fin 2); let o : Obj := m_hostMemoryRows_2_o; let off : Nat := 64; let len : Nat := 0; let data : List Byte := ([1] : List Byte); s.power.stopped = false ∧ (s.link l).committed = true ∧ (s.link l).cxlMem = true ∧ s.window = some o ∧ off + data.length ≤ o.size := by
  refine ⟨?_, ?_, ?_, ?_, ?_⟩ <;> decide +kernel

def m_hostMemoryRows_3_s : State := (({ rigO [obj 3 2097152 1 0 []] with host := { rig.host with links := ({ state := .up, committed := true, cxlMem := true }, {}) } } : State).setField .hstWinCfg 0 0 0 1 1 |>.setField .hstWinCfg 0 0 8 8 1 |>.setField .hstWinCfg 0 0 16 32 3)
def m_hostMemoryRows_3_o : Obj := obj 3 2097152 1 0 []
def m_hostMemoryRows_3_s1 : State := ((lineRange (64) (4)).foldl (fun st i => st.track ((0 : Fin 2)) i) (m_hostMemoryRows_3_s)).vaTouch (m_hostMemoryRows_3_o).ctx ((m_hostMemoryRows_3_o).base + (64)) (4)
def m_hostMemoryRows_3_bs : List Byte := (Option.get ((m_hostMemoryRows_3_s1).vaRead (m_hostMemoryRows_3_o).ctx ((m_hostMemoryRows_3_o).base + (64)) (4)) (by decide +kernel)).1
def m_hostMemoryRows_3_bad : Bool := (Option.get ((m_hostMemoryRows_3_s1).vaRead (m_hostMemoryRows_3_o).ctx ((m_hostMemoryRows_3_o).base + (64)) (4)) (by decide +kernel)).2
theorem meets_hostMemoryRows_3 :
    let s : State := m_hostMemoryRows_3_s; let s1 : State := m_hostMemoryRows_3_s1; let l : Fin 2 := (0 : Fin 2); let o : Obj := m_hostMemoryRows_3_o; let off : Nat := 64; let len : Nat := 4; let bs : List Byte := m_hostMemoryRows_3_bs; let bad : Bool := m_hostMemoryRows_3_bad; s.power.stopped = false ∧ (s.link l).committed = true ∧ (s.link l).cxlMem = true ∧ s.window = some o ∧ off + len ≤ o.size ∧ s1 = ((lineRange off len).foldl (fun st i => st.track l i) s).vaTouch o.ctx (o.base + off) len ∧ s1.vaRead o.ctx (o.base + off) len = some (bs, bad) := by
  refine ⟨?_, ?_, ?_, ?_, ?_, rfl, getAll ?_⟩ <;> decide +kernel

def m_hostMemoryRows_4_s : State := { rig with host := { rig.host with links := ({ state := .up, biPending := [(2, true)] }, {}) } }
theorem meets_hostMemoryRows_4 :
    let s : State := m_hostMemoryRows_4_s; let l : Fin 2 := (0 : Fin 2); let line : Nat := 2; s.power.stopped = false ∧ (s.link l).biPending.find? (fun e => e.1 == line) = some (line, true) := by
  refine ⟨?_, ?_⟩ <;> decide +kernel

def m_hostMemoryRows_5_s : State := { rig with host := { rig.host with hlc := [{ die := 0, pasid := some 5, line := 2, modified := true, uid := 7 }] } }
def m_hostMemoryRows_5_h : HlcLine := { die := 0, pasid := some 5, line := 2, modified := true, uid := 7 }
theorem meets_hostMemoryRows_5 :
    let s : State := m_hostMemoryRows_5_s; let d : Fin 2 := (0 : Fin 2); let pasid : Option (BitVec 20) := (some 5 : Option (BitVec 20)); let line : Nat := 2; let h : HlcLine := m_hostMemoryRows_5_h; s.power.stopped = false ∧ s.host.hlc.find? (fun h => h.die == d.val && h.pasid == pasid && h.line == line && h.modified) = some h := by
  refine ⟨?_, ?_⟩ <;> decide +kernel

def m_riserRows_2_s : State := { rig with cores := { rig.cores with cores := [{ id := 0, arrays := [{ retRow := 1, nextRow := 1, retCol := 2 }, {}, {}, {}] }] } }
def m_riserRows_2_k : Sys2Proof.Machine.Array := { retRow := 1, nextRow := 1, retCol := 2 }
theorem meets_riserRows_2 :
    let s : State := m_riserRows_2_s; let c : Fin 40 := (0 : Fin 40); let a : Fin 4 := (0 : Fin 4); let k : Sys2Proof.Machine.Array := m_riserRows_2_k; s.power.stopped = false ∧ (s.core c).run = none ∧ (s.core c).arrays[a.val]? = some k ∧ k.retRow = k.nextRow ∧ k.retCol ≠ k.nextCol ∧ (s.unit (arrUnit 3 c a 64)).state = .spare := by
  refine ⟨?_, ?_, ?_, ?_, ?_, ?_⟩ <;> decide +kernel

def m_riserRows_3_s : State := { rig with riser := { rig.riser with units := [{ id := 0x03000001, state := .retired, gen := 2, backs := 0, lstate := .active, lgen := 1 }] } }
def m_riserRows_3_s2 : State := { (m_riserRows_3_s).modUnit ((0x03000001 : BitVec 32)).toNat (fun r => { r with lstate := (.retired), lgen := ((2 : BitVec 32)).toNat }) with riser := { ((m_riserRows_3_s).modUnit ((0x03000001 : BitVec 32)).toNat (fun r => { r with lstate := (.retired), lgen := ((2 : BitVec 32)).toNat })).riser with viewWrites := ((m_riserRows_3_s).modUnit ((0x03000001 : BitVec 32)).toNat (fun r => { r with lstate := (.retired), lgen := ((2 : BitVec 32)).toNat })).riser.viewWrites.filter (fun w => !(w.1 == ((0x03000001 : BitVec 32)).toNat && laterGen w.2 ((2 : BitVec 32)).toNat == ((2 : BitVec 32)).toNat)) } }
theorem meets_riserRows_3 :
    let s : State := m_riserRows_3_s; let s2 : State := m_riserRows_3_s2; let u : BitVec 32 := (0x03000001 : BitVec 32); let st : UnitState := .retired; let g : BitVec 32 := (2 : BitVec 32); s2 = { s.modUnit u.toNat (fun r => { r with lstate := st, lgen := g.toNat }) with riser := { (s.modUnit u.toNat (fun r => { r with lstate := st, lgen := g.toNat })).riser with viewWrites := (s.modUnit u.toNat (fun r => { r with lstate := st, lgen := g.toNat })).riser.viewWrites.filter (fun w => !(w.1 == u.toNat && laterGen w.2 g.toNat == g.toNat)) } } ∧ (s.unit u.toNat).settled = false ∧ (s2.unit u.toNat).settled = true := by
  refine ⟨rfl, ?_, ?_⟩ <;> decide +kernel

def m_riserRows_4_s : State := { rig with riser := { rig.riser with units := [{ id := 0x03000001, state := .retired, gen := 2, backs := 0, lstate := .active, lgen := 1 }] } }
theorem meets_riserRows_4 :
    let s : State := m_riserRows_4_s; let u : BitVec 32 := (0x03000001 : BitVec 32); nextGen (s.unit u.toNat).lgen = (s.unit u.toNat).gen :=
  by decide +kernel

def m_riserRows_5_s : State := { rig with riser := { rig.riser with units := [{ id := 0x03000001, state := .retired, gen := 2, backs := 0, lstate := .active, lgen := 1 }] } }
theorem meets_riserRows_5 :
    let s : State := m_riserRows_5_s; let ok : Bool := true; (∀ r ∈ s.riser.units, r.state ≠ .quarantined) :=
  by decide +kernel

theorem meets_riserRows_6 :
    let s : State := rig; let u : BitVec 32 := (0x03000040 : BitVec 32); (s.unit u.toNat).state = .spare :=
  by decide +kernel

def m_riserRows_7_s : State := rig.setField .fltScrubCfg 0 0 32 1 1
theorem meets_riserRows_7 :
    let s : State := m_riserRows_7_s; let ctl : Fin 16 := (0 : Fin 16); let row : BitVec 64 := (5 : BitVec 64); s.power.stopped = false ∧ s.field .fltScrubCfg 0 0 32 1 = 1 := by
  refine ⟨?_, ?_⟩ <;> decide +kernel

def m_powerRows_1_s1 : State := (rig).setField .glLaser ((0 : Fin 14)) 0 0 16 ((0x7FFF : BitVec 16)).toNat
theorem meets_powerRows_1 :
    let s : State := rig; let s1 : State := m_powerRows_1_s1; let i : Fin 14 := (0 : Fin 14); let p : BitVec 16 := (0x7FFF : BitVec 16); s.power.stopped = false ∧ s1 = s.setField .glLaser i 0 0 16 p.toNat ∧ sgn 16 (s.field .glLaserCfg 0 0 0 16) ≤ sgn 16 p.toNat ∧ sgn 16 (s.field .glLaserCfg 0 0 16 16) ≤ sgn 16 p.toNat := by
  refine ⟨?_, rfl, ?_, ?_⟩ <;> decide +kernel

def m_powerRows_2_ts : List Int := [500, 510, 520]
def m_powerRows_2_s1 : State := ((rig).vote ((0 : Fin 8)) (((m_powerRows_2_ts).zipIdx.map (fun p => (p.2, p.1))).filter (fun r => ((rig).unit (sensorUnit ((0 : Fin 8)) r.1)).state == .active))).1
def m_powerRows_2_t : Int := Option.get ((rig).vote ((0 : Fin 8)) (((m_powerRows_2_ts).zipIdx.map (fun p => (p.2, p.1))).filter (fun r => ((rig).unit (sensorUnit ((0 : Fin 8)) r.1)).state == .active))).2 (by decide +kernel)
theorem meets_powerRows_2 :
    let s : State := rig; let s1 : State := m_powerRows_2_s1; let k : Fin 8 := (0 : Fin 8); let ts : List Int := m_powerRows_2_ts; let t : Int := m_powerRows_2_t; ts ≠ [] ∧ (∀ v ∈ ts, v < 1150) ∧ s.vote k ((ts.zipIdx.map (fun p => (p.2, p.1))).filter (fun r => (s.unit (sensorUnit k r.1)).state == .active)) = (s1, some t) := by
  refine ⟨?_, ?_, Prod.ext rfl (getAll ?_)⟩ <;> decide +kernel

def m_powerRows_3_s : State := { rig with power := { rig.power with clocks := [{ cur := 1500, logicHot := true, logicT := 1060 }] } }
theorem meets_powerRows_3 :
    let s : State := m_powerRows_3_s; let cl : Fin 8 := (0 : Fin 8); s.power.stopped = false ∧ (s.clock cl).logicHot = true ∧ 1050 ≤ (s.clock cl).logicT := by
  refine ⟨?_, ?_, ?_⟩ <;> decide +kernel

theorem meets_powerRows_4 :
    let s : State := rig; let b : Bool := true; (b = true ∨ s.boot.inReset = false) ∧ s.power.overLimit = false := by
  refine ⟨?_, ?_⟩ <;> decide +kernel

def m_powerRows_6_s : State := { rig with power := { rig.power with overLimit := true } }
theorem meets_powerRows_6 :
    let s : State := m_powerRows_6_s; s.power.overLimit = true ∧ s.power.overAt ≠ some s.now := by
  refine ⟨?_, ?_⟩ <;> decide +kernel

def m_powerRows_7_s : State := rig.setField .pwrCfg 0 0 0 11 1000
def m_powerRows_7_s1 : State := { (m_powerRows_7_s) with power := { (m_powerRows_7_s).power with watts := (990) } }
theorem meets_powerRows_7 :
    let s : State := m_powerRows_7_s; let s1 : State := m_powerRows_7_s1; let w : Nat := 990; s.power.stopped = false ∧ w ≤ s.field .pwrCfg 0 0 0 11 ∧ s.field .pwrCfg 0 0 0 11 * 98 ≤ w * 100 ∧ s1 = { s with power := { s.power with watts := w } } := by
  refine ⟨?_, ?_, ?_, rfl⟩ <;> decide +kernel

def m_powerRows_8_s : State := rig.setField .pwrCfg 0 0 16 16 5
theorem meets_powerRows_8 :
    let s : State := m_powerRows_8_s; let p : Fin 32 := (0 : Fin 32); let k : Part := part0; s.power.stopped = false ∧ s.part? p = some k ∧ s.field .pwrCfg 0 0 16 16 ≠ 0 ∧ s.partBusy p = false := by
  refine ⟨?_, ?_, ?_, ?_⟩ <;> decide +kernel

def m_powerRows_9_s : State := { rig with power := { rig.power with clocks := [{ starting := true }] } }
theorem meets_powerRows_9 :
    let s : State := m_powerRows_9_s; let cl : Fin 8 := (0 : Fin 8); s.power.stopped = false ∧ (s.clock cl).starting = true := by
  refine ⟨?_, ?_⟩ <;> decide +kernel

def m_memoryTimers_1_s : State := rig.setField .memRunnerCfg 0 0 52 1 1
def m_memoryTimers_1_s1 : State := ({ (m_memoryTimers_1_s) with memory := { (m_memoryTimers_1_s).memory with intervals := (m_memoryTimers_1_s).memory.intervals + 1 } } : State).settleMigrations
theorem meets_memoryTimers_1 :
    let s : State := m_memoryTimers_1_s; let s1 : State := m_memoryTimers_1_s1; s.power.stopped = false ∧ s1 = ({ s with memory := { s.memory with intervals := s.memory.intervals + 1 } } : State).settleMigrations ∧ s1.field .memRunnerCfg 0 0 52 1 = 1 := by
  refine ⟨?_, rfl, ?_⟩ <;> decide +kernel

theorem meets_memoryTimers_2 :
    let s : State := rig; s.power.stopped = false :=
  by decide +kernel

theorem meets_registerRows_1 :
    let s : State := rig; let fn : Fin 33 := (0 : Fin 33); let link : Fin 2 := (0 : Fin 2); let v : BitVec 64 := (0x26 : BitVec 64); s.power.stopped = false ∧ s.fnOn fn = true ∧ s.field .cmdAdmqCfg 0 0 5 1 fn = 0 ∧ 6 ≤ bits v.toNat 4 0 ∧ bits v.toNat 4 0 ≤ 16 ∧ bit v.toNat 5 = true ∧ s.field .prtEvtCfg 0 0 5 1 fn = 0 := by
  refine ⟨?_, ?_, ?_, ?_, ?_, ?_, ?_⟩ <;> decide +kernel

theorem meets_registerRows_2 :
    let s : State := rig; let fn : Fin 33 := (0 : Fin 33); let j : Fin 16 := (1 : Fin 16); let v : BitVec 64 := (1 : BitVec 64); s.power.stopped = false ∧ (fn.val = 0 ∨ ∃ k x, s.campion? j = some k ∧ s.ctx? k.ctx = some x ∧ x.part + 1 = fn.val) := by
  refine ⟨?_, Or.inl ?_⟩ <;> decide +kernel

theorem meets_registerRows_3 :
    let s : State := rig; let p : Fin 32 := (0 : Fin 32); let x : Fin 3 := (0 : Fin 3); let v : BitVec 64 := (2 : BitVec 64); s.power.stopped = false ∧ (bits v.toNat 15 0 = 0 ∨ bits v.toNat 31 16 < bits v.toNat 15 0) := by
  refine ⟨?_, ?_⟩ <;> decide +kernel

theorem meets_registerRows_4 :
    let s : State := rig; let n : Fin 16 := (3 : Fin 16); let v : BitVec 64 := (1 : BitVec 64); s.power.stopped = false :=
  by decide +kernel

theorem meets_registerRows_5 :
    let s : State := rig; let k : Fin 8 := (0 : Fin 8); let v : BitVec 64 := (0x4B00320 : BitVec 64); s.power.stopped = false ∧ bits v.toNat 10 0 % 25 = 0 ∧ bits v.toNat 26 16 % 25 = 0 ∧ 400 ≤ bits v.toNat 10 0 ∧ bits v.toNat 26 16 ≤ 1800 ∧ bits v.toNat 10 0 ≤ bits v.toNat 26 16 := by
  refine ⟨?_, ?_, ?_, ?_, ?_, ?_⟩ <;> decide +kernel

def m_registerRows_6_f : RField := ⟨32, 1, .rw, 1⟩
theorem meets_registerRows_6 :
    let s : State := rig; let fn : Fin 33 := (0 : Fin 33); let off : BitVec 26 := (0x3800000 : BitVec 26); let v : BitVec 64 := (1 : BitVec 64); let ev : BitVec 64 := (0 : BitVec 64); let r : Reg := .fltScrubCfg; let i : Nat := 0; let j : Nat := 0; let f : RField := m_registerRows_6_f; s.power.stopped = false ∧ Reg.at off.toNat = some (r, i, j) ∧ s.seesReg fn r i = true ∧ r ∉ [.cmdAdmqDb, .cmdQDb, .cmdAdmqStat, .cmdQStat, .cmdAdmqCfg, .detCtx, .glVcCfg, .colRing, .cruCampionHead, .pwrGpioCfg, .clkCluster] ∧ f ∈ r.spec.fields ∧ s.frozen r (r.home fn) f = false := by
  refine ⟨?_, ?_, ?_, ?_, ?_, ?_⟩ <;> decide +kernel

def m_registerRows_6_w1c_f : RField := ⟨4, 1, .w1c, 0⟩
theorem meets_registerRows_6_w1c :
    let s : State := rig; let fn : Fin 33 := (0 : Fin 33); let off : BitVec 26 := (0x1400000 : BitVec 26); let v : BitVec 64 := (16 : BitVec 64); let ev : BitVec 64 := (0 : BitVec 64); let r : Reg := .coreStat; let i : Nat := 0; let j : Nat := 0; let f : RField := m_registerRows_6_w1c_f; s.power.stopped = false ∧ Reg.at off.toNat = some (r, i, j) ∧ s.seesReg fn r i = true ∧ r ∉ [.cmdAdmqDb, .cmdQDb, .cmdAdmqStat, .cmdQStat, .cmdAdmqCfg, .detCtx, .glVcCfg, .colRing, .cruCampionHead, .pwrGpioCfg, .clkCluster] ∧ f ∈ r.spec.fields ∧ s.frozen r (r.home fn) f = false := by
  refine ⟨?_, ?_, ?_, ?_, ?_, ?_⟩ <;> decide +kernel

def m_registerRows_7_r : Reg := .fltPoisonCnt
theorem meets_registerRows_7 :
    let s : State := rig; let fn : Fin 33 := (0 : Fin 33); let off : BitVec 26 := (0x3800010 : BitVec 26); let ev : BitVec 64 := (0 : BitVec 64); let r : Reg := m_registerRows_7_r; let i : Nat := 0; let j : Nat := 0; s.power.stopped = false ∧ Reg.at off.toNat = some (r, i, j) ∧ s.seesReg fn r i = true := by
  refine ⟨?_, ?_, ?_⟩ <;> decide +kernel

theorem meets_deadlineRows_1 :
    let s : State := rig; let j : Fin 16 := (2 : Fin 16); s.power.stopped = false :=
  by decide +kernel

def m_deadlineRows_2_s : State := { rig with cru := { rig.cru with jobs := [{ uid := 7, ctx := 1, part := 0, gid := 0, step := 0, first := 0, next := 0, last := 1, frames := [(2, [])], stalled := true }], streams := [camp] } }
def m_deadlineRows_2_q : CruJob := { uid := 7, ctx := 1, part := 0, gid := 0, step := 0, first := 0, next := 0, last := 1, frames := [(2, [])], stalled := true }
theorem meets_deadlineRows_2 :
    let s : State := m_deadlineRows_2_s; let j : Nat := 2; let q : CruJob := m_deadlineRows_2_q; let k : Campion := camp; let x : Ctx := ctx1; q ∈ s.cru.jobs ∧ q.stalled = true ∧ (q.frames.head?.map (·.1)) = some j ∧ s.campion? j = some k ∧ s.ctx? k.ctx = some x := by
  refine ⟨?_, ?_, ?_, ?_, ?_⟩ <;> decide +kernel

theorem meets_deadlineRows_3 :
    let s : State := rig; let h : Fin 18 := (3 : Fin 18); s.power.stopped = false :=
  by decide +kernel

def m_deadlineRows_4_s : State := { rigBusy with fw := { rig.fw with rollUid := some 7, stat := 2, failures := 1 } }
def m_deadlineRows_4_c : Running := { nopRun 7 with work := .jobs }
theorem meets_deadlineRows_4 :
    let s : State := m_deadlineRows_4_s; let h : Nat := 3; let u : Nat := 7; let c : Running := m_deadlineRows_4_c; s.fw.rollUid = some u ∧ s.cmd? u = some c ∧ s.fw.stat = 2 ∧ s.fw.rollNext ≤ h ∧ (s.unit (hccUnit h)).state = .active ∧ s.fw.failures ≠ 0 := by
  refine ⟨?_, ?_, ?_, ?_, ?_, ?_⟩ <;> decide +kernel

def m_pinRows_2_s : State := rig.setField .pwrGpioCfg 4 0 0 3 3
theorem meets_pinRows_2 :
    let s : State := m_pinRows_2_s; let k : Fin 8 := (0 : Fin 8); s.pinFunc (4 + k) = 3 ∧ (s.pin (4 + k)).parking = false := by
  refine ⟨?_, ?_⟩ <;> decide +kernel

theorem meets_pinRows_3 :
    let s : State := rig; let k : Fin 8 := (0 : Fin 8); s.field .pwrGpioCfg (4 + k) 0 16 16 ≤ (s.pin (4 + k)).edges :=
  by decide +kernel

def m_pinRows_4_s : State := (({ rig with pair := { active := true, lead := true } } : State).setField .pwrGpioCfg 2 0 0 3 2)
theorem meets_pinRows_4 :
    let s : State := m_pinRows_4_s; s.mpOn = true ∧ s.pair.lead = true := by
  refine ⟨?_, ?_⟩ <;> decide +kernel

def m_pinRows_5_s : State := (({ rig with pair := { active := true, lead := true } } : State).setField .pwrGpioCfg 2 0 0 3 2)
theorem meets_pinRows_5 :
    let s : State := m_pinRows_5_s; let n : Nat := 1; s.mpOn = true :=
  by decide +kernel

def m_securityRows_1_s : State := { rig with sec := { rig.sec with sessions := [0] } }
def m_securityRows_1_n : Nat := Option.get (firstFree 4 (m_securityRows_1_s).sec.sessions) (by decide +kernel)
theorem meets_securityRows_1 :
    let s : State := m_securityRows_1_s; let n : Nat := m_securityRows_1_n; firstFree 4 s.sec.sessions = some n := by
  refine getAll ?_ <;> decide +kernel

theorem meets_securityRows_2 :
    let s : State := rig; let i : Fin 256 := (5 : Fin 256); 1 ≤ i.val ∧ i.val ≤ 5 := by
  refine ⟨?_, ?_⟩ <;> decide +kernel

def m_securityRows_3_s : State := { rig with sec := { rig.sec with sessions := [0] } }
theorem meets_securityRows_3 :
    let s : State := m_securityRows_3_s; let n : Fin 4 := (0 : Fin 4); let slot : Fin 64 := (3 : Fin 64); let key : List Byte := ([1] : List Byte); n.val ∈ s.sec.sessions ∧ slot.val ≠ 0 ∧ (∀ p ∈ s.tenants.parts, p.carve.coreMask ≠ 0 → p.carve.linkKey ≠ slot.val) := by
  refine ⟨?_, ?_, ?_⟩ <;> decide +kernel

theorem meets_securityRows_4 :
    let s : State := rig; let image : List Byte := ([1] : List Byte); s.fw.rollUid = none ∧ s.boot.fail = 0 := by
  refine ⟨?_, ?_⟩ <;> decide +kernel

theorem meets_resetRows_1 :
    let s : State := State.reset; let x : Fin 8 := (1 : Fin 8); s.pins.aoGood = false :=
  by decide +kernel

def m_resetRows_3_s : State := { rig with pins := { rig.pins with aoGood := true }, boot := { rig.boot with inReset := true } }
def m_resetRows_3_r : StartupResults := { romCoreOk := true, slotOk := (true, true), slotVersion := 1, calOk := (true, true), failedUnits := [], t1Ok := true, shortStack := false, bridgeOk := true, pllOk := true, ledgerHeaderOk := true, ledgerOwn := true, ledgerGood := 0, anyLight := false }
theorem meets_resetRows_3 :
    let s : State := m_resetRows_3_s; let r : StartupResults := m_resetRows_3_r; s.pins.aoGood = true ∧ s.pins.resetN = true ∧ s.pins.thermtrip = false ∧ s.boot.inReset = true ∧ s.boot.fail = 0 := by
  refine ⟨?_, ?_, ?_, ?_, ?_⟩ <;> decide +kernel

def m_resetRows_4_s : State := { rig with pins := { rig.pins with aoGood := true } }
theorem meets_resetRows_4 :
    let s : State := m_resetRows_4_s; s.pins.aoGood = true :=
  by decide +kernel

def m_resetRows_6_s : State := { { rig with pins := { rig.pins with aoGood := true } } with boot := { rig.boot with inReset := false } }
theorem meets_resetRows_6 :
    let s : State := m_resetRows_6_s; s.pins.aoGood = true ∧ s.boot.inReset = false := by
  refine ⟨?_, ?_⟩ <;> decide +kernel

theorem meets_resetRows_8 :
    let s : State := rig; s.power.stopped = false :=
  by decide +kernel

def m_resetRows_9_s : State := { rig with host := { rig.host with links := ({ state := .up }, {}) } }
theorem meets_resetRows_9 :
    let s : State := m_resetRows_9_s; let l : Fin 2 := (0 : Fin 2); s.power.stopped = false ∧ (s.link l).state = .up := by
  refine ⟨?_, ?_⟩ <;> decide +kernel

/-! ### The block's statements and the frames -/

/-- The state a command answers. -/
def nextOf (c : Instr) (s : State) : State := match exec c s with
  | .next t => t
  | _ => s

/-- Whether a command answers a next state. -/
def goes (c : Instr) (s : State) : Bool := match exec c s with
  | .next _ => true
  | _ => false

theorem next_eq {c : Instr} {s : State} (h : goes c s = true) : exec c s = .next (nextOf c s) := by
  unfold goes at h; unfold nextOf
  cases e : exec c s with
  | next t => rfl
  | fault f => rw [e] at h; cases h
  | refused r => rw [e] at h; cases h

def stepOf (s : State) : State := match step s with
  | .next t => t
  | _ => s

theorem stepOf_eq {s : State} (h : (match step s with | .next _ => true | _ => false) = true) : step s = .next (stepOf s) := by
  unfold stepOf
  cases e : step s with
  | next t => rfl
  | fault f => rw [e] at h; cases h
  | refused r => rw [e] at h; cases h

def rigQ (c : Instr) : State := { rig with pending := [c] }
def bell (v : BitVec 32) : Instr := .doorbellWrite 0 (.ctx 16) v
theorem meets_stepRunsFront : (rigQ .coldReset).pending = .coldReset :: [] := by decide +kernel
theorem meets_idleTick : rig.memOk = true ∧ rig.pending = [] ∧ rig.calmTick = true := by decide +kernel
theorem meets_idleTick_due : ({ rig with due := [.park 3, .command 7] } : State).power.stopped = false ∧ ({ rig with due := [.park 3, .command 7] } : State).due = [.park 3, .command 7] := by decide +kernel
theorem meets_queueKept : exec (bell 1) rig = .next (nextOf (bell 1) rig) := next_eq (by decide +kernel)
theorem meets_faultsAreIllFormed : exec (.nop (.ctx 16) (pk 0x131 0 [])) rig = .fault .illFormed ∧ Instr.wf (.nop (.ctx 16) (pk 0x130 0 [])) = true ∧
    (Instr.nop, 0x0130, false, false) ∈ opcodeRows [] := ⟨rfl, by decide +kernel, by simp [opcodeRows]⟩
theorem meets_memoryCanonical : (rigQ (bell 1)).memOk = true ∧ step (rigQ (bell 1)) = .next (stepOf (rigQ (bell 1))) := ⟨by decide +kernel, stepOf_eq (by decide +kernel)⟩
theorem meets_wellFormedRun : (rigQ (bell 1)).pendingOk = true := by decide +kernel
def rigS : State := { rig with power := { rig.power with stopped := true } }
theorem meets_stoppedClocks : rigS.memOk = true ∧ rigS.power.stopped = true ∧ alwaysOn (bell 1) = false ∧ exec (bell 1) rigS = .next (nextOf (bell 1) rigS) :=
  ⟨by decide +kernel, by decide +kernel, by decide +kernel, next_eq (by decide +kernel)⟩
theorem meets_accessWidths : rig.power.stopped = false := by decide +kernel
def site : Fault1 := { key := 0x02000000, table := 0, unit := 0x02000000, row := 0, col := 0 }
def rigB (cls n : Nat) : State := { rig with riser := { rig.riser with buckets := [{ cls := cls, key := 0x02000000, table := 0, stamps := List.replicate n { at_ := 0, win := 100, row := 0, col := 0 } }] } }
def armed (cls n : Nat) : Bool :=
  let s := rigB cls n
  let keep := bits (s.reg .fltBktCfg cls 0) 3 0
  decide (bits (s.reg .fltBktCfg cls 0) 51 8 ≠ 0) && bit (s.reg .fltBktCfg cls 0) 52 && decide ((s.unit site.unit).state = .active) &&
    (s.riser.buckets.find? (fun b => b.cls == cls && b.key == site.key && b.table == site.table)).any (fun b => decide (b.stamps.length ≤ keep))
theorem meets_bucketTrips : armed 6 0 = true ∧ armed 6 1 = true ∧ armed 7 0 = true ∧
    ∀ u ∈ [coreUnit (bits site.key 23 16), arrUnit 2 (bits site.key 23 16) (bits site.key 9 8) site.row, arrUnit 3 (bits site.key 23 16) (bits site.key 9 8) site.col],
      ((rigB 7 0).unit u).state = .active := by decide +kernel
theorem meets_doorbellRule : rig.memOk = true ∧ rig.power.stopped = false ∧ rig.seesQueue 0 (.ctx 16) = true ∧ rig.queue? (.ctx 16) = some que ∧ que.state ≠ .absent ∧
    ((0 : BitVec 32).toNat + 2 ^ 32 - que.tail) % 2 ^ 32 = 0 ∧ 2 ^ 31 ≤ ((0xFFFFFFFF : BitVec 32).toNat + 2 ^ 32 - que.tail) % 2 ^ 32 ∧
    2 ^ que.sizeLog2 < ((1000 : BitVec 32).toNat + 2 ^ 32 - que.head) % 2 ^ 32 ∧ ((1 : BitVec 32).toNat + 2 ^ 32 - que.head) % 2 ^ 32 ≤ 2 ^ que.sizeLog2 := by decide +kernel
def rigQ2 : State := { rig with pending := [bell 1, bell 2] }
theorem meets_doorbellRule_two : rigQ2.pending = bell 1 :: bell 2 :: [] ∧ step rigQ2 = .next (stepOf rigQ2) := ⟨by decide +kernel, stepOf_eq (by decide +kernel)⟩
def stopQ : Queue := { que with stopOnError := true, running := [nopRun 7] }
theorem meets_stopOnError : let s : State := { rig with queues := [stopQ] }; let r : Reply := errFormat 8
    s.queue? (nopRun 7).queue = some stopQ ∧ stopQ.stopOnError = true ∧ stopQ.state = .running ∧ 0x10 ≤ ((nopRun 7).outcome r).status ∧ ((nopRun 7).outcome r).status ≠ 0x40 := by
  decide +kernel
theorem meets_lateReplies : rig.power.stopped = false ∧ rig.memory.far = [] ∧ rig.memory.unresolved = [] := by decide +kernel
theorem meets_agreedWidth : let s := rigL [{ id := 0, role := 0, state := .training, heard := true, peerWidth := 8, peerMask := 0 }]; let t : State := { s with pins := { s.pins with glPresent := true } }
    t.power.stopped = false ∧ t.pins.glPresent = true ∧ (t.port 0).heard = true ∧ (t.port 0).state = .training ∧ (t.port 0).proposal = none ∧ (agreed (t.ownWidth 0) (t.port 0) (t.wlUsable 0)).1 = 0 := by
  decide +kernel
def winO : Obj := obj 3 2097152 1 0 []
def rigW : State := (({ rigO [winO] with host := { rig.host with links := ({ state := .up, committed := true, cxlMem := true }, {}) } } : State).setField .hstWinCfg 0 0 0 1 1 |>.setField .hstWinCfg 0 0 8 8 1
  |>.setField .hstWinCfg 0 0 16 32 3)
theorem meets_windowAccesses : rigW.power.stopped = false ∧ (rigW.link 0).committed = true ∧ (rigW.link 0).cxlMem = true ∧ rigW.window = some winO ∧
    (2097151 + [(1 : Byte)].length ≤ winO.size) ∧ winO.size < 2097152 + [(1 : Byte)].length := by decide +kernel
theorem meets_windowAccesses_read : let s1 := ((lineRange 64 4).foldl (fun st i => st.track 0 i) rigW).vaTouch winO.ctx (winO.base + 64) 4
    (s1.vaRead winO.ctx (winO.base + 64) 4).isSome = true := by decide +kernel
theorem meets_windowStoreFrame : rigW.memOk = true ∧ ∀ i < [(1 : Byte), 2].length, rigW.objAt winO.ctx (winO.base + 64 + i) = some winO := by decide +kernel
theorem meets_tableRows : tbl0.base % pageBytes = 0 ∧ tbl0.stride ≤ pageBytes ∧ 0 < tbl0.rows := by decide +kernel
theorem meets_strapsAndTick : State.reset.pins.aoGood = false := by decide +kernel
theorem meets_pinFrame : rig.memOk = true ∧ ∀ c ∈ [Instr.mpSyncPulse, .mpSyncLockTimeout, .tapOperation true false true, .gpioCfgWrite 0 3 1, .clkClusterWrite 0 0 1], exec c rig = .next (nextOf c rig) :=
  ⟨by decide +kernel, fun c h => next_eq (by revert c; decide +kernel)⟩
theorem meets_linkFrame : rig.memOk = true ∧ ∀ c ∈ [Instr.nakResendTimer 0, .completionCacheExpiry 0 1, .retrain 0 none, .codewordLockLoss 0 1, .width 0 none false 1], exec c rig = .next (nextOf c rig) :=
  ⟨by decide +kernel, fun c h => next_eq (by revert c; decide +kernel)⟩
set_option maxRecDepth 1000000 in
theorem meets_linkFrame_idle : flitOk false (flit []) = true ∧ exec (.idleFlit 0 1 (some 0) (flit [])) rig = .next (nextOf (.idleFlit 0 1 (some 0) (flit [])) rig) :=
  ⟨by decide +kernel, next_eq (by decide +kernel)⟩
theorem meets_sequencerFrame : let s := rigP [sop 2 1 3, sop 3 1 0] run0 [] []
    s.memOk = true ∧ exec (.loopBegin 0) s = .next (nextOf (.loopBegin 0) s) ∧ ∀ r, ((nextOf (.loopBegin 0) s).core 0).run = some r → r.deadlock = false :=
  ⟨by decide +kernel, next_eq (by decide +kernel), ofAll (by decide +kernel)⟩
theorem meets_managementFrame : rig.memOk = true ∧ ∀ c ∈ [Instr.spdmRequest .keyExchange, .keySlotSet 0 3 none, .riserRewriteTimer 5, .refreshWindow, .hostLinkRecovery 0, .perstRelease 0],
    exec c rig = .next (nextOf c rig) :=
  ⟨by decide +kernel, fun c h => next_eq (by revert c; decide +kernel)⟩
theorem meets_readFrame : rig.memOk = true ∧ exec (.readClear 0 0 .full 0) rig = .next (nextOf (.readClear 0 0 .full 0) rig) := ⟨by decide +kernel, next_eq (by decide +kernel)⟩
theorem meets_doorbellFrame : rig.memOk = true ∧ rig.queue? (.ctx 16) = some que ∧ ((1 : BitVec 32).toNat + 2 ^ 32 - que.head) % 2 ^ 32 ≤ 2 ^ que.sizeLog2 ∧ exec (bell 1) rig = .next (nextOf (bell 1) rig) :=
  ⟨by decide +kernel, by decide +kernel, by decide +kernel, next_eq (by decide +kernel)⟩
theorem meets_noStoreFrame : rig.memOk = true ∧ rig.pairedPart ((rig.openAdmin (.ctx 16)).newCmd (.ctx 16) (pk 0x130 0 [])).part = false ∧
    exec (.nop (.ctx 16) (pk 0x130 0 [])) rig = .next (nextOf (.nop (.ctx 16) (pk 0x130 0 [])) rig) := ⟨by decide +kernel, by decide +kernel, next_eq (by decide +kernel)⟩
theorem meets_refusedCommandsHaveNoEffect : let p := pk 0x102 0 []
    rig.memOk = true ∧ Starts rig 0x0102 (.ctx 16) p ∧ (match guardCheck (rig.enter (.ctx 16) p).1 (rig.enter (.ctx 16) p).2 true false with | .error (.done _) => true | _ => false) = true ∧
      rig.pairedPart ((rig.openAdmin (.ctx 16)).newCmd (.ctx 16) p).part = false := by
  refine ⟨?_, ⟨?_, ?_, ?_⟩, ?_, ?_⟩ <;> decide +kernel
theorem meets_pairedPartitionsStayChill : Met 0x0113 true false (fun c s => c.ticket = 0 ∧ ∃ x, s.liveCtx (c.u 40 1) 40 = .ok x ∧ serves c.fn x.part = true ∧ bit (c.u 41 1) 0 = false ∧ s.pairedPart x.part = true)
    { rig with pair := { active := true, part := 0 } } (.admin 0) (pk 0x113 0 [(40, 1, 1)]) := by
  refine met ?_ ?_ ?_ (okEq ?_) ⟨?_, ctx1, okEq ?_, ?_, ?_, ?_⟩ <;> decide +kernel

/-! ### Well-formedness: a term that each check refuses -/

theorem test_opcode_of_another_row : Instr.wf (.fence (.ctx 16) (pk 0x130 0 [])) = false := by decide +kernel
theorem test_packet_not_whole : Instr.wf (.nop (.ctx 16) { bytes := (pk 0x130 0 []).bytes.take 63 }) = false := by decide +kernel
theorem test_packet_without_its_parameters : Instr.wf (.nop (.ctx 16) { bytes := laid 64 [(0, 2, 0x130), (26, 2, 8), (3, 1, 1)] }) = false := by decide +kernel
theorem test_short_flit : Instr.wf (.dataFlit 0 0 (some 0) (laid 255 [])) = false := by decide +kernel
theorem test_short_optional_flit : Instr.wf (.width 0 (some []) false 0) = false := by decide +kernel
theorem test_short_line : Instr.wf (.birsp 0 0 (some (laid 63 []))) = false := by decide +kernel
theorem test_short_key : Instr.wf (.keySlotSet 0 1 (some (laid 31 []))) = false := by decide +kernel
theorem test_write_of_another_length : Instr.wf (.hostWindowAccess 0 true 0 2 [1]) = false := by decide +kernel
theorem test_no_readings : Instr.wf (.sensorReading .logic 0 []) = false := by decide +kernel
set_option maxRecDepth 1000000 in
theorem test_long_fabric_payload : Instr.wf (.cmdPacket 0 (fpk (List.replicate 4161 0))) = false := by decide +kernel
set_option maxRecDepth 1000000 in
theorem test_long_read_data : Instr.wf (.rdData 0 false 0 0 0 (List.replicate 4097 0)) = false := by decide +kernel
theorem test_well_formed : Instr.wf (.nop (.ctx 16) (pk 0x130 0 [])) = true ∧ Instr.wf (.keySlotSet 0 1 (some (laid 32 []))) = true := by decide +kernel
theorem test_no_word_spells_a_command : decodeTableWord 16 0x130 = none := rfl

/-! ### Worked examples and check values of the spec -/

def digits : List Byte := [0x31, 0x32, 0x33, 0x34, 0x35, 0x36, 0x37, 0x38, 0x39]
/-- R406's check value. -/
theorem test_crc32 : crc32 digits = 0xCBF43926 := by decide +kernel
/-- R359's check value. -/
theorem test_crc64 : crc64 digits = 0x6C40DF5F0B497347 := by decide +kernel
/-- Chapter 10's example: the lengths of blocks of rank 24 and 20. -/
theorem test_block_lengths : validLength 24 false = 24640 ∧ validLength 20 false = 20544 := by decide +kernel
def exTable : Table := { object := 3, tag := 0x107, base := 0x10000000000, rows := 2 ^ 27, width := 128, bits := 8, adaptive := false, eps := 0, mult := 0x9E3779B97F4A7C15, salt := 2, yObj := 0, ySlots := 0 }
/-- Chapter 11's example: stride, rows per page, the row of id 3 and its address. -/
theorem test_table_row : exTable.stride = 160 ∧ exTable.rpp = 13107 ∧ exTable.hash 3 = 82951117 ∧ exTable.rowAddr 82951117 = 0x10317187720 := by decide +kernel
/-- Chapter 2's example: the third error of array 2 of core 13 within the hour retires row 17 and counts one trip. -/
def exFault : State := (({ rig with now := 90000000000, riser := { rig.riser with
  buckets := [{ cls := 7, key := (faultOf 7 (.unit 0x020D0211 17 0)).key, table := 0, stamps := [{ at_ := 0, win := 90000000000, row := 17, col := 0 }, { at_ := 170, win := 90000000000, row := 17, col := 0 }] }] } } : State))
/-- The error's tick: at its end Riser serves the trip. -/
def exTrip : State := (nextOf (.bucketEvent 7 (.unit 0x020D0211 17 0) 90000000000) exFault).serveAsks
theorem test_row_retires : let t := exTrip
    t.field .fltBktStat 7 0 0 32 = 1 ∧ t.field .fltBktStat 7 0 32 16 = 0 ∧ t.field .fltBktStat 7 0 48 16 = 1 ∧ (t.unit 0x020D0211).state = .retiring ∧ (t.unit 0x020D0211).gen = 2 ∧
      (t.unit 0x020D0240).state = .spare := by decide +kernel
/-- Chapter 18's example: the carve of partition 3, as its registers show it. -/
def exCarve : State := { rig with
  tenants := { rig.tenants with parts := [{ id := 0, carve := { coreMask := 0xF, barriers := 96, buckets := 4096 } }] }
  sec := { rig.sec with keys := [(5, [])] } }
def exCarvePkt : Packet := pk 0x120 64 [(40, 1, 3), (64, 4, 0xF00), (68, 2, 32), (70, 2, 1024), (72, 8, 0x100000000), (80, 8, 0x1000000000), (96, 2, 64), (98, 2, 4), (101, 1, 3), (102, 1, 5), (104, 4, 500)]
theorem test_carve : let t := nextOf (.partCarve (.admin 0) exCarvePkt) exCarve
    t.view .prtPart 3 0 0 = 0xF00 + 0x60 * 2 ^ 32 + 0x20 * 2 ^ 42 + 1 * 2 ^ 53 + 1 * 2 ^ 54 ∧ t.view .embYarrowCfg 3 0 0 = 0x1000 + 0x400 * 2 ^ 16 := by decide +kernel
/-- Chapter 2's example: with no program on the core the new mapping applies and the spare row 64 is bound, ACTIVE at generation 2. -/
theorem test_spare_row_bound : let t := nextOf (.arrayRemapApply 13 2) exTrip
    (t.unit 0x020D0240).state = .active ∧ (t.unit 0x020D0240).gen = 2 ∧ (t.unit 0x020D0240).backs = 0x020D0211 := by decide +kernel

end Sys2Proof.Tests
end

/-! ### Fault buckets: when an event trips one (R24 to R27) -/

namespace Sys2Proof.Machine

/-- Whether a bucket is the one that a fault of a class counts in. -/
def Bucket.holds (cls : Nat) (f : Fault1) (b : Bucket) : Bool := b.cls == cls && b.key == f.key && b.table == f.table

/-- The units that must be ACTIVE for a fault of a class 4 or above to count (R27): an array's core, row and column, else the fault's own unit. -/
def countedUnits (cls : Nat) (f : Fault1) : List Nat :=
  if cls = 7 then [coreUnit (bits f.key 23 16), arrUnit 2 (bits f.key 23 16) (bits f.key 9 8) f.row, arrUnit 3 (bits f.key 23 16) (bits f.key 9 8) f.col]
  else [f.unit]

/-- Whether an event at a time trips a bucket with these stamps kept of at most `keep` (R24): `keep` is 0, or as many are kept and the oldest is within the window. -/
def tripsOn (keep w time : Nat) (kept : List Stamp) : Bool :=
  keep == 0 || (kept.length == keep && match kept with
    | o :: _ => within w o time
    | [] => false)

/-- The stamp that a fault leaves at a time, under a window. -/
def Fault1.stamp (f : Fault1) (w time : Nat) : Stamp := { at_ := time * 256 / w, win := w, row := f.row, col := f.col }

/-- The bucket of a fault with its stamps replaced. -/
def State.restamp (s : State) (cls : Nat) (f : Fault1) (stamps : List Stamp) : State :=
  { s with riser := { s.riser with buckets := upd s.riser.buckets (Bucket.holds cls f) (fun b => { b with stamps := stamps }) } }

/-- A fault whose class counts for a unit that is not ACTIVE (R27). -/
abbrev State.idleFor (s : State) (cls : Nat) (f : Fault1) : Prop :=
  4 ≤ cls ∧ (countedUnits cls f).any (fun u => (s.unit u).state != .active) = true

/-- The newest stamps, `keep` at the most, of the bucket of a fault. -/
def State.keptStamps (s : State) (cls : Nat) (f : Fault1) (keep : Nat) : List Stamp :=
  let old := ((s.riser.buckets.find? (Bucket.holds cls f)).map (·.stamps)).getD []
  old.drop (old.length - keep)

/-- `State.tally` through the functions above. -/
theorem State.tally_eq (s : State) (cls : Nat) (f : Fault1) (time : Nat) :
    s.tally cls f time =
      let keep := bits (s.reg .fltBktCfg cls 0) 3 0
      let w := bits (s.reg .fltBktCfg cls 0) 51 8
      let s0 := s.count .fltBktStat cls 0 48 16
      if (!bit (s.reg .fltBktCfg cls 0) 52) = true ∨ s.idleFor cls f then (s0, none) else
      let s1 := s0.bucketFor cls f
      let kept := s1.keptStamps cls f keep
      let tripped := tripsOn keep w time kept
      let s2 := s1.restamp cls f (if tripped then [] else (kept ++ [f.stamp w time]).drop (kept.length + 1 - keep))
      if tripped then (s2.count .fltBktStat cls 0 0 32, some kept) else (s2, none) := by
  rfl

/-- A change that keeps what the test reads changes the entry that the test finds. -/
theorem find?_upd {α : Type} (l : List α) (p : α → Bool) (g : α → α) (hp : ∀ x, p (g x) = p x) :
    (upd l p g).find? p = (l.find? p).map g := by
  induction l with
  | nil => rfl
  | cons x xs ih =>
    have hcons : upd (x :: xs) p g = (if p x then g x else x) :: upd xs p g := rfl
    cases hx : p x <;> simp [hcons, hx, hp, ih]

theorem State.find?_restamp (s : State) (cls : Nat) (f : Fault1) (stamps : List Stamp) :
    (s.restamp cls f stamps).riser.buckets.find? (Bucket.holds cls f) =
      (s.riser.buckets.find? (Bucket.holds cls f)).map (fun b => { b with stamps := stamps }) :=
  find?_upd _ _ _ fun _ => rfl

/-- A fault whose bucket stands gives up no entry of a watch table (R29). -/
theorem State.bucketFor_of_find? {s : State} {cls : Nat} {f : Fault1} {b : Bucket}
    (hb : s.riser.buckets.find? (Bucket.holds cls f) = some b) : s.bucketFor cls f = s := by
  have hany : s.riser.buckets.any (Bucket.holds cls f) = true :=
    List.any_eq_true.mpr ⟨b, List.mem_of_find?_eq_some hb, List.find?_some hb⟩
  exact if_pos hany

theorem within_iff {w : Nat} (hw : w ≠ 0) (o : Stamp) (time : Nat) :
    within w o time = true ↔ time * 256 / w - o.in_ w ≤ 256 := by
  simp [within, hw]

/-- R24 to R26 of the kept stamps, oldest first. -/
theorem tripsOn_iff {w : Nat} (hw : w ≠ 0) (keep time : Nat) (kept : List Stamp) :
    tripsOn keep w time kept = true ↔
      keep = 0 ∨ ∃ o l, kept = o :: l ∧ l.length + 1 = keep ∧ time * 256 / w - o.in_ w ≤ 256 := by
  cases kept with
  | nil => simp [tripsOn]
  | cons o l => simp [tripsOn, within_iff hw]

/-- What `State.tally` does of an enabled class, its units ACTIVE and its bucket standing with at most `keep` stamps. -/
theorem State.tally_of_counts {s : State} {cls : Nat} {f : Fault1} {time keep w : Nat} {b : Bucket}
    (hkeep : keep = bits (s.reg .fltBktCfg cls 0) 3 0) (hw : w = bits (s.reg .fltBktCfg cls 0) 51 8)
    (hon : bit (s.reg .fltBktCfg cls 0) 52 = true)
    (hact : 4 ≤ cls → ∀ u ∈ countedUnits cls f, (s.unit u).state = .active)
    (hb : s.riser.buckets.find? (Bucket.holds cls f) = some b) (hlen : b.stamps.length ≤ keep) :
    s.tally cls f time =
      let s0 := s.count .fltBktStat cls 0 48 16
      if tripsOn keep w time b.stamps then ((s0.restamp cls f []).count .fltBktStat cls 0 0 32, some b.stamps)
      else (s0.restamp cls f ((b.stamps ++ [f.stamp w time]).drop (b.stamps.length + 1 - keep)), none) := by
  have hidle : ¬ s.idleFor cls f := by
    rintro ⟨hcls, hany⟩
    obtain ⟨u, hu, hne⟩ := List.any_eq_true.mp hany
    simp [hact hcls u hu] at hne
  have hs0 : (s.count .fltBktStat cls 0 48 16).riser.buckets.find? (Bucket.holds cls f) = some b := by simpa using hb
  have hkept : (s.count .fltBktStat cls 0 48 16).keptStamps cls f keep = b.stamps := by
    simp [State.keptStamps, hb, Nat.sub_eq_zero_of_le hlen]
  rw [State.tally_eq, if_neg (by simp [hon, hidle]), State.bucketFor_of_find? hs0, ← hkeep, ← hw]
  simp only [hkept]
  cases tripsOn keep w time b.stamps <;> simp only [reduceIte, Bool.false_eq_true]

/-- Settles O12: the bucket stands and its units are ACTIVE, so `State.tally_of_counts` gives both the trip and the stamps kept. -/
theorem bucketTrips : Obligations.BucketTrips := by
  unfold Obligations.BucketTrips
  intro s cls f time keep w b hkeep hw hw0 hon hunit harray hb hlen
  have hact : 4 ≤ cls → ∀ u ∈ countedUnits cls f, (s.unit u).state = .active := by
    intro hcls
    by_cases h7 : cls = 7
    · simpa [countedUnits, h7] using harray h7
    · simpa [countedUnits, h7] using hunit hcls h7
  have htally := State.tally_of_counts (time := time) hkeep hw hon hact hb hlen
  rw [htally, ← tripsOn_iff hw0 keep time b.stamps]
  cases tripsOn keep w time b.stamps with
  | true => simp
  | false =>
    have hfind := State.find?_restamp (s.count .fltBktStat cls 0 48 16) cls f ((b.stamps ++ [f.stamp w time]).drop (b.stamps.length + 1 - keep))
    rw [State.count_riser] at hfind
    exact ⟨by simp, fun _ => ⟨_, hfind.trans (congrArg (Option.map _) hb), rfl⟩⟩

end Sys2Proof.Machine

/-! ### Which operations leave the queues as they are -/

namespace Sys2Proof.Machine

/-- What every round of a loop keeps, the loop keeps. -/
theorem foldl_keeps {α σ β : Type} (obs : σ → β) {f : σ → α → σ} (hf : ∀ s x, obs (f s x) = obs s) (l : List α) (s : σ) :
    obs (l.foldl f s) = obs s := by
  induction l generalizing s with
  | nil => rfl
  | cons x xs ih => exact (ih (f s x)).trans (hf s x)

@[simp] theorem State.setHostMem_queues (s : State) (pasid : Option (BitVec 20)) (m : Mem) : (s.setHostMem pasid m).queues = s.queues := rfl

@[simp] theorem State.hostPost_queues (s : State) (l : Nat) (pasid : Option (BitVec 20)) (addr : Nat) (bs : List Byte) (poison : Bool) (by_ : Option QueueId) :
    (s.hostPost l pasid addr bs poison by_).queues = s.queues := by
  unfold State.hostPost; split <;> simp

@[simp] theorem State.msix_queues (s : State) (l fn vector : Nat) : (s.msix l fn vector).queues = s.queues := rfl

@[simp] theorem State.writeBack_queues (s : State) (p : HlcLine → Bool) : (s.writeBack p).queues = s.queues :=
  foldl_keeps State.queues (fun _ _ => State.hostPost_queues ..) _ _

@[simp] theorem State.vaWrite_queues (s : State) (x addr : Nat) (bs : List Byte) (poison : Bool) : (s.vaWrite x addr bs poison).queues = s.queues := by
  refine foldl_keeps State.queues (fun st p => ?_) _ s
  cases st.objAt x p.1 with
  | none => rfl
  | some o => cases poison <;> simp

@[simp] theorem State.vaTouch_queues (s : State) (x addr n : Nat) : (s.vaTouch x addr n).queues = s.queues := by
  refine foldl_keeps State.queues (fun st p => ?_) _ s
  cases st.objAt x p.1 <;> rfl

@[simp] theorem State.storeWrite_queues (s : State) (c off : Nat) (bs : List Byte) (poison : Bool) : (s.storeWrite c off bs poison).queues = s.queues := by
  unfold State.storeWrite; cases poison <;> simp

@[simp] theorem State.scramble_queues (x : Nat) (s : State) (p : Place × Nat) : (s.scramble x p).queues = s.queues := by
  unfold State.scramble
  cases p.1 with
  | core c off => dsimp only; split <;> simp
  | dev y a => simp
  | _ => rfl

@[simp] theorem State.discard_queues (s : State) (p : Provisional → Bool) : (s.discard p).queues = s.queues := by
  refine foldl_keeps State.queues (fun st v => ?_) _ s
  have hplaces : (v.places.foldl (State.scramble v.ctx) st).queues = st.queues := foldl_keeps State.queues (State.scramble_queues v.ctx) _ st
  dsimp only; split <;> simp [hplaces]

@[simp] theorem State.discardProv_queues (s : State) (uid : Nat) : (s.discardProv uid).queues = s.queues := State.discard_queues ..

@[simp] theorem State.endLaunch_queues (s : State) (n : Nat) : (s.endLaunch n).queues = s.queues := rfl

@[simp] theorem State.settleInv_queues (s : State) : s.settleInv.queues = s.queues := by
  unfold State.settleInv; dsimp only; split <;> rfl

@[simp] theorem State.killWork_queues (s : State) (uid : Nat) : (s.killWork uid).queues = s.queues :=
  (State.settleInv_queues _).trans (foldl_keeps State.queues State.endLaunch_queues _ s)

@[simp] theorem State.meetScope_queues (s : State) (c : Running) : (s.meetScope c).queues = s.queues := by
  unfold State.meetScope; dsimp only; split_ifs <;> simp

@[simp] theorem State.writeRecord_queues (s : State) (c : Running) (flags : Nat) (r : Reply) : (s.writeRecord c flags r).queues = s.queues := by
  unfold State.writeRecord; dsimp only; split_ifs <;> simp

@[simp] theorem State.notify_queues (s : State) (c : Running) : (s.notify c).queues = s.queues := by
  unfold State.notify
  split
  · cases s.findQueue c.queue <;> simp
  · rfl

@[simp] theorem State.takePacket_queues (s : State) (k : Nat) (f : List Byte → Bool) : (s.takePacket k f).queues = s.queues := by
  unfold State.takePacket; split <;> rfl

@[simp] theorem State.takePacket_regs (s : State) (k : Nat) (f : List Byte → Bool) : (s.takePacket k f).regs = s.regs := by
  unfold State.takePacket; split <;> rfl

@[simp] theorem State.takePacket_memory (s : State) (k : Nat) (f : List Byte → Bool) : (s.takePacket k f).memory = s.memory := by
  unfold State.takePacket; split <;> rfl

/-! ### What a lookup of a queue finds -/

theorem State.queue?_congr {s t : State} (h : t.queues = s.queues) (q : QueueId) : t.queue? q = s.queue? q := by
  simp only [State.queue?, h]

@[simp] theorem State.queue?_after (s t : State) (q : QueueId) : (s.after t).queue? q = t.queue? q := rfl

/-- A change that keeps a queue's number is what a lookup then finds. -/
theorem State.queue?_modQueue (s : State) (q : QueueId) {g : Queue → Queue} (hg : ∀ e, (g e).id = e.id) :
    (s.modQueue q g).queue? q = (s.queue? q).map g :=
  find?_upd s.queues _ g fun e => by rw [hg]

theorem State.queueError_queues (s : State) (q : QueueId) :
    (s.queueError q).queues = (s.modQueue q fun e => { e with state := .error }).queues := by
  cases q with
  | ctx n => exact State.discard_queues ..
  | admin f => rfl

theorem State.queue?_queueError (s : State) (q : QueueId) :
    (s.queueError q).queue? q = (s.queue? q).map fun e => { e with state := .error } :=
  (State.queue?_congr (s.queueError_queues q) q).trans (s.queue?_modQueue q fun _ => rfl)

theorem State.openAdmin_of_queue? {s : State} {q : QueueId} {e : Queue} (he : s.queue? q = some e) : s.openAdmin q = s := by
  simp [State.openAdmin, he]

end Sys2Proof.Machine

/-! ### Doorbells (R46) -/

namespace Sys2Proof.Machine

/-- A queue after a doorbell value (R46). -/
def Queue.rung (e : Queue) (v : Nat) : Queue :=
  let d := (v + 2 ^ 32 - e.tail) % 2 ^ 32
  if d = 0 ∨ 2 ^ 31 ≤ d then { e with backward := satN 16 (e.backward + 1) }
  else if 2 ^ e.sizeLog2 < (v + 2 ^ 32 - e.head) % 2 ^ 32 then { e with overrun := true, state := .error }
  else { e with tail := v }

theorem State.queue?_doorbell {s : State} {q : QueueId} {e : Queue} (he : s.queue? q = some e) (hlive : e.state ≠ .absent) (v : Nat) :
    (s.doorbell q v).queue? q = some (e.rung v) := by
  simp only [State.doorbell, State.openAdmin_of_queue? he, he, if_neg hlive, Queue.rung]
  split_ifs with hback hover
  · simp [State.queue?_modQueue, he]
  · simp [State.queue?_queueError, State.queue?_modQueue, he]
  · simp [State.queue?_modQueue, he]

theorem exec_doorbellWrite (fn : Fin 33) (q : QueueId) (v : BitVec 32) (s : State) :
    exec (.doorbellWrite fn q v) s = s.run fun s => if s.seesQueue fn q then s.doorbell q v.toNat else s := rfl

/-- A doorbell write that the function's BAR shows leaves the queue rung. -/
theorem exec_doorbellWrite_queue? {s : State} {fn : Fin 33} {q : QueueId} {e : Queue} (hclock : s.power.stopped = false) (hsees : s.seesQueue fn q = true)
    (he : s.queue? q = some e) (hlive : e.state ≠ .absent) (v : BitVec 32) :
    ∃ t, exec (.doorbellWrite fn q v) s = .next t ∧ t.queue? q = some (e.rung v.toNat) :=
  ⟨_, (exec_doorbellWrite fn q v s).trans (run_eq s _ hclock), by simp [hsees, State.queue?_doorbell he hlive]⟩

theorem run_pending {s t : State} {f : State → State} (h : s.run f = .next t) : t.pending = s.pending := by
  cases h; rfl

theorem step_of_pending {s : State} {c : Instr} {rest : List Instr} (h : s.pending = c :: rest) : step s = exec c { s with pending := rest } := by
  rw [step, h]

/-- Settles O13: a doorbell write leaves the queue rung (`exec_doorbellWrite_queue?`), whose three cases are those of R46; it leaves the later write at the front of the waiting commands. -/
theorem doorbellRule : Obligations.DoorbellRule := by
  unfold Obligations.DoorbellRule
  refine ⟨fun s fn q e v _ hclock hsees he hlive => ?_, fun s t fn q v w rest hp ht => ?_⟩
  · obtain ⟨t, hexec, hqueue⟩ := exec_doorbellWrite_queue? hclock hsees he hlive v
    refine ⟨fun hback => ⟨t, hexec, ?_⟩, fun hne hlt hover => ⟨t, hexec, ?_⟩, fun hne hlt hfits => ⟨t, hexec, ?_⟩⟩
    · rw [hqueue, Queue.rung, if_pos hback]
    · rw [hqueue, Queue.rung, if_neg (by omega), if_pos hover]
    · rw [hqueue, Queue.rung, if_neg (by omega), if_neg (by omega)]
  · rw [step_of_pending hp, exec_doorbellWrite] at ht
    exact step_of_pending (run_pending ht)

end Sys2Proof.Machine

/-! ### Chill mode of a command (R52) -/

namespace Sys2Proof.Machine

@[simp] theorem State.openAdmin_tenants (s : State) (q : QueueId) : (s.openAdmin q).tenants = s.tenants := by
  unfold State.openAdmin; split <;> rfl

@[simp] theorem State.ctx?_openAdmin (s : State) (q : QueueId) (x : Nat) : (s.openAdmin q).ctx? x = s.ctx? x := by
  simp [State.ctx?]

/-- Entering a queue gives the command nothing but its place in its pair's order. -/
theorem State.enter_cmd (s : State) (q : QueueId) (pkt : Packet) :
    ∃ i, (s.enter q pkt).1 = { (s.openAdmin q).newCmd q pkt with matchIndex := i } := by
  unfold State.enter
  dsimp only
  split_ifs
  · exact ⟨_, rfl⟩
  · exact ⟨_, rfl⟩

theorem State.newCmd_chill (s : State) (q : QueueId) (pkt : Packet) :
    (s.newCmd q pkt).chill = ((fld pkt.bytes 2 1).testBit 2 || ((s.ctx? (s.newCmd q pkt).ctx).map (·.chill)).getD false) := rfl

/-- Settles O14: the command is the packet's entry of `State.newCmd`, whose mode is the flag or the mode of the context that it names. -/
theorem chillCommands : Obligations.ChillCommands := by
  unfold Obligations.ChillCommands
  intro s q pkt
  obtain ⟨i, hc⟩ := s.enter_cmd q pkt
  rw [hc]
  dsimp only
  rw [State.newCmd_chill, State.ctx?_openAdmin, Bool.or_eq_true]
  refine or_congr_right ?_
  cases s.ctx? ((s.openAdmin q).newCmd q pkt).ctx <;> simp

end Sys2Proof.Machine

/-! ### The end of a command and STOP_ON_ERROR (R65) -/

namespace Sys2Proof.Machine

/-- A queue without a command that has ended with an outcome, which its history and its fence record (R53, R58). -/
def Queue.ended (c : Running) (r : Reply) (e : Queue) : Queue :=
  { e with
    fenceAfter := if bit c.flags 1 ∨ c.opcode = 0x403 then some (c.scope == 3 || e.fenceAfter.getD false) else e.fenceAfter,
    running := e.running.filter (fun k => k.uid ≠ c.uid),
    history := (e.history ++ [({ seq := c.seq, reply := r, opcode := c.opcode } : Done)]).drop (e.history.length + 1 - 64) }

/-- Whether an outcome puts a queue into ERROR (R65). -/
def Queue.stopsAt (r : Reply) (e : Queue) : Bool := decide (0x10 ≤ r.status ∧ r.status ≠ 0x40) && (e.stopOnError && e.state == .running)

/-- A queue that was to stop has stopped once nothing but its QUEUE_STOP runs (R49). -/
def Queue.settled (q : QueueId) (e : Queue) : Queue :=
  if e.stopping ∧ e.running.all (fun k => k.work == .queueStop q) then e.halted else e

/-- A command's record is written and its queue told of its end. -/
def State.recorded (s : State) (c : Running) (r : Reply) : State :=
  (((s.meetScope c).writeRecord c 1 r).notify c).modQueue c.queue (Queue.ended c r)

/-- A queue enters ERROR where an outcome has it stop. -/
def State.stopOn (s : State) (q : QueueId) (r : Reply) : State :=
  if decide (0x10 ≤ r.status ∧ r.status ≠ 0x40) && ((s.queue? q).map (fun e => e.stopOnError && e.state == .running)).getD false then s.queueError q else s

/-- What a command's end counts, and the end of its work. -/
def State.closed (s : State) (c : Running) (r : Reply) : State :=
  let s4 := if r.status = 0x24 then s.count .fltPoisonCnt 0 0 32 32 else s
  let s5 := if c.chill then s4.modCtx c.ctx (fun x => { x with chillCmds := x.chillCmds + 1 }) else s4
  (s5.discardProv c.uid).killWork c.uid

/-- `State.finish` through the functions above. -/
theorem State.finish_eq (s : State) (c : Running) (r : Reply) :
    s.finish c r = (((s.recorded c (c.outcome r)).stopOn c.queue (c.outcome r)).closed c (c.outcome r)).modQueue c.queue (Queue.settled c.queue) := rfl

theorem State.queue?_recorded (s : State) (c : Running) (r : Reply) : (s.recorded c r).queue? c.queue = (s.queue? c.queue).map (Queue.ended c r) := by
  have hkept : (((s.meetScope c).writeRecord c 1 r).notify c).queues = s.queues := by simp
  rw [State.recorded, State.queue?_modQueue (hg := fun e => by rfl), State.queue?_congr hkept]

theorem State.queue?_stopOn {s : State} {q : QueueId} {e : Queue} (he : s.queue? q = some e) (r : Reply) :
    (s.stopOn q r).queue? q = some (if e.stopsAt r then { e with state := .error } else e) := by
  have hstop : s.stopOn q r = if e.stopsAt r then s.queueError q else s := by simp [State.stopOn, Queue.stopsAt, he]
  rw [hstop]
  split_ifs
  · rw [State.queue?_queueError, he, Option.map_some]
  · exact he

@[simp] theorem State.closed_queues (s : State) (c : Running) (r : Reply) : (s.closed c r).queues = s.queues := by
  have hpoison : (if r.status = 0x24 then s.count .fltPoisonCnt 0 0 32 32 else s).queues = s.queues := by
    split
    · exact State.count_queues ..
    · rfl
  have hchill (t : State) : (if c.chill then t.modCtx c.ctx (fun x => { x with chillCmds := x.chillCmds + 1 }) else t).queues = t.queues := by
    split <;> rfl
  rw [State.closed, State.killWork_queues, State.discardProv_queues, hchill, hpoison]

@[simp] theorem Queue.settled_id (q : QueueId) (e : Queue) : (e.settled q).id = e.id := by
  unfold Queue.settled; split <;> rfl

@[simp] theorem Queue.settled_running (q : QueueId) (e : Queue) : (e.settled q).running = e.running := by
  unfold Queue.settled; split <;> rfl

/-- ERROR is left only through QUEUE_START (R49). -/
theorem Queue.settled_error {q : QueueId} {e : Queue} (h : e.state = .error) : (e.settled q).state = .error := by
  unfold Queue.settled; split <;> simp [Queue.halted, h]

/-- What the end of a command makes of its queue. -/
theorem State.queue?_finish {s : State} {c : Running} {e : Queue} (he : s.queue? c.queue = some e) (r0 : Reply) :
    (s.finish c r0).queue? c.queue =
      let r := c.outcome r0
      let e1 := e.ended c r
      some ((if e1.stopsAt r then { e1 with state := .error } else e1).settled c.queue) := by
  have hrecorded : (s.recorded c (c.outcome r0)).queue? c.queue = some (e.ended c (c.outcome r0)) := by
    rw [State.queue?_recorded, he, Option.map_some]
  rw [State.finish_eq, State.queue?_modQueue _ _ (Queue.settled_id _), State.queue?_congr (State.closed_queues ..), State.queue?_stopOn hrecorded, Option.map_some]

/-- Settles O15: the queue stops at the outcome (`State.queue?_finish`), and what then settles it changes neither ERROR nor the running commands. -/
theorem stopOnError : Obligations.StopOnError := by
  unfold Obligations.StopOnError
  intro s c r e he hflag hrunning herror hpreempted
  have hstops : (e.ended c (c.outcome r)).stopsAt (c.outcome r) = true := by
    simp [Queue.stopsAt, Queue.ended, hflag, hrunning, herror, hpreempted]
  refine ⟨_, State.queue?_finish he r, ?_⟩
  rw [if_pos hstops]
  exact ⟨Queue.settled_error rfl, Queue.settled_running _ _⟩

end Sys2Proof.Machine

/-! ### Replies to no request (R81) -/

namespace Sys2Proof.Machine

@[simp] theorem State.takeReply_queues (s : State) (port rop orig tag : Nat) : (s.takeReply port rop orig tag).queues = s.queues := State.takePacket_queues ..

@[simp] theorem State.takeReply_regs (s : State) (port rop orig tag : Nat) : (s.takeReply port rop orig tag).regs = s.regs := State.takePacket_regs ..

@[simp] theorem State.takeReply_memory (s : State) (port rop orig tag : Nat) : (s.takeReply port rop orig tag).memory = s.memory := State.takePacket_memory ..

/-- A row that takes its reply out of the port's pool and counts it as late discards it. -/
theorem discarded_of_exec {c : Instr} {s : State} (port rop orig tag : Nat)
    (hexec : exec c s = .next (s.after (s.takeReply port rop orig tag).lateReply)) : Discarded c s :=
  ⟨s.takeReply port rop orig tag, hexec, State.takeReply_queues .., State.takeReply_regs ..⟩

theorem State.far?_eq_none {s : State} {orig tag : Nat} (h : ∀ f ∈ s.memory.far, f.orig = orig → f.tag ≠ tag) : s.far? orig tag = none := by
  simpa [State.far?] using h

/-- Settles O16: each row finds no request, so it takes its reply and counts it as late (`discarded_of_exec`). -/
theorem lateReplies : Obligations.LateReplies := by
  unfold Obligations.LateReplies
  intro s port orig tag hclock hfar hxo
  have hnone (rop : Nat) : (s.takeReply port rop orig tag).far? orig tag = none := State.far?_eq_none (by simpa using hfar)
  have hunresolved : s.memory.unresolved.find? (fun u => u.far.orig == orig.val && u.far.tag == tag.val) = none := by simpa using hxo
  refine ⟨fun fc p d => ?_, fun fc => ?_, fun us => ?_, fun code => ?_, ?_, fun a => ?_⟩
  · exact discarded_of_exec port 0x81 orig tag (by simp only [exec, execRdData, run_eq s _ hclock, hnone])
  · exact discarded_of_exec port 0x82 orig tag (by simp only [exec, execMemAckReply, run_eq s _ hclock, hnone])
  · exact discarded_of_exec port 0x83 orig tag (by simp only [exec, execRetryReply, run_eq s _ hclock, hnone])
  · exact discarded_of_exec port 0x84 orig tag (by simp only [exec, execErrorReply, run_eq s _ hclock, hnone])
  · exact discarded_of_exec port 0x88 orig tag (by simp only [exec, execPong, run_eq s _ hclock, hnone])
  · exact discarded_of_exec port 0x89 orig tag (by simp only [exec, execXoState, run_eq s _ hclock, State.takeReply_memory, hunresolved])

end Sys2Proof.Machine

/-! ### Contexts of a paired partition (R374) -/

namespace Sys2Proof.Machine

/-- The effect of an opcode row whose body refuses the command: the reply alone, as nothing was applied before it (R64). -/
theorem effect_refused {mk : QueueId → Packet → Instr} {op : Nat} {a f : Bool} {body : Body} {H : Running → State → Prop} {r : Running → State → Reply}
    (hx : ∀ q pkt s, exec (mk q pkt) s = opcodeStep op a f body q pkt s) (hb : ∀ c s, H c s → body c s = .error (.done (r c s))) :
    Effect mk op a f H (fun c s => s.reply c.uid (r c s)) :=
  effect_of hx (fun c s h => runBody_refused (hb c s h))

theorem exec_ctxSetMode (q : QueueId) (pkt : Packet) (s : State) : exec (.ctxSetMode q pkt) s = opcodeStep 0x0113 true false bodyCtxSetMode q pkt s := rfl

/-- R374 is judged with the mode byte, before the rest of the packet and the commands that this one would wait for. -/
theorem bodyCtxSetMode_of_paired {c : Running} {s : State} {x : Ctx} (hticket : c.ticket = 0) (hctx : s.liveCtx (c.u 40 1) 40 = .ok x)
    (hserves : serves c.fn x.part = true) (hchill : bit (c.u 41 1) 0 = false) (hpaired : s.pairedPart x.part = true) :
    bodyCtxSetMode c s = .error (.done (errFormat 41)) := by
  have hmode : (c.u 41 1 / 4 == 0 && (bit (c.u 41 1) 0 || !serves c.fn x.part || !s.pairedPart x.part)) = false := by
    simp [hserves, hchill, hpaired]
  simp only [bodyCtxSetMode, noTicket_ok hticket, hctx, bind_ok, need_false hmode]
  rfl

/-- Settles O17: the body refuses the command at its mode byte (`bodyCtxSetMode_of_paired`), and a refusal leaves the state but for the reply (`effect_refused`). -/
theorem pairedPartitionsStayChill : Obligations.PairedPartitionsStayChill := by
  unfold Obligations.PairedPartitionsStayChill
  refine effect_refused exec_ctxSetMode ?_
  rintro c s ⟨hticket, x, hctx, hserves, hchill, hpaired⟩
  exact bodyCtxSetMode_of_paired hticket hctx hserves hchill hpaired

end Sys2Proof.Machine

/-! ### The agreed width of a port (R417) -/

namespace Sys2Proof.Machine

theorem setBits_succ (n x : Nat) : setBits (n + 1) x = setBits n x ++ if x.testBit n then [n] else [] := by
  simp [setBits, List.range_succ, List.filter_append, List.filter_singleton]

/-- The recursion of `popcount`, which takes bit 0 off. -/
theorem setBits_succ_cons (n x : Nat) : setBits (n + 1) x = (if x.testBit 0 then [0] else []) ++ (setBits n (x / 2)).map (· + 1) := by
  have htail : (fun i => x.testBit i) ∘ Nat.succ = fun i => (x / 2).testBit i := funext fun i => Nat.testBit_succ x i
  simp only [setBits, List.range_succ_eq_map, List.filter_cons, List.filter_map, htail]
  split_ifs <;> rfl

theorem length_setBits (n x : Nat) : (setBits n x).length = popcount n x := by
  induction n generalizing x with
  | zero => rfl
  | succ n ih =>
    have hbit : (if x.testBit 0 then [0] else []).length = x % 2 := by
      rcases Nat.mod_two_eq_zero_or_one x with h | h <;> simp [Nat.testBit_zero, h]
    rw [setBits_succ_cons, List.length_append, hbit, List.length_map, ih, popcount]

theorem setBits_filter_testBit (n x y : Nat) : (setBits n x).filter (fun w => y.testBit w) = setBits n (x &&& y) := by
  simp [setBits, List.filter_filter, Nat.testBit_and, Bool.and_comm]

theorem mem_take_singleton {α : Type} {a b : α} {m : Nat} : b ∈ [a].take m ↔ b = a ∧ 0 < m := by
  cases m <;> simp

/-- The m lowest-numbered set bits: as many set bits as lie below one are its rank. -/
theorem mem_take_setBits {m n x w : Nat} : w ∈ (setBits n x).take m ↔ w < n ∧ x.testBit w = true ∧ popcount w x < m := by
  induction n with
  | zero => simp [setBits]
  | succ n ih =>
    have hlast : w ∈ (if x.testBit n then [n] else []).take (m - popcount n x) ↔ w = n ∧ x.testBit w = true ∧ popcount w x < m := by
      split_ifs with hbit
      · rw [mem_take_singleton, Nat.sub_pos_iff_lt]
        exact and_congr_right (fun hw => by simp [hw, hbit])
      · rw [List.take_nil]
        exact iff_of_false List.not_mem_nil (fun ⟨hw, hset, _⟩ => hbit (hw ▸ hset))
    rw [setBits_succ, List.take_append, List.mem_append, ih, length_setBits, hlast,
      Nat.lt_succ_iff_lt_or_eq, or_and_right]

theorem setBits_ascending (n x : Nat) : (setBits n x).Pairwise (· < ·) :=
  List.pairwise_lt_range.filter _

/-- A mask made of the bits of an ascending list has exactly those bits. -/
theorem testBit_foldl_two_pow {l : List Nat} (hl : l.Pairwise (· < ·)) (w : Nat) : (l.foldl (fun m i => m + 2 ^ i) 0).testBit w = true ↔ w ∈ l := by
  have hsum : l.foldl (fun m i => m + 2 ^ i) 0 = (l.map (2 ^ ·)).sum := by
    rw [List.sum_eq_foldl, List.foldl_map]
  rw [hsum, ← Nat.mem_bitIndices, Nat.bitIndices_sum_map_two_pow hl.sortedLT]

theorem agreed_width (own : Nat) (p : Port) (mask : Nat) : (agreed own p mask).1 = min (min own p.peerWidth) (popcount 9 (mask &&& p.peerMask)) := by
  rw [agreed, setBits_filter_testBit, length_setBits]

theorem agreed_mask (own : Nat) (p : Port) (mask : Nat) :
    (agreed own p mask).2 = ((setBits 9 (mask &&& p.peerMask)).take (agreed own p mask).1).foldl (fun m i => m + 2 ^ i) 0 := by
  simp only [agreed, setBits_filter_testBit]

theorem testBit_agreed_mask {own : Nat} {p : Port} {mask w : Nat} (hw : w < 9) :
    (agreed own p mask).2.testBit w = true ↔
      mask.testBit w = true ∧ p.peerMask.testBit w = true ∧ popcount w (mask &&& p.peerMask) < (agreed own p mask).1 := by
  rw [agreed_mask, testBit_foldl_two_pow ((setBits_ascending 9 _).sublist (List.take_sublist ..)), mem_take_setBits]
  simp [hw, Nat.testBit_and, and_assoc]

/-- Training that agrees no wavelength takes the port down. -/
theorem exec_portTrained_of_width_zero {s : State} {k : Fin 36} {p : Port} (hclock : s.power.stopped = false) (hp : p = s.port k) (hpresent : s.pins.glPresent = true)
    (hheard : p.heard = true) (hstate : p.state = .training) (hproposal : p.proposal = none) (hwidth : (agreed (s.ownWidth k) p (s.wlUsable k)).1 = 0) :
    exec (.portTrained k) s = .next (s.after (s.putPort { p with state := .down, proposal := none, heard := false })) := by
  subst hp
  simp only [exec, execPortTrained, run_eq s _ hclock]
  rw [if_neg (by simp [hpresent, hheard, hstate])]
  simp [hproposal, hwidth]

/-- A field reads as the value put in it: the bits above the field, the value and the bits below it add up with no carry. -/
theorem putBits_read (v lo w x : Nat) : (putBits v lo w x >>> lo) % 2 ^ w = x % 2 ^ w := by
  have hbelow : v >>> lo * 2 ^ lo + v % 2 ^ lo = v := by rw [Nat.shiftRight_eq_div_pow, Nat.div_add_mod']
  have habove : 2 ^ w * (v >>> lo / 2 ^ w) * 2 ^ lo + v >>> lo % 2 ^ w * 2 ^ lo = v >>> lo * 2 ^ lo := by rw [← Nat.add_mul, Nat.div_add_mod]
  have hput : putBits v lo w x = (2 ^ w * (v >>> lo / 2 ^ w) + x % 2 ^ w) * 2 ^ lo + v % 2 ^ lo := by
    rw [putBits, Nat.add_mul]
    omega
  rw [hput, Nat.shiftRight_eq_div_pow, Nat.add_comm, Nat.add_mul_div_right _ _ (Nat.two_pow_pos lo),
    Nat.div_eq_of_lt (Nat.mod_lt _ (Nat.two_pow_pos lo)), Nat.zero_add, Nat.mul_add_mod, Nat.mod_mod]

theorem stateCode_lt (u : UnitState) : stateCode u < 2 ^ 3 := by
  cases u <;> decide

theorem State.shown_glWl (s : State) (k w fn : Nat) : s.shown .glWl k w fn = [(48, 3, stateCode (s.unit (wlUnit k w)).state)] := by
  rw [State.shown]

/-- A register instance of which one field is held elsewhere reads as that field's value at its place. -/
theorem State.view_field_of_shown {s : State} {r : Reg} {i j fn lo w x : Nat} (h : s.shown r i j fn = [(lo, w, x)]) :
    (s.view r i j fn >>> lo) % 2 ^ w = x % 2 ^ w := by
  rw [State.view, h, List.foldl_cons, List.foldl_nil, putBits_read]

/-- Settles O18: the wavelengths usable at both ends are the set bits of the two masks' AND, of which the agreed mask takes the first (`mem_take_setBits`). -/
theorem agreedWidth : Obligations.AgreedWidth := by
  unfold Obligations.AgreedWidth
  refine ⟨fun own p mask => ⟨agreed_width own p mask, fun w hw => testBit_agreed_mask hw⟩, fun s k p hclock hp hpresent hheard hstate hproposal hwidth => ?_, fun s k w fn _ _ => ?_⟩
  · exact exec_portTrained_of_width_zero hclock hp hpresent hheard hstate hproposal hwidth
  · rw [State.view_field_of_shown (s.shown_glWl k w fn), Nat.mod_eq_of_lt (stateCode_lt _)]

end Sys2Proof.Machine

/-! ### Host accesses of the T2 window (R460) -/

namespace Sys2Proof.Machine

@[simp] theorem State.toHost_answer (s : State) (bs : List Byte) (bad : Bool) : (s.toHost bs bad).host.answer = bs := rfl
@[simp] theorem State.toHost_answerBad (s : State) (bs : List Byte) (bad : Bool) : (s.toHost bs bad).host.answerBad = bad := rfl

/-- A host access of n bytes at an offset reaches the object: its lines are tracked (R461) and its range is touched. -/
def State.windowReach (s : State) (l : Fin 2) (o : Obj) (off n : Nat) : State :=
  ((lineRange off n).foldl (fun st i => st.track l i) s).vaTouch o.ctx (o.base + off) n

/-- What the host gets of a read beyond the object: n bytes of free value, poisoned. -/
def State.poisonToHost (s : State) (n : Nat) : State :=
  ({ s with free := s.free + 1 } : State).toHost (toLe n (Config.freeNat s.free)) true

@[simp] theorem State.poisonToHost_answerBad (s : State) (n : Nat) : (s.poisonToHost n).host.answerBad = true := rfl
@[simp] theorem State.poisonToHost_memory (s : State) (n : Nat) : (s.poisonToHost n).memory = s.memory := rfl
@[simp] theorem State.poisonToHost_regs (s : State) (n : Nat) : (s.poisonToHost n).regs = s.regs := rfl

section
variable {s : State} {l : Fin 2} {o : Obj} {off len : Nat} {data : List Byte}
  (hclock : s.power.stopped = false) (hcommitted : (s.link l).committed = true) (hmem : (s.link l).cxlMem = true) (hwindow : s.window = some o)
include hclock hcommitted hmem hwindow

/-- A write within the object stores at BASE + off; how many bytes it stores is the length of its data. -/
theorem exec_windowWrite_inside (hin : off + data.length ≤ o.size) :
    exec (.hostWindowAccess l true off len data) s = .next (s.after ((s.windowReach l o off data.length).vaWrite o.ctx (o.base + off) data)) := by
  simp only [exec, execHostWindowAccess, run_eq s _ hclock]
  simp [hcommitted, hmem, hwindow, hin, State.windowReach]

/-- A read within the object returns what lies at BASE + off, with its poison. -/
theorem exec_windowRead_inside {bs : List Byte} {bad : Bool} (hin : off + len ≤ o.size)
    (hread : (s.windowReach l o off len).vaRead o.ctx (o.base + off) len = some (bs, bad)) :
    exec (.hostWindowAccess l false off len data) s = .next (s.after ((s.windowReach l o off len).toHost bs bad)) := by
  unfold State.windowReach at hread
  simp only [exec, execHostWindowAccess, run_eq s _ hclock]
  simp [hcommitted, hmem, hwindow, hin, hread, State.windowReach]

/-- A write that ends beyond the object is dropped and counted in HST_WIN_STAT_l.OOR. -/
theorem exec_windowWrite_beyond (hout : o.size < off + data.length) :
    exec (.hostWindowAccess l true off len data) s = .next (s.after (s.count .hstWinStat l 0 16 16)) := by
  simp only [exec, execHostWindowAccess, run_eq s _ hclock]
  simp [hcommitted, hmem, hwindow, Nat.not_le.mpr hout]

/-- A read that ends beyond the object is counted there too, and its data is poisoned. -/
theorem exec_windowRead_beyond (hout : o.size < off + len) :
    exec (.hostWindowAccess l false off len data) s = .next (s.after ((s.count .hstWinStat l 0 16 16).poisonToHost len)) := by
  simp only [exec, execHostWindowAccess, run_eq s _ hclock]
  simp [hcommitted, hmem, hwindow, Nat.not_le.mpr hout, State.poisonToHost]

end

/-- Settles O19: an access either ends within the object, and reaches it, or ends beyond it, and is counted: one lemma for each, of a write and of a read. -/
theorem windowAccesses : Obligations.WindowAccesses := by
  unfold Obligations.WindowAccesses
  intro s l o off hclock hcommitted hmem hwindow
  refine ⟨fun data hin => ?_, fun len s1 bs bad hin hs1 hread => ?_, fun data hout => ?_, fun len hout => ?_⟩
  · exact exec_windowWrite_inside hclock hcommitted hmem hwindow hin
  · subst hs1
    exact ⟨_, exec_windowRead_inside hclock hcommitted hmem hwindow hin hread, State.toHost_answer .., State.toHost_answerBad ..⟩
  · exact exec_windowWrite_beyond hclock hcommitted hmem hwindow hout
  · exact ⟨_, exec_windowRead_beyond hclock hcommitted hmem hwindow hout, by simp⟩

end Sys2Proof.Machine

/-! ### Steps, outcomes and canonical memories of every command -/

namespace Sys2Proof.Machine

/-- Settles O1: `step_of_pending` for the command at the front. -/
theorem stepRunsFront : Obligations.StepRunsFront := by
  unfold Obligations.StepRunsFront
  exact fun _ _ _ hp => step_of_pending hp

/-- A command that has a next state either closes it with its memories canonical and the queue of waiting commands kept, or leaves the state as it is. -/
theorem exec_next {c : Instr} {s t : State} (h : exec c s = .next t) : (∃ u, t = s.after u) ∨ t = s := by
  rcases exec_shape c s with ⟨u, hu⟩ | hs | ⟨hf, _⟩
  · exact .inl ⟨u, Host.Outcome.next.inj (h.symm.trans hu)⟩
  · exact .inr (Host.Outcome.next.inj (h.symm.trans hs))
  · cases h.symm.trans hf

/-- Settles O3: a closed state keeps the queue of waiting commands (`exec_next`). -/
theorem queueKept : Obligations.QueueKept := by
  unfold Obligations.QueueKept
  intro c s t h
  rcases exec_next h with ⟨u, rfl⟩ | rfl <;> rfl

/-- A well-formed command has a next state. -/
theorem exec_of_wf {c : Instr} (hw : c.wf = true) (s : State) : ∃ t, exec c s = .next t := by
  rcases exec_shape c s with ⟨u, hu⟩ | hs | ⟨_, hill⟩
  · exact ⟨_, hu⟩
  · exact ⟨_, hs⟩
  · simp [hw] at hill

/-- An opcode row faults exactly where its packet is not whole or carries another opcode (R50, R59). -/
theorem opcodeStep_fault_iff {op : Nat} {a f : Bool} {body : Body} {q : QueueId} {pkt : Packet} {s : State} :
    opcodeStep op a f body q pkt s = .fault .illFormed ↔ ¬(packetWhole pkt = true ∧ packetOpcode pkt = op) := by
  unfold opcodeStep
  split_ifs with h
  · cases s.findQueue q <;> simp [h, State.run, State.runAo]
  · simp [h]

/-- Settles O4: every command answers in one of the ways of `exec_shape`, and an opcode row faults as `opcodeStep_fault_iff` says. -/
theorem faultsAreIllFormed : Obligations.FaultsAreIllFormed := by
  unfold Obligations.FaultsAreIllFormed
  refine ⟨fun c s => ⟨fun r h => ?_, fun f h => ?_, fun hw => exec_of_wf hw s⟩, fun faults e he s q pkt => ?_⟩
  · rcases exec_shape c s with ⟨u, hu⟩ | hs | ⟨hf, _⟩ <;> simp_all
  · rcases exec_shape c s with ⟨u, hu⟩ | hs | ⟨hf, hill⟩
    · cases h.symm.trans hu
    · cases h.symm.trans hs
    · exact ⟨hill, Host.Outcome.fault.inj (h.symm.trans hf)⟩
  · obtain ⟨body, hbody⟩ := opcodeRows_exec faults e he
    rw [hbody, opcodeStep_fault_iff]

/-- A closed state has its memories canonical. -/
theorem memOk_after (s u : State) : (s.after u).memOk = true := State.memOk_tidy u

/-- Settles O5: every command closes its state or leaves it as it is (`exec_next`), and an idle tick closes its state. -/
theorem memoryCanonical : Obligations.MemoryCanonical := by
  unfold Obligations.MemoryCanonical
  intro s t hs h
  unfold step at h
  split at h
  · cases h
    exact memOk_after ..
  · rename_i c rest _
    rcases exec_next h with ⟨u, rfl⟩ | rfl
    · exact memOk_after ..
    · exact hs

/-- Settles O6: no memory lists anything at reset. -/
theorem resetCanonical : Obligations.ResetCanonical := by
  unfold Obligations.ResetCanonical
  exact ⟨rfl, rfl⟩

theorem after_pending (s t : State) : (s.after t).pending = s.pending := rfl

/-- With no command waiting one slow tick passes. -/
theorem step_of_no_pending {s : State} (h : s.pending = []) : step s = .next (s.after s.tick) := by
  unfold step
  simp only [h, idle]

/-- A step from well-formed waiting commands has a next state, which waits for the commands behind the first. -/
theorem step_of_pendingOk {s : State} (h : s.pendingOk = true) : ∃ t, step s = .next t ∧ t.pending = s.pending.tail := by
  cases hp : s.pending with
  | nil =>
    refine ⟨_, step_of_no_pending hp, ?_⟩
    rw [after_pending, hp, List.tail_nil]
  | cons c rest =>
    have hw : c.wf = true := by simp_all [State.pendingOk]
    obtain ⟨t, ht⟩ := exec_of_wf hw { s with pending := rest }
    exact ⟨t, (step_of_pending hp).trans ht, queueKept _ _ _ ht⟩

/-- The waiting commands stay well formed as the queue moves up. -/
theorem pendingOk_tail {s t : State} (h : s.pendingOk = true) (ht : t.pending = s.pending.tail) : t.pendingOk = true := by
  simp only [State.pendingOk, List.all_eq_true] at h ⊢
  exact fun c hc => h c (List.mem_of_mem_tail (ht ▸ hc))

/-- A run takes as many commands off the queue as it has steps. -/
theorem run_of_pendingOk (n : Nat) {s : State} (h : s.pendingOk = true) :
    ∃ t, Host.Core.run Sys2Proof.core n s = .next t ∧ t.pending = s.pending.drop n := by
  induction n generalizing s with
  | zero => exact ⟨s, rfl, rfl⟩
  | succ n ih =>
    obtain ⟨t, hstep, htail⟩ := step_of_pendingOk h
    obtain ⟨u, hrun, hdrop⟩ := ih (pendingOk_tail h htail)
    refine ⟨u, ?_, by rw [hdrop, htail, List.drop_tail]⟩
    simp only [Host.Core.run, show Host.Core.step Sys2Proof.core s = .next t from hstep]
    exact hrun

/-- Settles O7: `run_of_pendingOk`, for a run of any length and for one as long as the queue. -/
theorem wellFormedRun : Obligations.WellFormedRun := by
  unfold Obligations.WellFormedRun
  intro s n h
  obtain ⟨t, ht, _⟩ := run_of_pendingOk n h
  obtain ⟨u, hu, hdrop⟩ := run_of_pendingOk s.pending.length h
  exact ⟨⟨t, ht⟩, u, hu, by rw [hdrop, List.drop_length]⟩

/-- A command that leaves the state as it is has it closed as it is. -/
theorem after_self {s : State} (h : s.memOk = true) : s.after s = s := State.after_of_memOk s s h

/-- Settles O8: a row of the fast clocks' domain, and the packet of an opcode row, run behind the test of the clocks (`run_stopped`). -/
theorem stoppedClocks : Obligations.StoppedClocks := by
  unfold Obligations.StoppedClocks
  intro c s t hs hstopped hfast h
  have hrun (f : State → State) (hf : s.run f = .next t) : t = s := by
    rw [run_stopped s f hstopped, after_self hs] at hf
    exact (Host.Outcome.next.inj hf).symm
  cases exec_answers c with
  | fast f hx => exact hrun f ((hx s).symm.trans h)
  | always f ha _ => simp [hfast] at ha
  | starts o a p b q pkt _ hx =>
    rw [hx, opcodeStep] at h
    split_ifs at h
    cases hq : s.findQueue q with
    | none => simp_all
    | some e => simp only [hq] at h; exact hrun _ h

end Sys2Proof.Machine

/-! ### The encoding of a core program's operations (R97) -/

namespace Sys2Proof.Machine

@[simp] theorem length_toLe (n x : Nat) : (toLe n x).length = n := by
  induction n generalizing x with
  | zero => rfl
  | succ n ih => simp [toLe, ih]

/-- Little-endian bytes give their value back. -/
theorem leNat_toLe (n x : Nat) : leNat (toLe n x) = x % 2 ^ (8 * n) := by
  induction n generalizing x with
  | zero => simp [toLe, leNat, Nat.mod_one]
  | succ n ih =>
    rw [toLe, leNat, ih, BitVec.toNat_ofNat, show 8 * (n + 1) = 8 + 8 * n by ring, Nat.pow_add, Nat.mod_mul]

theorem signalOf_signalByte (k : Option (BitVec 6)) : signalOf (signalByte k) = k := by
  cases k with
  | none => rfl
  | some k =>
    have hnamed : (0b10#2 ++ k : BitVec 8).getLsbD 7 = true := by
      rw [BitVec.getLsbD_append]; rfl
    have hsignal : (0b10#2 ++ k : BitVec 8).extractLsb' 0 6 = k := by
      exact BitVec.extractLsb'_append_eq_right
    rw [signalByte, signalOf, if_pos hnamed, hsignal]

theorem extractLsb'_engine (e : BitVec 4) : (0#4 ++ e : BitVec 8).extractLsb' 0 4 = e :=
  BitVec.extractLsb'_append_eq_right

/-- Settles O9: each field is read back from its own bytes of the 16. -/
theorem operationRoundTrip : Obligations.OperationRoundTrip := by
  unfold Obligations.OperationRoundTrip
  intro o
  have hdesc : fld (Op.encode o) 4 4 = o.desc.toNat := by
    show leNat ((toLe 4 o.desc.toNat ++ toLe 8 o.imm.toNat).take 4) = _
    rw [List.take_left' (length_toLe 4 _), leNat_toLe, Nat.mod_eq_of_lt o.desc.isLt]
  have himm : fld (Op.encode o) 8 8 = o.imm.toNat := by
    show leNat (((toLe 4 o.desc.toNat ++ toLe 8 o.imm.toNat).drop 4).take 8) = _
    rw [List.drop_left' (length_toLe 4 _), List.take_of_length_le (length_toLe 8 _).le, leNat_toLe, Nat.mod_eq_of_lt o.imm.isLt]
  refine ⟨by simp [Op.encode], ?_⟩
  rw [Op.decode, hdesc, himm]
  simp only [Op.encode, List.cons_append, List.headD_cons, List.drop_succ_cons, List.drop_zero, extractLsb'_engine, signalOf_signalByte, BitVec.ofNat_toNat, BitVec.setWidth_eq]

end Sys2Proof.Machine

/-! ### Register values at reset, and accesses of 32 bits (R6) -/

namespace Sys2Proof.Machine

/-- Settles O10: no register is listed at reset, so each reads its reset value. -/
theorem resetValues : Obligations.ResetValues := by
  unfold Obligations.ResetValues
  exact ⟨fun _ _ _ _ => rfl, rfl, rfl, rfl, rfl, rfl, rfl, rfl, rfl⟩

/-- An access of another width or alignment writes nothing and reads 0 (R6). -/
theorem State.writeReg_bad (s : State) (fn : Fin 33) (link off v e : Nat) : s.writeReg fn link off .bad v e = s := by
  unfold State.writeReg
  cases Reg.at off <;> simp

theorem State.readReg_bad (s : State) (fn off v : Nat) : s.readReg fn off .bad v = (0, s) := by
  unfold State.readReg
  cases Reg.at off <;> simp

/-- What a read returns where the function sees a register: the accessed half of its view. -/
theorem State.readReg_of_seen {s : State} {fn off : Nat} {r : Reg} {i j : Nat} {a : Access} (hat : Reg.at off = some (r, i, j)) (hsees : s.seesReg fn r i = true)
    (ha : a ≠ .bad) (v : Nat) : (s.readReg fn off a v).1 = readHalf a (s.view r i j fn) := by
  simp only [State.readReg, hat]
  rw [if_neg (by simp [ha, hsees])]

/-- Where it sees none, a read returns 0. -/
theorem State.readReg_of_unseen {s : State} {fn off : Nat} (hun : ∀ r i j, Reg.at off = some (r, i, j) → s.seesReg fn r i = false) (a : Access) (v : Nat) :
    s.readReg fn off a v = (0, s) := by
  unfold State.readReg
  split
  · rename_i r i j hat
    rw [if_pos (by simp [hun r i j hat])]
  · rfl

/-- A 32-bit read returns one half of what the 64-bit read returns. -/
theorem State.readReg_half (s : State) (fn off v : Nat) :
    (s.readReg fn off .low v).1 = (s.readReg fn off .full v).1 % 2 ^ 32 ∧ (s.readReg fn off .high v).1 = (s.readReg fn off .full v).1 / 2 ^ 32 := by
  by_cases hseen : ∃ r i j, Reg.at off = some (r, i, j) ∧ s.seesReg fn r i = true
  · obtain ⟨r, i, j, hat, hsees⟩ := hseen
    simp only [State.readReg_of_seen hat hsees (by decide : Access.low ≠ .bad), State.readReg_of_seen hat hsees (by decide : Access.high ≠ .bad),
      State.readReg_of_seen hat hsees (by decide : Access.full ≠ .bad), readHalf]
    omega
  · have hun : ∀ r i j, Reg.at off = some (r, i, j) → s.seesReg fn r i = false := fun r i j hat => by
      simpa using fun hsees => hseen ⟨r, i, j, hat, hsees⟩
    simp only [State.readReg_of_unseen hun]
    decide

/-- Settles O11: a bad access leaves the state, a half read is a half of the whole read (`State.readReg_half`), and a half write is `mergeHalf`. -/
theorem accessWidths : Obligations.AccessWidths := by
  unfold Obligations.AccessWidths
  refine ⟨fun s fn off v hclock => ⟨fun e => ?_, ?_⟩, fun s fn off v => s.readReg_half fn off v, fun old v => ?_⟩
  · simp only [exec, execRegisterWrite, run_eq s _ hclock, State.writeReg_bad]
  · simp only [exec, execReadClear, run_eq s _ hclock, State.readReg_bad]
    rfl
  · simp only [mergeHalf]
    omega

end Sys2Proof.Machine

/-! ### A slow tick at whose end nothing is held (R535) -/

namespace Sys2Proof.Machine

/-- What a tick that holds nothing leaves alone, with the count of ticks. -/
def State.atRest (s : State) : List Queue × List Obj × List Far × HostSide × Fabric × Riser × Moves × Cores × Nat :=
  (s.queues, s.memory.objs, s.memory.far, s.host, s.fabric, s.riser, s.moves, s.cores, s.now)

@[simp] theorem State.count_atRest (s : State) (r : Reg) (i j lo w n fn : Nat) : (s.count r i j lo w n fn).atRest = s.atRest := by
  simp [State.atRest]

@[simp] theorem State.countK_atRest (s : State) (r : Reg) (i lo w n : Nat) : (s.countK r i lo w n).atRest = s.atRest := by
  unfold State.countK
  split
  · rfl
  · exact State.count_atRest ..

@[simp] theorem State.countRefresh_atRest (s : State) : s.countRefresh.atRest = s.atRest := by
  unfold State.countRefresh
  split
  · rfl
  · refine foldl_keeps State.atRest (fun st k => ?_) _ s
    dsimp only
    split_ifs <;> simp

@[simp] theorem State.countPhases_atRest (s : State) : s.countPhases.atRest = s.atRest :=
  foldl_keeps State.atRest (fun _ _ => State.countK_atRest ..) _ s

/-- The parts of `State.calmTick`. -/
theorem State.calmTick_iff (s : State) : s.calmTick = true ↔
    s.due = [] ∧ s.fresh = [] ∧ s.riser.asks = [] ∧ s.moves.damages = [] ∧ s.memory.pageMoves = [] ∧ s.memory.xlat.found = [] ∧
    (∀ c ∈ s.queues.flatMap (·.running), c.ballot = none) ∧ s.tenants.parts.all (fun p => s.moveSlots p.id == 0 && p.slotWait.isEmpty) = true := by
  simp only [State.calmTick, Bool.and_eq_true, List.isEmpty_iff, List.all_eq_true, Option.isNone_iff_eq_none, and_assoc]

theorem State.damagesAtTick_of_none {s : State} (h : s.moves.damages = []) : s.damagesAtTick = s := by
  simp only [State.damagesAtTick, h, List.foldl_nil]

theorem State.votesAtTick_of_none {s : State} (h : ∀ c ∈ s.queues.flatMap (·.running), c.ballot = none) : s.votesAtTick = s := by
  have hnone : (s.queues.flatMap (·.running)).filter (fun c => c.ballot.isSome) = [] := List.filter_eq_nil_iff.mpr fun c hc => by simp [h c hc]
  simp only [State.votesAtTick, hnone, insSort, List.foldl_nil, ite_self]

theorem State.timeouts_of_none {s : State} (h : s.due = []) : s.timeouts = s := by
  have hs : ({ s with due := [] } : State) = s := by rw [← h]
  simp only [State.timeouts, h, List.filter_nil, insSort, List.foldl_nil, hs]

theorem State.slotsAtTick_of_none {s : State} (h : s.tenants.parts.all (fun p => s.moveSlots p.id == 0 && p.slotWait.isEmpty) = true) : s.slotsAtTick = s :=
  if_pos h

theorem State.movesAtTick_of_none {s : State} (hmoves : s.memory.pageMoves = []) (hfound : s.memory.xlat.found = []) : s.movesAtTick = s := by
  have hs : ({ s with memory := { s.memory with xlat := { s.memory.xlat with found := [] } } } : State) = s := by rw [← hfound]
  have hstay : (if s.memory.pageMoves.isEmpty then s else s.stepMoves.settleMigrations) = s := if_pos (by simp [hmoves])
  simp only [State.movesAtTick, hstay, hfound, List.foldl_nil]
  exact hs

theorem State.serveAsks_of_none {s : State} (h : s.riser.asks = []) : s.serveAsks = s := by
  have hs : ({ s with riser := { s.riser with asks := [] } } : State) = s := by rw [← h]
  simp only [State.serveAsks, h, insSort, List.foldl_nil, hs]

theorem State.writeEvents_of_none {s : State} (h : s.fresh = []) : s.writeEvents = s := by
  have hs : ({ s with fresh := [] } : State) = s := by rw [← h]
  simp only [State.writeEvents, h, insSort, List.foldl_nil, hs]

/-- Where nothing is held, a tick only counts. -/
theorem State.tick_atRest {s : State} (h : s.calmTick = true) : s.tick.atRest = ({ s with now := s.now + 1 } : State).atRest := by
  obtain ⟨hdue, hfresh, hasks, hdamages, hmoves, hfound, hballots, hslots⟩ := s.calmTick_iff.mp h
  have hend : s.damagesAtTick.votesAtTick.timeouts.slotsAtTick.movesAtTick.serveAsks.writeEvents = s := by
    rw [State.damagesAtTick_of_none hdamages, State.votesAtTick_of_none hballots, State.timeouts_of_none hdue, State.slotsAtTick_of_none hslots,
      State.movesAtTick_of_none hmoves hfound, State.serveAsks_of_none hasks, State.writeEvents_of_none hfresh]
  unfold State.tick
  rw [hend]
  exact (State.countPhases_atRest _).trans (State.countRefresh_atRest _)

/-- Sorted by their rank, a park limit comes before a command's timeout, whichever came first. -/
theorem State.timeouts_park_command {s : State} {u x : Nat} (hclock : s.power.stopped = false) (hdue : s.due = [.command u, .park x] ∨ s.due = [.park x, .command u]) :
    s.timeouts = (({ s with due := [] } : State).parkExpired x).timeoutCommand u := by
  have hsorted : insSort Expiry.rank (s.due.filter (fun e => !s.power.stopped || e.alwaysOn)) = [.park x, .command u] := by
    rcases hdue with hdue | hdue <;> simp [hdue, hclock, insSort, insSort.ins, Expiry.rank]
  rw [State.timeouts, hsorted]
  rfl

/-- Settles O2: an idle step is a tick (`step_of_no_pending`), which only counts where nothing is held (`State.tick_atRest`). -/
theorem idleTick : Obligations.IdleTick := by
  unfold Obligations.IdleTick
  refine ⟨fun s hs hp hcalm => ?_, fun s hp => step_of_no_pending hp, fun s u x hclock hdue => State.timeouts_park_command hclock hdue⟩
  have hrest := State.tick_atRest hcalm
  rw [step_of_no_pending hp]
  generalize s.tick = t at hrest
  simp only [State.atRest, Prod.mk.injEq] at hrest
  obtain ⟨hqueues, hobjs, hfar, hhost, hfabric, hriser, hmoves, hcores, hnow⟩ := hrest
  have ht : t.memOk = true := State.memOk_congr hs hobjs (congrArg Cores.cores hcores) (congrArg HostSide.mem hhost)
  refine ⟨_, rfl, ?_⟩
  rw [State.after_of_memOk s _ ht]
  exact ⟨hnow, hp, hqueues, hobjs, hfar, hhost, hfabric, hriser, hmoves, fun c => by simp only [State.core, hcores]⟩

end Sys2Proof.Machine

/-! ### Where the rows of a table lie (R303, R306) -/

namespace Sys2Proof.Machine

theorem Table.stride_eq (t : Table) : t.stride = 32 * ((8 + t.width * t.bits / 8 + 31) / 32) := rfl

theorem Table.stride_pos (t : Table) : 0 < t.stride := by
  rw [Table.stride_eq]
  omega

/-- As many rows as a page holds fit in it. -/
theorem Table.rpp_mul_stride_le (t : Table) : t.rpp * t.stride ≤ pageBytes := Nat.div_mul_le_self _ _

theorem Table.rpp_pos {t : Table} (h : t.stride ≤ pageBytes) : 0 < t.rpp := Nat.div_pos h t.stride_pos

/-- A row ends within its page. -/
theorem Table.row_in_page {t : Table} (h : t.stride ≤ pageBytes) (r : Nat) : r % t.rpp * t.stride + t.stride ≤ pageBytes := by
  have hrow : r % t.rpp + 1 ≤ t.rpp := Nat.mod_lt r (Table.rpp_pos h)
  calc r % t.rpp * t.stride + t.stride = (r % t.rpp + 1) * t.stride := by ring
    _ ≤ t.rpp * t.stride := Nat.mul_le_mul_right _ hrow
    _ ≤ pageBytes := t.rpp_mul_stride_le

/-- A later row begins where an earlier one has ended: it lies in a later page, or later in the same page. -/
theorem Table.rowAddr_step {t : Table} (h : t.stride ≤ pageBytes) {r r' : Nat} (hlt : r < r') : t.rowAddr r + t.stride ≤ t.rowAddr r' := by
  simp only [Table.rowAddr, Nat.add_assoc]
  refine Nat.add_le_add_left ?_ _
  rcases (Nat.div_le_div_right (c := t.rpp) hlt.le).lt_or_eq with hpage | hpage
  · calc r / t.rpp * pageBytes + (r % t.rpp * t.stride + t.stride) ≤ r / t.rpp * pageBytes + pageBytes := Nat.add_le_add_left (Table.row_in_page h r) _
      _ = (r / t.rpp + 1) * pageBytes := by ring
      _ ≤ r' / t.rpp * pageBytes := Nat.mul_le_mul_right _ hpage
      _ ≤ _ := Nat.le_add_right _ _
  · have hmod : r % t.rpp + 1 ≤ r' % t.rpp := by
      have hr := Nat.div_add_mod r t.rpp
      have hr' := Nat.div_add_mod r' t.rpp
      rw [hpage] at hr
      omega
    rw [hpage]
    refine Nat.add_le_add_left ?_ _
    calc r % t.rpp * t.stride + t.stride = (r % t.rpp + 1) * t.stride := by ring
      _ ≤ _ := Nat.mul_le_mul_right _ hmod

theorem Table.rowAddr_mod {t : Table} (hbase : t.base % pageBytes = 0) (h : t.stride ≤ pageBytes) (r : Nat) :
    t.rowAddr r % pageBytes = r % t.rpp * t.stride := by
  have hin := Table.row_in_page h r
  have hpos := t.stride_pos
  have hpage : t.rowAddr r % pageBytes = r % t.rpp * t.stride % pageBytes := by
    rw [Table.rowAddr, Nat.add_mod, Nat.add_mul_mod_self_right, hbase, Nat.zero_add, Nat.mod_mod]
  rw [hpage, Nat.mod_eq_of_lt (by omega)]

theorem Table.hash_lt (t : Table) (id : Nat) (h : 0 < t.rows) : t.hash id < t.rows := by
  rw [Table.hash, Nat.div_lt_iff_lt_mul (by decide), Nat.mul_comm t.rows]
  exact Nat.mul_lt_mul_of_pos_right (Nat.mod_lt _ (by decide)) h

/-- Settles O20: rows lie `stride` apart within their page (`Table.row_in_page`) and each page after the last (`Table.rowAddr_step`). -/
theorem tableRows : Obligations.TableRows := by
  unfold Obligations.TableRows
  intro t r r' hbase hstride
  refine ⟨t.stride_eq, rfl, rfl, ?_, Table.rowAddr_step hstride, fun id => t.hash_lt id⟩
  rw [Table.rowAddr_mod hbase hstride]
  exact Table.row_in_page hstride r

end Sys2Proof.Machine

/-! ### What rows leave unchanged -/

namespace Sys2Proof.Machine

/-- An effect that leaves the memories and the waiting commands is closed as it stands. -/
theorem after_of_kept {s u : State} (hs : s.memOk = true) (hp : u.pending = s.pending) (hm : u.memory.objs = s.memory.objs) (hc : u.cores.cores = s.cores.cores)
    (hh : u.host.mem = s.host.mem) : s.after u = u := by
  rw [State.after_of_memOk s u (State.memOk_congr hs hm hc hh), ← hp]

theorem eq_of_kept {s t u : State} (ht : t = s.after u) (hs : s.memOk = true) (hp : u.pending = s.pending) (hm : u.memory.objs = s.memory.objs)
    (hc : u.cores.cores = s.cores.cores) (hh : u.host.mem = s.host.mem) : t = u :=
  ht.trans (after_of_kept hs hp hm hc hh)

/-- The next state of a row of the fast clocks' domain: its effect closed, or with the clocks stopped the state as it was. -/
theorem next_of_run {s t : State} {f : State → State} (hs : s.memOk = true) (h : s.run f = .next t) : t = s.after (f s) ∨ t = s := by
  unfold State.run State.runAo at h
  obtain rfl := Host.Outcome.next.inj h
  cases hstop : s.power.stopped with
  | true => exact .inr (by simp only [hstop, if_true, after_self hs])
  | false => exact .inl (by simp only [hstop, if_false, Bool.false_eq_true])

theorem next_of_runAo {s t : State} {f : State → State} (h : s.runAo f = .next t) : t = s.after (f s) := (Host.Outcome.next.inj h).symm

theorem State.setReg_eq (s : State) (r : Reg) (i j v fn : Nat) : s.setReg r i j v fn = { s with regs := (s.setReg r i j v fn).regs } := by
  unfold State.setReg
  split <;> rfl

theorem State.count_eq (s : State) (r : Reg) (i j lo w n fn : Nat) : s.count r i j lo w n fn = { s with regs := (s.count r i j lo w n fn).regs } := by
  unfold State.count
  split
  · rfl
  · exact State.setReg_eq ..

theorem spdmRequest_sec (s : State) (req : SpdmReq) : ∃ x, exec (.spdmRequest req) s = .next (s.after { s with sec := x }) := by
  simp only [exec, execSpdmRequest, State.runAo]
  cases req with
  | keyExchange => cases firstFree 4 s.sec.sessions <;> exact ⟨_, rfl⟩
  | endSession n => dsimp only; split <;> exact ⟨_, rfl⟩
  | keyUpdate n => dsimp only; split <;> exact ⟨_, rfl⟩
  | heartbeat n => dsimp only; split <;> exact ⟨_, rfl⟩
  | getMeasurements i => dsimp only; split_ifs <;> exact ⟨_, rfl⟩
  | getCertificate n => dsimp only; split <;> exact ⟨_, rfl⟩
  | challenge => exact ⟨_, rfl⟩
  | chunk => exact ⟨_, rfl⟩
  | unsupported => exact ⟨_, rfl⟩

theorem keySlotSet_sec (s : State) (n : Fin 4) (slot : Fin 64) (key : Option (List Byte)) : ∃ x, exec (.keySlotSet n slot key) s = .next (s.after { s with sec := x }) := by
  simp only [exec, execKeySlotSet, State.runAo]
  split_ifs <;> exact ⟨_, rfl⟩

section
variable {s t : State} (hs : s.memOk = true)
include hs

theorem secFrame {c : Instr} (h : exec c s = .next t) (hsec : ∃ x, exec c s = .next (s.after { s with sec := x })) : t = { s with sec := t.sec } := by
  obtain ⟨x, hx⟩ := hsec
  obtain rfl := eq_of_kept (Host.Outcome.next.inj (h.symm.trans hx)) hs rfl rfl rfl rfl
  rfl

theorem riserRewriteTimer_frame {u : BitVec 32} (h : exec (.riserRewriteTimer u) s = .next t) : t = { s with riser := t.riser } := by
  simp only [exec, execRiserRewriteTimer] at h
  have ht := next_of_runAo h
  split at ht
  · obtain rfl := eq_of_kept ht hs rfl rfl rfl rfl
    rfl
  · obtain rfl := eq_of_kept ht hs rfl rfl rfl rfl
    rfl

theorem refreshWindow_frame (h : exec .refreshWindow s = .next t) : t = { s with tenants := t.tenants } := by
  simp only [exec, execRefreshWindow] at h
  rcases next_of_run hs h with ht | rfl
  · obtain rfl := eq_of_kept ht hs rfl rfl rfl rfl
    rfl
  · rfl

theorem hostLinkRecovery_frame {l : Fin 2} (h : exec (.hostLinkRecovery l) s = .next t) : t = { s with regs := t.regs } := by
  simp only [exec, execHostLinkRecovery] at h
  rcases next_of_run hs h with ht | rfl
  · split at ht
    · rw [State.count_eq] at ht
      obtain rfl := eq_of_kept ht hs rfl rfl rfl rfl
      rfl
    · obtain rfl := eq_of_kept ht hs rfl rfl rfl rfl
      rfl
  · rfl

theorem perstRelease_frame {l : Fin 2} (h : exec (.perstRelease l) s = .next t) : t = { s with host := t.host } ∧ t.host.mem = s.host.mem := by
  simp only [exec, execPerstRelease] at h
  rcases next_of_run hs h with ht | rfl
  · obtain rfl := eq_of_kept ht hs rfl rfl rfl rfl
    exact ⟨rfl, rfl⟩
  · exact ⟨rfl, rfl⟩

end

/-- Settles O25: each row's effect is an update of the part named, and such an update is closed as it stands (`eq_of_kept`). -/
theorem managementFrame : Obligations.ManagementFrame := by
  unfold Obligations.ManagementFrame
  intro c s t hs h
  refine ⟨?_, ?_, ?_, ?_, ?_⟩
  · rintro (⟨r, rfl⟩ | ⟨n, i, key, rfl⟩)
    · exact secFrame hs h (spdmRequest_sec s r)
    · exact secFrame hs h (keySlotSet_sec s n i key)
  · rintro ⟨u, rfl⟩
    exact riserRewriteTimer_frame hs h
  · rintro rfl
    exact refreshWindow_frame hs h
  · rintro ⟨l, rfl⟩
    exact hostLinkRecovery_frame hs h
  · rintro ⟨l, rfl⟩
    exact perstRelease_frame hs h

end Sys2Proof.Machine

/-! ### Replacing one entry of a list -/

namespace Sys2Proof.Machine

/-- A test that holds of an entry that another test picks does not see that entry replaced. -/
theorem find?_put_of_ne {α : Type} (l : List α) {p q : α → Bool} {x : α} (hx : q x = false) (hp : ∀ y, p y = true → q y = false) :
    (put l p x).find? q = l.find? q := by
  unfold put
  split
  · induction l with
    | nil => rfl
    | cons y ys ih =>
      have htail : (ys.map (fun y => if p y then x else y)).find? q = ys.find? q := by
        by_cases hany : ys.any p = true
        · exact ih hany
        · have hnone : ∀ y ∈ ys, p y = false := by simpa using hany
          rw [List.map_congr_left (g := id) (fun y hy => by simp [hnone y hy]), List.map_id]
      cases hy : p y with
      | true => simp [hy, hx, hp, htail]
      | false => simp only [List.map_cons, hy, Bool.false_eq_true, if_false, List.find?_cons, htail]
  · simp [hx]

/-- An entry put where a test picks is what the test then finds. -/
theorem find?_put_self {α : Type} (l : List α) {p : α → Bool} {x : α} (hx : p x = true) : (put l p x).find? p = some x := by
  unfold put
  split_ifs with hany
  · induction l with
    | nil => simp at hany
    | cons y ys ih =>
      cases hy : p y with
      | true => simp [hy, hx]
      | false => simpa [hy] using ih (by simpa [hy] using hany)
  · have hnone : l.find? p = none := by simpa using hany
    simp [hnone, hx]

theorem State.port_id (s : State) (k : Nat) : (s.port k).id = k := by
  unfold State.port
  cases h : s.fabric.ports.find? (·.id == k) with
  | none => rfl
  | some p => simpa using List.find?_some h

theorem State.port_putPort_of_ne (s : State) {p : Port} {j : Nat} (h : j ≠ p.id) : (s.putPort p).port j = s.port j := by
  have hfind : (put s.fabric.ports (·.id == p.id) p).find? (·.id == j) = s.fabric.ports.find? (·.id == j) := by
    refine find?_put_of_ne _ (by simpa using h.symm) fun q hq => ?_
    have hid : q.id = p.id := by simpa using hq
    simpa [hid] using h.symm
  simp only [State.port, State.putPort, hfind]

theorem State.port_putPort_self (s : State) (p : Port) : (s.putPort p).port p.id = p := by
  simp only [State.port, State.putPort, find?_put_self s.fabric.ports (p := (·.id == p.id)) (x := p) (by simp), Option.getD_some]

end Sys2Proof.Machine

/-! ### Rows of one port -/

namespace Sys2Proof.Machine

/-- A change of one port: registers and ports change alone, and no other port. -/
def PortChange (k : Nat) (s u : State) : Prop :=
  u = { s with fabric := u.fabric, regs := u.regs } ∧ ∀ j, j ≠ k → u.port j = s.port j

theorem PortChange.refl (k : Nat) (s : State) : PortChange k s s := ⟨rfl, fun _ _ => rfl⟩

theorem PortChange.trans {k : Nat} {s u v : State} (hu : PortChange k s u) (hv : PortChange k u v) : PortChange k s v := by
  obtain ⟨hu1, hu2⟩ := hu
  obtain ⟨hv1, hv2⟩ := hv
  refine ⟨?_, fun j hj => (hv2 j hj).trans (hu2 j hj)⟩
  rw [hu1] at hv1
  exact hv1

theorem PortChange.putPort {k : Nat} (s : State) {p : Port} (hp : p.id = k) : PortChange k s (s.putPort p) :=
  ⟨rfl, fun _ hj => s.port_putPort_of_ne (hp ▸ hj)⟩

/-- A change that keeps a port's number. -/
theorem PortChange.modPort (s : State) (k : Nat) {f : Port → Port} (hf : ∀ p, (f p).id = p.id) : PortChange k s (s.modPort k f) :=
  PortChange.putPort s ((hf _).trans (s.port_id k))

theorem PortChange.count (k : Nat) (s : State) (r : Reg) (i j lo w n fn : Nat) : PortChange k s (s.count r i j lo w n fn) := by
  rw [State.count_eq]
  exact ⟨rfl, fun _ _ => rfl⟩

theorem Port.takeCredit_id {p q : Port} {vc : Nat} (h : p.takeCredit vc = some q) : q.id = p.id := by
  unfold Port.takeCredit at h
  split_ifs at h <;> obtain rfl := Option.some.inj h <;> rfl

theorem Port.sendFlits_id (l : List TxFlit) (blocked : List Nat) (p : Port) : (Port.sendFlits l blocked p).id = p.id := by
  induction l generalizing blocked p with
  | nil => rfl
  | cons f l ih =>
    unfold Port.sendFlits
    split
    · exact ih ..
    · cases h : p.takeCredit f.vc with
      | none => exact ih ..
      | some q =>
        have hq : q.id = p.id := Port.takeCredit_id h
        exact (ih ..).trans hq

theorem Port.pump_id (p : Port) : p.pump.id = p.id := by
  unfold Port.pump
  split_ifs
  · rfl
  · rfl
  · rfl
  · exact Port.sendFlits_id ..

theorem Port.common_id (p : Port) (f : List Byte) : (p.common f).id = p.id := by
  unfold Port.common
  dsimp only [Port.settle]
  split <;> exact Port.pump_id _

theorem PortChange.startRetrain (s : State) (k : Nat) : PortChange k s (s.startRetrain k) := by
  unfold State.startRetrain
  dsimp only
  split
  · refine PortChange.trans (PortChange.putPort s ?_) (PortChange.count ..)
    exact s.port_id k
  · exact .refl ..

theorem PortChange.rxFlit (s : State) (k w : Nat) (fec : Option (Fin 31)) : PortChange k s (s.rxFlit k w fec) := by
  unfold State.rxFlit
  dsimp only
  split
  · exact (PortChange.modPort s k fun _ => by rfl).trans (PortChange.count ..)
  · exact PortChange.modPort s k fun _ => by rfl

/-- A row whose effect is a change of one port. -/
theorem PortChange.of_run {s t : State} {k : Nat} {f : State → State} (hs : s.memOk = true) (h : s.run f = .next t) (hf : PortChange k s (f s)) :
    t = { s with fabric := t.fabric, regs := t.regs } ∧ ∀ j : Fin 36, j.val ≠ k → t.port j = s.port j := by
  rcases next_of_run hs h with ht | rfl
  · obtain ⟨hchange, hports⟩ := hf
    rw [hchange] at ht
    have ht' := eq_of_kept ht hs rfl rfl rfl rfl
    rw [← hchange] at ht'
    subst ht'
    exact ⟨hchange, fun j hj => hports j hj⟩
  · exact ⟨rfl, fun _ _ => rfl⟩

/-- Settles O23: each row's effect is made of changes of its own port (`PortChange`). -/
theorem linkFrame : Obligations.LinkFrame := by
  unfold Obligations.LinkFrame
  intro c s t k hs h
  refine ⟨?_, fun hc => ?_⟩
  · rintro ⟨g, rfl⟩
    simp only [exec, execCompletionCacheExpiry] at h
    rcases next_of_run hs h with ht | rfl
    · obtain rfl := eq_of_kept ht hs rfl rfl rfl rfl
      rfl
    · rfl
  · have hframe : t = { s with fabric := t.fabric, regs := t.regs } ∧ ∀ j : Fin 36, j.val ≠ k.val → t.port j = s.port j := by
      rcases hc with rfl | rfl | ⟨w, rfl⟩ | ⟨a, w, rfl⟩ | ⟨w, n, f, hok, rfl⟩
      · simp only [exec, execNakResendTimer] at h
        refine PortChange.of_run hs h ?_
        split
        · exact PortChange.modPort s k fun _ => by rfl
        · exact .refl ..
      · simp only [exec, execRetrain] at h
        exact PortChange.of_run hs h (.startRetrain s k)
      · simp only [exec, execCodewordLockLoss] at h
        exact PortChange.of_run hs h (.startRetrain s k)
      · simp only [exec, execWidth] at h
        refine PortChange.of_run hs h ?_
        split
        · exact PortChange.modPort s k fun _ => by rfl
        · exact .refl ..
      · simp only [exec, execIdleFlit] at h
        refine PortChange.of_run hs h ((PortChange.rxFlit s k w (some n)).trans ?_)
        rw [Option.isNone_some, hok, if_neg (by simp)]
        split
        · exact .refl ..
        · exact PortChange.modPort _ k fun p => p.common_id f
    exact ⟨hframe.1, fun j hj => hframe.2 j (Fin.val_ne_of_ne hj)⟩

end Sys2Proof.Machine

/-! ### Rows of one core's program -/

namespace Sys2Proof.Machine

theorem State.core_id (s : State) (c : Nat) : (s.core c).id = c := by
  unfold State.core
  cases h : s.cores.cores.find? (·.id == c) with
  | none => rfl
  | some p => simpa using List.find?_some h

theorem State.core_putCore_of_ne (s : State) {q : Core} {j : Nat} (h : j ≠ q.id) : (s.putCore q).core j = s.core j := by
  have hfind : (put s.cores.cores (·.id == q.id) q).find? (·.id == j) = s.cores.cores.find? (·.id == j) := by
    refine find?_put_of_ne _ (by simpa using h.symm) fun p hp => ?_
    have hid : p.id = q.id := by simpa using hp
    simpa [hid] using h.symm
  simp only [State.core, State.putCore, hfind]

theorem State.core_putCore_self (s : State) (q : Core) : (s.putCore q).core q.id = q := by
  simp only [State.core, State.putCore, find?_put_self s.cores.cores (p := (·.id == q.id)) (x := q) (by simp), Option.getD_some]

/-- A change of a core that keeps its number is what the core then is. -/
theorem State.core_modCore_self (s : State) (c : Nat) {f : Core → Core} (hf : ∀ k, (f k).id = k.id) : (s.modCore c f).core c = f (s.core c) := by
  have hself := s.core_putCore_self (f (s.core c))
  rw [hf, s.core_id] at hself
  exact hself

theorem State.core_modCore_of_ne (s : State) {c j : Nat} {f : Core → Core} (hf : ∀ k, (f k).id = k.id) (h : j ≠ c) : (s.modCore c f).core j = s.core j :=
  s.core_putCore_of_ne (by rw [hf, s.core_id]; exact h)

/-- A core's own store and those saved with it are canonical. -/
def Core.memOk (k : Core) : Bool := k.store.wf && k.saved.all (fun v => v.store.wf)

theorem Core.memOk_of_memOk {s : State} (hs : s.memOk = true) (c : Nat) : (s.core c).memOk = true := by
  simp only [State.memOk, Bool.and_eq_true, List.all_eq_true] at hs
  unfold State.core
  cases h : s.cores.cores.find? (·.id == c) with
  | none => rfl
  | some k =>
    have hk := hs.1.2 k (List.mem_of_find?_eq_some h)
    simpa [Core.memOk, List.all_eq_true] using hk

theorem all_put {α : Type} {l : List α} {p : α → Bool} {x : α} {q : α → Bool} (hl : l.all q = true) (hx : q x = true) : (put l p x).all q = true := by
  rw [List.all_eq_true] at hl ⊢
  unfold put
  split
  · simp only [List.mem_map]
    rintro _ ⟨y, hy, rfl⟩
    split
    · exact hx
    · exact hl y hy
  · simp only [List.mem_append, List.mem_singleton]
    rintro y (hy | rfl)
    · exact hl y hy
    · exact hx

theorem memOk_putCore {s : State} {q : Core} (hs : s.memOk = true) (hq : q.memOk = true) : (s.putCore q).memOk = true := by
  simp only [State.memOk, Bool.and_eq_true] at hs ⊢
  exact ⟨⟨hs.1.1, all_put hs.1.2 hq⟩, hs.2⟩

/-- A change of the program of one core: no memory, no queue, no stream, no other core. -/
structure RunChange (c : Nat) (s u : State) : Prop where
  memory : u.memory = s.memory
  queues : u.queues = s.queues
  embed : u.embed = s.embed
  cru : u.cru = s.cru
  moves : u.moves = s.moves
  host : u.host = s.host
  store : ∀ j, (u.core j).store = (s.core j).store
  other : ∀ j, j ≠ c → u.core j = s.core j
  ok : s.memOk = true → u.memOk = true

theorem RunChange.refl (c : Nat) (s : State) : RunChange c s s := ⟨rfl, rfl, rfl, rfl, rfl, rfl, fun _ => rfl, fun _ _ => rfl, id⟩

theorem RunChange.trans {c : Nat} {s u v : State} (h : RunChange c s u) (g : RunChange c u v) : RunChange c s v :=
  ⟨g.memory.trans h.memory, g.queues.trans h.queues, g.embed.trans h.embed, g.cru.trans h.cru, g.moves.trans h.moves, g.host.trans h.host,
    fun j => (g.store j).trans (h.store j), fun j hj => (g.other j hj).trans (h.other j hj), g.ok ∘ h.ok⟩

/-- A change of a core that keeps its number, its store and the stores saved. -/
theorem RunChange.modCore (s : State) (c : Nat) {f : Core → Core} (hid : ∀ k, (f k).id = k.id) (hstore : ∀ k, (f k).store = k.store) (hsaved : ∀ k, (f k).saved = k.saved) :
    RunChange c s (s.modCore c f) where
  memory := rfl
  queues := rfl
  embed := rfl
  cru := rfl
  moves := rfl
  host := rfl
  store j := by
    by_cases hj : j = c
    · subst hj; rw [s.core_modCore_self j hid, hstore]
    · rw [s.core_modCore_of_ne hid hj]
  other j hj := s.core_modCore_of_ne hid hj
  ok hs := memOk_putCore hs (by simpa only [Core.memOk, hstore, hsaved] using Core.memOk_of_memOk hs c)

theorem RunChange.modRun (s : State) (c : Nat) (f : Run → Run) : RunChange c s (s.modRun c f) :=
  RunChange.modCore s c (fun _ => rfl) (fun _ => rfl) (fun _ => rfl)

/-- A change that keeps every part named. -/
theorem RunChange.of_parts {c : Nat} {s u : State} (hmem : u.memory = s.memory) (hq : u.queues = s.queues) (he : u.embed = s.embed) (hc : u.cru = s.cru)
    (hm : u.moves = s.moves) (hh : u.host = s.host) (hcores : u.cores = s.cores) : RunChange c s u :=
  ⟨hmem, hq, he, hc, hm, hh, fun j => by simp only [State.core, hcores], fun j _ => by simp only [State.core, hcores],
    fun hs => State.memOk_congr hs (congrArg Memory.objs hmem) (congrArg Cores.cores hcores) (congrArg HostSide.mem hh)⟩

/-- What posting a signal can do: nothing, count it, or keep it at 0xFFFF with the core's saturation shown (R105, R106). -/
theorem State.post_cases (s : State) (c : Nat) (sig : Option (BitVec 6)) :
    s.post c sig = s ∨ (∃ f, s.post c sig = s.modRun c f) ∨
      ∃ k f, s.post c sig = (((s.count .coreSigsat c 0 0 32).setField .coreSigsat c 0 32 6 k).flag .coreStat c 0 4).modRun c f := by
  unfold State.post
  cases sig with
  | none => exact .inl rfl
  | some k =>
    cases (s.core c).run with
    | none => exact .inl rfl
    | some r =>
      dsimp only
      by_cases hn : r.count k.toNat < 0xFFFF
      · rw [if_pos hn]
        exact .inr (.inl ⟨_, rfl⟩)
      · rw [if_neg hn]
        exact .inr (.inr ⟨_, _, rfl⟩)

theorem RunChange.post (s : State) (c : Nat) (sig : Option (BitVec 6)) : RunChange c s (s.post c sig) := by
  rcases s.post_cases c sig with h | ⟨f, h⟩ | ⟨k, f, h⟩ <;> rw [h]
  · exact .refl ..
  · exact .modRun ..
  · refine RunChange.trans (.of_parts ?_ ?_ ?_ ?_ ?_ ?_ ?_) (.modRun ..) <;> simp

/-- An event joins those kept and those of its tick. -/
theorem State.event_eq (s : State) (k : EventKind) (part unit : Nat) (data : List Byte) : ∃ e f, s.event k part unit data = { s with events := e, fresh := f } :=
  ⟨_, _, rfl⟩

theorem RunChange.event {c : Nat} (s : State) (k : EventKind) (part unit : Nat) (data : List Byte) : RunChange c s (s.event k part unit data) := by
  obtain ⟨e, f, h⟩ := s.event_eq k part unit data
  rw [h]
  exact .of_parts rfl rfl rfl rfl rfl rfl rfl

/-- A core with a program on it. -/
def Core.withRun (k : Core) (r : Run) : Core := { k with run := some r }

/-- What settling a core can do: nothing, bring its program to rest, or find it in a deadlock, with an event (R107). -/
theorem State.settle_cases (s : State) (c : Nat) :
    s.settle c = s ∨ ∃ r, s.settle c = s.modCore c (·.withRun r) ∨ r.deadlock = true ∧ ∃ p, s.settle c = (s.modCore c (·.withRun r)).event .deadlock p (coreUnit c) := by
  unfold State.settle
  cases (s.core c).run with
  | none => exact .inl rfl
  | some r =>
    dsimp only
    split
    · rename_i hdead
      exact .inr ⟨_, .inr ⟨by simp [hdead], _, rfl⟩⟩
    · exact .inr ⟨_, .inl rfl⟩

theorem RunChange.withRun (s : State) (c : Nat) (r : Run) : RunChange c s (s.modCore c (·.withRun r)) :=
  .modCore s c (fun _ => rfl) (fun _ => rfl) (fun _ => rfl)

theorem RunChange.settle (s : State) (c : Nat) : RunChange c s (s.settle c) := by
  rcases s.settle_cases c with h | ⟨r, h | ⟨_, p, h⟩⟩ <;> rw [h]
  · exact .refl ..
  · exact .withRun ..
  · exact (RunChange.withRun s c r).trans (.event ..)

theorem RunChange.seqNext (s : State) (c pc : Nat) (sig : Option (BitVec 6)) : RunChange c s (s.seqNext c pc sig) :=
  ((RunChange.modRun s c _).trans (.post ..)).trans (.settle ..)

/-! ### Events of a program (R107) -/

theorem State.post_events (s : State) (c : Nat) (sig : Option (BitVec 6)) : (s.post c sig).events = s.events ∧ (s.post c sig).fresh = s.fresh := by
  rcases s.post_cases c sig with h | ⟨f, h⟩ | ⟨k, f, h⟩ <;> rw [h]
  · exact ⟨rfl, rfl⟩
  · exact ⟨rfl, rfl⟩
  · exact ⟨(State.modRun_events ..).trans (by simp), (State.modRun_fresh ..).trans (by simp)⟩

theorem State.core_event (s : State) (k : EventKind) (part unit : Nat) (data : List Byte) (c : Nat) : (s.event k part unit data).core c = s.core c := by
  simp only [State.event, State.core]

/-- A core that settles without a deadlock raises no event. -/
theorem State.settle_events {s : State} {c : Nat} (hlive : ∀ r, ((s.settle c).core c).run = some r → r.deadlock = false) :
    (s.settle c).events = s.events ∧ (s.settle c).fresh = s.fresh := by
  rcases s.settle_cases c with h | ⟨r, h | ⟨hdead, p, h⟩⟩ <;> rw [h] at hlive ⊢
  · exact ⟨rfl, rfl⟩
  · exact ⟨State.modCore_events .., State.modCore_fresh ..⟩
  · have hrun : (s.modCore c (·.withRun r)).core c = (s.core c).withRun r := s.core_modCore_self c fun _ => rfl
    have hfalse := hlive r (by rw [State.core_event, hrun]; rfl)
    simp [hdead] at hfalse

theorem State.seqNext_events {s : State} {c pc : Nat} {sig : Option (BitVec 6)} (h : ∀ r, ((s.seqNext c pc sig).core c).run = some r → r.deadlock = false) :
    (s.seqNext c pc sig).events = s.events ∧ (s.seqNext c pc sig).fresh = s.fresh := by
  have hsettle := State.settle_events h
  have hpost := State.post_events (s.modRun c (fun r => { r with pc := pc, seqTaken := false, seq := .none })) c sig
  exact ⟨hsettle.1.trans hpost.1, hsettle.2.trans hpost.2⟩

/-- What a sequencer row's effect keeps: a change of its core's program that raises no event unless the program deadlocks. -/
def SeqEffect (c : Nat) (s u : State) : Prop :=
  RunChange c s u ∧ ((∀ r, (u.core c).run = some r → r.deadlock = false) → u.events = s.events ∧ u.fresh = s.fresh)

theorem SeqEffect.refl (c : Nat) (s : State) : SeqEffect c s s := ⟨.refl c s, fun _ => ⟨rfl, rfl⟩⟩

/-- The sequencer goes on after a change of the program. -/
theorem SeqEffect.modRun_seqNext (s : State) (c pc : Nat) (sig : Option (BitVec 6)) (f : Run → Run) : SeqEffect c s ((s.modRun c f).seqNext c pc sig) :=
  ⟨(RunChange.modRun s c f).trans (.seqNext ..), fun h => State.seqNext_events h⟩

theorem SeqEffect.seqNext (s : State) (c pc : Nat) (sig : Option (BitVec 6)) : SeqEffect c s (s.seqNext c pc sig) :=
  ⟨.seqNext .., fun h => State.seqNext_events h⟩

/-- Settles O24: each row changes the program of its core and lets the sequencer go on (`SeqEffect`). -/
theorem sequencerFrame : Obligations.SequencerFrame := by
  unfold Obligations.SequencerFrame
  intro c k s t hs hc h
  have heffect : SeqEffect k s t := by
    have hrow : ∃ f : State → State, s.run f = .next t ∧ SeqEffect k s (f s) := by
      rcases hc with rfl | rfl | rfl
      · simp only [exec, execSeqNop] at h
        refine ⟨_, h, ?_⟩
        split
        · exact .seqNext ..
        · exact .refl ..
      · simp only [exec, execLoopBegin] at h
        refine ⟨_, h, ?_⟩
        split
        · exact .modRun_seqNext ..
        · exact .refl ..
      · simp only [exec, execLoopEnd] at h
        refine ⟨_, h, ?_⟩
        split
        · exact .modRun_seqNext ..
        · exact .refl ..
    obtain ⟨f, hrun, hf⟩ := hrow
    rcases next_of_run hs hrun with ht | rfl
    · generalize f s = u at ht hf
      rw [State.after_of_memOk s u (hf.1.ok hs)] at ht
      subst ht
      exact ⟨⟨hf.1.memory, hf.1.queues, hf.1.embed, hf.1.cru, hf.1.moves, hf.1.host, hf.1.store, hf.1.other, fun _ => hf.1.ok hs⟩, hf.2⟩
    · exact .refl ..
  obtain ⟨hchange, hevents⟩ := heffect
  exact ⟨hchange.memory, hchange.queues, hchange.embed, hchange.cru, hchange.moves, hchange.store, hchange.other, hchange.host, hevents⟩

end Sys2Proof.Machine

/-! ### A write of the window where two objects share a handle (R460) -/

namespace Sys2Proof.Machine

/-- The window's object, at 64. -/
def windowObj : Obj := { ctx := 0, handle := 0, base := 64, size := 64, policy := 2, prio := 0, affinity := 0, farMask := 0, prot := false, slot := 0 }

/-- Two live objects of one context and handle: the window's, and one that lies below it. -/
def sharedHandle : State :=
  { memory := { objs := [windowObj, { windowObj with base := 0 }] }, host := { links := ({ committed := true, cxlMem := true }, {}) } }

/-- The state after a write of one byte 1 at the window's offset 0. -/
def sharedHandleWritten : State := sharedHandle.after ((sharedHandle.windowReach 0 windowObj 0 1).vaWrite 0 64 [1])

theorem exec_write_sharedHandle : exec (.hostWindowAccess 0 true 0 1 [1]) sharedHandle = .next sharedHandleWritten := rfl

/-- The byte is stored at address 64: at offset 64 of the second object, whose byte 0 stays 0. -/
theorem sharedHandleWritten_second : (sharedHandleWritten.memory.objs[1]?).map (fun o => o.mem.get 0) = some 0 := by decide

/-- Refutes O26: an object is named by its context and handle, and nothing in the statement keeps two objects from sharing them. The write then reaches the other object
too, at the address written, where the statement has it at the window's offset. -/
theorem not_windowStoreFrame : ¬ Obligations.WindowStoreFrame := by
  unfold Obligations.WindowStoreFrame
  intro h
  have hreach : ∀ i < [(1 : Byte)].length, sharedHandle.objAt windowObj.ctx (windowObj.base + 0 + i) = some windowObj := by decide
  obtain ⟨t, ht, hobjs⟩ := h sharedHandle 0 windowObj 0 [1] (by decide) rfl rfl rfl rfl (by decide) hreach
  obtain rfl := Host.Outcome.next.inj (exec_write_sharedHandle.symm.trans ht)
  obtain ⟨p, hp, -, -, -, -, hbytes⟩ := hobjs 1 { windowObj with base := 0 } rfl
  have hone : p.mem.get 0 = 1 := hbytes 0
  have hzero := sharedHandleWritten_second
  rw [hp, Option.map_some, hone] at hzero
  exact absurd hzero (by decide)

end Sys2Proof.Machine

/-! ### What a doorbell leaves unchanged (R46) -/

namespace Sys2Proof.Machine

/-- A change of entries that another test does not pick is not seen by it. -/
theorem find?_upd_of_ne {α : Type} (l : List α) {p q : α → Bool} {f : α → α} (hf : ∀ x, p x = true → q (f x) = q x) (hp : ∀ x, p x = true → q x = false) :
    (upd l p f).find? q = l.find? q := by
  induction l with
  | nil => rfl
  | cons x xs ih =>
    have hcons : upd (x :: xs) p f = (if p x then f x else x) :: upd xs p f := rfl
    rw [hcons, List.find?_cons, List.find?_cons, ih]
    cases hx : p x with
    | true => simp [hf x hx, hp x hx]
    | false => simp

theorem State.queue?_modQueue_of_ne (s : State) {q q' : QueueId} {f : Queue → Queue} (hf : ∀ e, (f e).id = e.id) (h : q' ≠ q) :
    (s.modQueue q f).queue? q' = s.queue? q' :=
  find?_upd_of_ne s.queues (fun e _ => by rw [hf]) (fun e he => by
    have hid : e.id = q := by simpa using he
    simpa [hid] using h.symm)

/-- A doorbell value of a queue that it does not put into ERROR changes that queue alone. -/
theorem State.doorbell_keeps {s : State} {q : QueueId} {e : Queue} (he : s.queue? q = some e) {v : Nat} (hfits : (v + 2 ^ 32 - e.head) % 2 ^ 32 ≤ 2 ^ e.sizeLog2) :
    (∃ f : Queue → Queue, s.doorbell q v = s.modQueue q f ∧ ∀ k, (f k).id = k.id) ∨ s.doorbell q v = s := by
  simp only [State.doorbell, State.openAdmin_of_queue? he, he]
  split_ifs with habsent hback hover
  · exact .inr rfl
  · exact .inl ⟨_, rfl, fun _ => rfl⟩
  · omega
  · exact .inl ⟨_, rfl, fun _ => rfl⟩

/-- Settles O28: without ERROR a doorbell changes its own queue (`State.doorbell_keeps`). -/
theorem doorbellFrame : Obligations.DoorbellFrame := by
  unfold Obligations.DoorbellFrame
  intro s t fn q e v hs he hfits h
  rw [exec_doorbellWrite] at h
  have hnext : (∃ f, t = s.after (s.modQueue q f) ∧ ∀ k, (f k).id = k.id) ∨ t = s := by
    rcases next_of_run hs h with ht | ht
    · split at ht
      · rcases State.doorbell_keeps he hfits with ⟨f, hbell, hid⟩ | hbell
        · exact .inl ⟨f, hbell ▸ ht, hid⟩
        · rw [hbell, after_self hs] at ht
          exact .inr ht
      · rw [after_self hs] at ht
        exact .inr ht
    · exact .inr ht
  rcases hnext with ⟨f, ht, hid⟩ | rfl
  · obtain rfl := eq_of_kept ht hs rfl rfl rfl rfl
    exact ⟨rfl, fun q' hq' => s.queue?_modQueue_of_ne hid hq'⟩
  · exact ⟨rfl, fun _ _ => rfl⟩

end Sys2Proof.Machine

/-! ### Commands outside a pair: what starting one leaves unchanged -/

namespace Sys2Proof.Machine

theorem State.openAdmin_eq (s : State) (q : QueueId) : s.openAdmin q = { s with queues := (s.openAdmin q).queues } := by
  unfold State.openAdmin
  split <;> rfl

/-- Outside a pair a command that enters changes the queues and the command count alone. -/
theorem State.enter_unpaired {s : State} {q : QueueId} {pkt : Packet} (h : s.pairedPart ((s.openAdmin q).newCmd q pkt).part = false) :
    ∃ l, (s.enter q pkt).2 = { s with queues := l, nextUid := s.nextUid + 1 } := by
  have hpair : (s.openAdmin q).pairedPart ((s.openAdmin q).newCmd q pkt).part = false := by
    rw [← h, State.openAdmin_eq]
    rfl
  simp only [State.enter, hpair, Bool.false_and, Bool.not_false, if_true]
  rw [State.openAdmin_eq]
  exact ⟨_, rfl⟩

/-- Settles O30: the refused body leaves the state that the command entered but for its reply (`runBody_refused`), and outside a pair it entered the queues alone (`State.enter_unpaired`). -/
theorem refusedCommandsHaveNoEffect : Obligations.RefusedCommandsHaveNoEffect := by
  unfold Obligations.RefusedCommandsHaveNoEffect
  intro faults e he s q pkt r hs hstarts hguard
  obtain ⟨body, hbody⟩ := opcodeRows_exec faults e he
  have hrefused : guarded e.2.2.1 e.2.2.2 body (s.enter q pkt).1 (s.enter q pkt).2 = .error (.done r) := by
    simp only [guarded, hguard]
    rfl
  have hexec : exec (e.1 q pkt) s = .next (s.after ((s.enter q pkt).2.reply (s.enter q pkt).1.uid r)) := by
    rw [hbody, opcodeStep_starts hstarts, State.start, runBody_refused hrefused]
  refine ⟨hexec, fun hpair => ⟨_, hexec, ?_⟩⟩
  obtain ⟨l, hl⟩ := State.enter_unpaired hpair
  rw [hl]
  exact after_of_kept hs rfl rfl rfl rfl

/-- What NOP, FENCE, CTX_SET_MODE and CRU_SET_SCALE leave alone: everything but queues, contexts and the command count. -/
def State.stores (s : State) : Memory × Cores × HostSide × Fabric × Map (Nat × Nat) Word × Embed × Moves × List EventRec × List EventRec :=
  (s.memory, s.cores, s.host, s.fabric, s.regs, s.embed, s.moves, s.events, s.fresh)

/-- An answer that asks for no host page. -/
def NeverParks {α : Type} (x : Except Stop α) : Prop := ∀ l p g, x ≠ .error (.park l p g)

/-- An answer of a body that asks for no host page and stores nothing. -/
def StoresNothing (s : State) : Except Stop (State × Option Reply) → Prop
  | .ok r => r.1.stores = s.stores
  | .error (.park _ _ _) => False
  | .error _ => True

theorem StoresNothing.bind {α : Type} {s : State} {x : Except Stop α} {f : α → Except Stop (State × Option Reply)} (hx : NeverParks x) (hf : ∀ a, StoresNothing s (f a)) :
    StoresNothing s (x >>= f) := by
  cases x with
  | ok a => exact hf a
  | error e => cases e with
    | park l p g => exact absurd rfl (hx l p g)
    | _ => trivial

theorem NeverParks.bind {α β : Type} {x : Except Stop α} {f : α → Except Stop β} (hx : NeverParks x) (hf : ∀ a, NeverParks (f a)) : NeverParks (x >>= f) := by
  cases x with
  | ok a => exact hf a
  | error e => exact fun l p g h => hx l p g (by cases h; rfl)

theorem neverParks_ok {α : Type} (a : α) : NeverParks (.ok a : Except Stop α) := fun _ _ _ h => by cases h

theorem neverParks_fail {α : Type} (r : Reply) : NeverParks (fail r : Except Stop α) := fun _ _ _ h => by cases h

theorem neverParks_need (b : Bool) (r : Reply) : NeverParks (need b r) := by
  unfold need
  split
  · exact neverParks_ok _
  · exact neverParks_fail _

theorem neverParks_noTicket (c : Running) : NeverParks (noTicket c) := neverParks_need _ _

theorem neverParks_reserved (c : Running) (off n : Nat) : NeverParks (reserved c off n) := by
  unfold reserved
  split
  · exact neverParks_fail _
  · exact neverParks_ok _

theorem neverParks_liveCtx (s : State) (x off : Nat) : NeverParks (s.liveCtx x off) := by
  unfold State.liveCtx
  split
  · exact neverParks_fail _
  · exact neverParks_ok _

theorem neverParks_namedCtx (s : State) (fn x off : Nat) : NeverParks (s.namedCtx fn x off) :=
  .bind (neverParks_liveCtx _ _ _) fun _ => .bind (neverParks_need _ _) fun _ => neverParks_ok _

theorem neverParks_headerCheck (c : Running) (s : State) (adminOnly pfOnly : Bool) : NeverParks (headerCheck c s adminOnly pfOnly) := by
  unfold headerCheck
  iterate 8 refine .bind (neverParks_need _ _) fun _ => ?_
  split
  · exact .bind (neverParks_namedCtx _ _ _ _) fun _ => neverParks_ok _
  · exact neverParks_ok _

theorem neverParks_guardCheck (c : Running) (s : State) (adminOnly pfOnly : Bool) : NeverParks (guardCheck c s adminOnly pfOnly) := by
  unfold guardCheck
  refine .bind (neverParks_headerCheck _ _ _ _) fun _ => ?_
  split
  · exact .bind (neverParks_namedCtx _ _ _ _) fun _ => neverParks_ok _
  · exact neverParks_ok _

theorem bodyNop_stores (c : Running) (s : State) : StoresNothing s (bodyNop c s) :=
  .bind (neverParks_noTicket c) fun _ => rfl

theorem bodyFence_stores (c : Running) (s : State) : StoresNothing s (bodyFence c s) := by
  refine .bind (neverParks_noTicket c) fun _ => ?_
  dsimp only
  split
  · trivial
  · exact rfl

theorem bodyCtxSetMode_stores (c : Running) (s : State) : StoresNothing s (bodyCtxSetMode c s) := by
  refine .bind (neverParks_noTicket c) fun _ => .bind (neverParks_liveCtx _ _ _) fun x => .bind (neverParks_need _ _) fun _ => .bind (neverParks_reserved _ _ _) fun _ =>
    .bind (neverParks_reserved _ _ _) fun _ => .bind (neverParks_need _ _) fun _ => ?_
  split
  · trivial
  · exact rfl

theorem bodyCruSetScale_stores (c : Running) (s : State) : StoresNothing s (unlessSkipped bodyCruSetScale c s) := by
  unfold unlessSkipped
  split
  · exact rfl
  · split
    · trivial
    · refine .bind (neverParks_noTicket c) fun _ => .bind (neverParks_need _ _) fun _ => .bind (neverParks_need _ _) fun _ => .bind (neverParks_need _ _) fun _ =>
        .bind (neverParks_need _ _) fun _ => .bind (neverParks_reserved _ _ _) fun _ => rfl

/-- A body that stores nothing leaves what is stored as it was, whatever comes of it. -/
theorem runBody_stores {s : State} {c : Running} {body : Body} (h : StoresNothing s (body c s)) : (s.runBody body c).stores = s.stores := by
  unfold State.runBody
  generalize body c s = x at h
  match x, h with
  | .ok (t, some r), h => exact h
  | .ok (t, none), h => exact h
  | .error (.done r), _ => rfl
  | .error .held, _ => rfl

/-- The next state of an opcode row outside a pair whose body stores nothing. -/
theorem opcodeStep_stores {op : Nat} {a f : Bool} {body : Body} {q : QueueId} {pkt : Packet} {s t : State} (hs : s.memOk = true)
    (hpair : s.pairedPart ((s.openAdmin q).newCmd q pkt).part = false) (hbody : ∀ c u, StoresNothing u (body c u))
    (h : opcodeStep op a f body q pkt s = .next t) : t.stores = s.stores := by
  have hstart : (s.start q pkt (guarded a f body)).stores = s.stores := by
    refine (runBody_stores (StoresNothing.bind (neverParks_guardCheck _ _ _ _) fun _ => hbody _ _)).trans ?_
    obtain ⟨l, hl⟩ := State.enter_unpaired hpair
    rw [hl]
    rfl
  unfold opcodeStep at h
  split at h
  · split at h
    · cases h
      rfl
    · rcases next_of_run hs h with ht | rfl
      · generalize s.start q pkt (guarded a f body) = u at ht hstart
        have hkept := hstart
        simp only [State.stores, Prod.mk.injEq] at hkept
        obtain ⟨hmemory, hcores, hhost, -⟩ := hkept
        rw [State.after_of_memOk s u (State.memOk_congr hs (congrArg Memory.objs hmemory) (congrArg Cores.cores hcores) (congrArg HostSide.mem hhost))] at ht
        rw [ht]
        exact hstart
      · rfl
  · cases h

/-- Settles O29: the four bodies ask for no host page and store nothing (`StoresNothing`). -/
theorem noStoreFrame : Obligations.NoStoreFrame := by
  unfold Obligations.NoStoreFrame
  intro s t q pkt hs hpair h
  have hstores : t.stores = s.stores := by
    rcases h with h | h | h | h
    · exact opcodeStep_stores hs hpair bodyNop_stores h
    · exact opcodeStep_stores hs hpair bodyFence_stores h
    · exact opcodeStep_stores hs hpair bodyCtxSetMode_stores h
    · exact opcodeStep_stores hs hpair bodyCruSetScale_stores h
  simpa only [State.stores, Prod.mk.injEq] using hstores

end Sys2Proof.Machine

/-! ### The checks of a body that are met -/

namespace Sys2Proof.Machine

/-- The bits of a number above its width are 0. -/
theorem bits_of_lt {x hi lo : Nat} (h : x < 2 ^ lo) : bits x hi lo = 0 := by
  rw [bits, Nat.shiftRight_eq_div_pow, Nat.div_eq_of_lt h, Nat.zero_mod]

theorem bit_zero_iff (x : Nat) : bit x 0 = true ↔ x % 2 = 1 := by
  rw [bit, Nat.testBit_zero, decide_eq_true_eq]

/-! The laws of the checks, as rules that `simp` uses where the check's condition is a hypothesis. -/

@[simp] theorem need_of {b : Bool} (r : Reply) (h : b = true) : need b r = .ok () := need_true h

@[simp] theorem noTicket_of {c : Running} (h : c.ticket = 0) : noTicket c = .ok () := noTicket_ok h

@[simp] theorem plenIs_of {c : Running} {n : Nat} (h : c.u 26 2 = n) : plenIs c n = .ok () := plenIs_ok h

@[simp] theorem reserved_of {c : Running} {off n : Nat} (h : Zero c off n) : reserved c off n = .ok () := reserved_ok h

@[simp] theorem servedCtx_of {fn off : Nat} {k : Ctx} (h : serves fn k.part = true) : servedCtx fn k off = .ok () := need_true h

@[simp] theorem ok_bind {α β : Type} (a : α) (f : α → Except Stop β) : (Except.ok a >>= f) = f a := rfl

/-- A context that a command names is live, and in a partition that the function serves (R570). -/
theorem namedCtx_ok_iff {s : State} {fn x off : Nat} {k : Ctx} : s.namedCtx fn x off = .ok k ↔ s.liveCtx x off = .ok k ∧ serves fn k.part = true := by
  unfold State.namedCtx servedCtx
  cases s.liveCtx x off with
  | error e => exact ⟨nofun, fun h => nomatch h.1⟩
  | ok j =>
    cases hs : serves fn j.part with
    | true =>
      simp only [ok_bind, hs, need_of, Except.ok.injEq]
      exact ⟨fun h => ⟨h, h ▸ hs⟩, And.left⟩
    | false =>
      simp only [ok_bind, hs, need_false]
      refine ⟨nofun, fun ⟨h, hk⟩ => ?_⟩
      rw [← Except.ok.inj h, hs] at hk
      cases hk

end Sys2Proof.Machine

/-! ### Queue commands, NOP and FENCE -/

namespace Sys2Proof.Machine

theorem bodyQueueCreate_ok {c : Running} {s : State} {x : Ctx} {p : Part}
    (hticket : c.ticket = 0) (hindex : c.u 40 1 < 16) (hctx : s.namedCtx c.fn (c.u 41 1) 41 = .ok x) (hmin : 6 ≤ c.u 42 1) (hmax : c.u 42 1 ≤ 16) (hflags : c.u 43 1 < 4)
    (hvector : c.u 44 2 < (if c.fn = 0 then 2048 else 512)) (hz46 : Zero c 46 2) (hbase : c.u 48 8 % 4096 = 0)
    (hdevice : c.u 43 1 % 2 = 1 → ∃ o, s.objAt x.id (c.u 48 8) = some o ∧ (o.policy = 1 ∨ o.policy = 2) ∧ c.u 48 8 + 2 ^ c.u 42 1 * 64 ≤ o.base + o.size)
    (hz59 : Zero c 59 5) (hfree : s.queue? (.ctx (Fin.ofNat 4096 (x.id * 16 + c.u 40 1))) = none) (hpart : s.part? x.part = some p) (hquota : (s.partQueues x.part).length < p.carve.queues) :
    bodyQueueCreate c s = .ok ({ s with queues := s.queues ++ [{
      id := .ctx (Fin.ofNat 4096 (x.id * 16 + c.u 40 1)), sizeLog2 := c.u 42 1, inDevice := bit (c.u 43 1) 0, stopOnError := bit (c.u 43 1) 1,
      vector := c.u 44 2, base := c.u 48 8, peerMask := c.u 56 3, link := s.linkOf c.queue }] }, some ok) := by
  obtain ⟨hlive, hserves⟩ := namedCtx_ok_iff.mp hctx
  have hhigh : bits (c.u 40 1) 7 4 = 0 := bits_of_lt (lo := 4) hindex
  have hreserved : bits (c.u 43 1) 7 2 = 0 := bits_of_lt (lo := 2) hflags
  unfold bodyQueueCreate
  by_cases hd : bit (c.u 43 1) 0 = true
  · obtain ⟨o, hobj, hpolicy, hend⟩ := hdevice ((bit_zero_iff _).mp hd)
    simp [-Fin.ofNat_eq_cast, *]
  · simp [-Fin.ofNat_eq_cast, *]


theorem bodyQueueDestroy_ok {c : Running} {s : State} {n : QueueId} (hticket : c.ticket = 0) (harg : queueArg c s = .ok n) :
    bodyQueueDestroy c s = .ok ({ s.abortQueue n with queues := (s.abortQueue n).queues.filter (fun e => e.id ≠ n) }, some ok) := by
  simp [bodyQueueDestroy, *]

theorem bodyQueueStart_ok {c : Running} {s : State} {n : QueueId} (hticket : c.ticket = 0) (harg : queueArg c s = .ok n) :
    bodyQueueStart c s = .ok (((List.range 40).foldl State.resumeCore (s.modQueue n (fun e =>
      { e with state := .running, stopping := false, overrun := false, running := e.running.map (fun k => { k with interim := false, halt := false }) }))).pumpJobs.cruPumpAll, some ok) := by
  simp [bodyQueueStart, *]

theorem bodyQueueStop_ok {c : Running} {s : State} {n : QueueId} {e : Queue} (hticket : c.ticket = 0) (harg : queueArg c s = .ok n)
    (hqueue : s.queue? n = some e) (halone : ∀ k ∈ e.running, k.uid = c.uid) : bodyQueueStop c s = .ok (s.modQueue n Queue.halted, some ok) := by
  simpa [bodyQueueStop, *] using halone

theorem bodyFence_ok {c : Running} {s : State} (hticket : c.ticket = 0) (hfirst : ∀ e, s.queue? c.queue = some e → ∀ k ∈ e.running, c.order ≤ k.order) :
    bodyFence c s = .ok (s, some ok) := by
  have hnone : ((s.queue? c.queue).map (fun e => e.running.any (fun k => decide (k.order < c.order)))).getD false = false := by
    cases he : s.queue? c.queue with
    | none => rfl
    | some e => simpa using hfirst e he
  simp only [bodyFence, noTicket_ok hticket, ok_bind, hnone, Bool.false_eq_true, if_false]

/-- Settles O31: what the body of each command leaves, where its checks are met. -/
theorem queueCommandsComplete : Obligations.QueueCommandsComplete := by
  unfold Obligations.QueueCommandsComplete
  refine ⟨fun x p => ?_, fun n => ?_, fun n => ?_, fun n e => ?_, ?_, ?_⟩
  · refine effect_ok (fun _ _ _ => rfl) fun c s h => ?_
    obtain ⟨hticket, hindex, hctx, hmin, hmax, hflags, hvector, hz46, hbase, hdevice, hz59, hfree, hpart, hquota⟩ := h
    exact bodyQueueCreate_ok hticket hindex hctx hmin hmax hflags hvector hz46 hbase hdevice hz59 hfree hpart hquota
  · exact effect_ok (fun _ _ _ => rfl) fun c s ⟨hticket, harg, _⟩ => bodyQueueDestroy_ok hticket harg
  · exact effect_ok (fun _ _ _ => rfl) fun c s ⟨hticket, harg, _⟩ => bodyQueueStart_ok hticket harg
  · exact effect_ok (fun _ _ _ => rfl) fun c s ⟨hticket, harg, _, hqueue, halone⟩ => bodyQueueStop_ok hticket harg hqueue halone
  · exact effect_ok (body := bodyNop) (fun _ _ _ => rfl) fun c s hticket => by simp [bodyNop, hticket]
  · exact effect_ok (fun _ _ _ => rfl) fun c s ⟨hticket, hfirst⟩ => bodyFence_ok hticket hfirst

end Sys2Proof.Machine

/-! ### Context and partition commands -/

namespace Sys2Proof.Machine

theorem bodyCtxCreate_ok {c : Running} {s : State} {p : Part} (hticket : c.ticket = 0) (hfree : s.ctx? (c.u 40 1) = none) (hpartIndex : c.u 41 1 < 32)
    (hserves : serves c.fn (c.u 41 1) = true) (hz42 : Zero c 42 2) (hwidth : c.u 44 4 < 2 ^ 20) (hpasid : ∀ k ∈ s.tenants.ctxs, k.pasid.toNat ≠ c.u 44 4) (hz48 : Zero c 48 16)
    (hpart : s.part? (c.u 41 1) = some p) (hquota : (s.partCtxs (c.u 41 1)).length < p.carve.contexts) (hroom : saveArea p.inService ≤ (s.leftOf p).t1) :
    bodyCtxCreate c s = .ok (
      let r := s.resetRegs (fun r i => ctxReg r && i == c.u 40 1)
      let e : Ctx := { id := c.u 40 1, part := c.u 41 1, pasid := BitVec.ofNat 20 (c.u 44 4), keyWord := Config.drbg s.free, saveBytes := saveArea p.inService, chill := s.pairedPart (c.u 41 1) }
      ({ r with free := r.free + 1, tenants := { r.tenants with ctxs := r.tenants.ctxs ++ [e] } }, some ok)) := by
  have hpasid : (s.tenants.ctxs.any (fun k => k.pasid.toNat == c.u 44 4)) = false := by simpa using hpasid
  simp only [bodyCtxCreate, noTicket_of, reserved_of, need_of, ok_bind, Option.map_none, Option.getD_none, Bool.not_false, decide_true, Bool.and_self, *]

theorem bodyCtxDestroy_ok {c : Running} {s : State} {x : Ctx} (hticket : c.ticket = 0) (hctx : s.namedCtx c.fn (c.u 40 1) 40 = .ok x) (hz41 : Zero c 41 23) :
    bodyCtxDestroy c s = .ok (s.destroyCtx x.id, some ok) := by
  obtain ⟨hlive, hserves⟩ := namedCtx_ok_iff.mp hctx
  simp [bodyCtxDestroy, *]

theorem bodyCtxPreempt_evict {c : Running} {s : State} {x : Ctx} (hticket : c.ticket = 0) (hctx : s.namedCtx c.fn (c.u 40 1) 40 = .ok x) (hmode : c.u 41 1 = 1) (hz42 : Zero c 42 22) :
    bodyCtxPreempt c s = if (s.evict (· == x.id)).quiet c.order (· == x.id) true then .ok (s.evict (· == x.id), some ok)
      else .ok ((s.evict (· == x.id)).modCmd c.uid (fun k => { k with work := .preempt x.id true }), none) := by
  obtain ⟨hlive, hserves⟩ := namedCtx_ok_iff.mp hctx
  simp only [bodyCtxPreempt, noTicket_of, reserved_of, need_of, servedCtx_of, ok_bind, le_refl, decide_true, beq_self_eq_true, if_true, *]


theorem bodyCtxSetMode_ok {c : Running} {s : State} {x : Ctx} (hticket : c.ticket = 0) (hctx : s.namedCtx c.fn (c.u 40 1) 40 = .ok x) (hmode : c.u 41 1 < 4)
    (hpair : c.u 41 1 % 2 = 1 ∨ s.pairedPart x.part = false) (hz42 : Zero c 42 6) (hz56 : Zero c 56 8)
    (hfirst : ∀ k ∈ s.queues.flatMap (·.running), k.uid = c.uid ∨ k.ctx ≠ x.id ∨ c.order ≤ k.order) :
    bodyCtxSetMode c s = .ok (s.modCtx x.id (fun k => { k with
      chill := bit (c.u 41 1) 0, seed := if bit (c.u 41 1) 1 then c.u 48 8 else k.seed, seedSet := k.seedSet || bit (c.u 41 1) 1 }), some ok) := by
  obtain ⟨hlive, hserves⟩ := namedCtx_ok_iff.mp hctx
  have hmodeOk : (c.u 41 1 / 4 == 0 && (bit (c.u 41 1) 0 || !serves c.fn x.part || !s.pairedPart x.part)) = true := by
    rw [← bit_zero_iff] at hpair
    rcases hpair with h | h <;> simp [h, Nat.div_eq_of_lt hmode]
  have hnone : ((s.queues.flatMap (·.running)).any (fun k => k.uid != c.uid && k.ctx == x.id && (!k.admin || actsOnHeader k.opcode) && decide (k.order < c.order))) = false := by
    rw [List.any_eq_false]
    intro k hk
    rcases hfirst k hk with h | h | h <;> simp [h]
  simp only [bodyCtxSetMode, noTicket_of hticket, hlive, need_of _ hmodeOk, reserved_of hz42, reserved_of hz56, servedCtx_of hserves, hnone, ok_bind, Bool.false_eq_true, if_false]

/-- A carve that keeps every position of its partition takes effect at once (R493, R498). -/
theorem bodyPartCarve_ok {c : Running} {s : State} (hplen : c.u 26 2 = 64) (hticket : c.ticket = 0) (hpart : c.u 40 1 < 32) (hz41 : Zero c 41 23)
    (hothers : ∀ o ∈ s.tenants.parts, o.id = c.u 40 1 ∨ ∀ q ∈ setBits 32 (carveAt c).coreMask, o.carve.coreMask.testBit q = false)
    (hempty : (carveAt c).coreMask = 0 → s.partCtxs (c.u 40 1) = [])
    (hbarriers : (carveAt c).barriers ≤ 1024) (hbuckets : (carveAt c).buckets ≤ 16384) (ht1 : (carveAt c).t1 % pageBytes = 0) (ht2 : (carveAt c).t2 % pageBytes = 0)
    (ht3 : (carveAt c).t3 % pageBytes = 0) (hqueues : (carveAt c).queues ≤ 4096) (hcontexts : (carveAt c).contexts ≤ 256) (hfdirs : (carveAt c).fdirs < 64)
    (hkey : (carveAt c).linkKey = 0 ∨ (carveAt c).linkKey < 64 ∧ (mget s.sec.keys (carveAt c).linkKey).isSome) (hz103 : Zero c 103 1) (hz108 : Zero c 108 20)
    (hfits : s.carveFits (c.u 40 1) (carveAt c) ((setBits 32 (carveAt c).coreMask).filter (fun q => (s.posCore q).isSome)).length = .ok ())
    (hkeeps : ∀ p, s.part? (c.u 40 1) = some p → ∀ q ∈ p.positions, (carveAt c).coreMask.testBit q = true) :
    bodyPartCarve c s = .ok ((s.recarve (c.u 40 1) (carveAt c)).resizeSaves (c.u 40 1), some (okProgress 0)) := by
  have hothers : ((s.tenants.parts.filter (·.id != c.u 40 1)).any (fun o => (setBits 32 (carveAt c).coreMask).any (fun q => o.carve.coreMask.testBit q))) = false := by
    simp only [List.any_eq_false, List.mem_filter, bne_iff_ne, ne_eq, Bool.not_eq_true]
    exact fun o ⟨ho, hne⟩ q hq => (hothers o ho).resolve_left hne q hq
  have hempty : ((carveAt c).coreMask == 0 && !(s.partCtxs (c.u 40 1)).isEmpty) = false := by
    by_cases h : (carveAt c).coreMask = 0
    · simp [hempty h]
    · simp [h]
  have hkey : ((carveAt c).linkKey == 0 || (decide ((carveAt c).linkKey < 64) && (mget s.sec.keys (carveAt c).linkKey).isSome)) = true := by simpa using hkey
  have hkeeps : (((s.part? (c.u 40 1)).map Part.positions).getD []).all (fun q => (carveAt c).coreMask.testBit q) = true := by
    cases hp : s.part? (c.u 40 1) with
    | none => rfl
    | some p => simpa using hkeeps p hp
  simp only [bodyPartCarve, plenIs_of, noTicket_of, reserved_of, need_of, ok_bind, decide_true, Bool.not_false, Bool.and_self, beq_self_eq_true, if_true, *]

theorem bodyPartReset_ok {c : Running} {s : State} (hticket : c.ticket = 0) (hpart : c.u 40 1 < 32) (hz41 : Zero c 41 23)
    (hcarves : ∀ k ∈ s.queues.flatMap (·.running), k.work = .carve (c.u 40 1) → k.reply.isSome) : bodyPartReset c s = .ok (s.resetPart (c.u 40 1), some ok) := by
  have hnone : ((s.queues.flatMap (·.running)).any (fun k => k.work == .carve (c.u 40 1) && k.reply.isNone)) = false := by
    rw [List.any_eq_false]
    intro k hk h
    rw [Bool.and_eq_true, beq_iff_eq] at h
    have := hcarves k hk h.1
    simp_all
  simp only [bodyPartReset, noTicket_of, reserved_of, need_of, ok_bind, decide_true, Bool.false_eq_true, if_false, *]

/-- Settles O32: what the body of each command leaves, where its checks are met. -/
theorem tenantCommandsComplete : Obligations.TenantCommandsComplete := by
  unfold Obligations.TenantCommandsComplete
  refine ⟨fun p => ?_, fun x => ?_, fun x => ?_, fun x => ?_, fun x => ?_, ?_, ?_⟩
  · refine effect_ok (fun _ _ _ => rfl) fun c s h => ?_
    obtain ⟨hticket, hfree, hpartIndex, hserves, hz42, hwidth, hpasid, hz48, hpart, hquota, hroom⟩ := h
    exact bodyCtxCreate_ok hticket hfree hpartIndex hserves hz42 hwidth hpasid hz48 hpart hquota hroom
  · exact effect_ok (fun _ _ _ => rfl) fun c s ⟨hticket, hctx, hz41⟩ => bodyCtxDestroy_ok hticket hctx hz41
  · exact effect_ok (fun _ _ _ => rfl) fun c s ⟨hticket, hctx, hmode, hz42, hquiet⟩ => (bodyCtxPreempt_evict hticket hctx hmode hz42).trans (if_pos hquiet)
  · exact effect_going (fun _ _ _ => rfl) fun c s ⟨hticket, hctx, hmode, hz42, hquiet⟩ =>
      (bodyCtxPreempt_evict hticket hctx hmode hz42).trans (if_neg (by rw [hquiet]; exact Bool.false_ne_true))
  · exact effect_ok (fun _ _ _ => rfl) fun c s ⟨hticket, hctx, hmode, hpair, hz42, hz56, hfirst⟩ => bodyCtxSetMode_ok hticket hctx hmode hpair hz42 hz56 hfirst
  · refine effect_ok (fun _ _ _ => rfl) fun c s h => ?_
    obtain ⟨hplen, hticket, hpart, hz41, hothers, hempty, hbarriers, hbuckets, ht1, ht2, ht3, hqueues, hcontexts, hfdirs, hkey, hz103, hz108, hfits, hkeeps⟩ := h
    exact bodyPartCarve_ok hplen hticket hpart hz41 hothers hempty hbarriers hbuckets ht1 ht2 ht3 hqueues hcontexts hfdirs hkey hz103 hz108 hfits hkeeps
  · exact effect_ok (fun _ _ _ => rfl) fun c s ⟨hticket, hpart, hz41, hcarves⟩ => bodyPartReset_ok hticket hpart hz41 hcarves

end Sys2Proof.Machine

/-! ### A ticket that is good has its format (R71) -/

namespace Sys2Proof.Machine

/-- What follows a check is reached only where the check is met. -/
theorem need_bind_ok {α : Type} {b : Bool} {r : Reply} {f : Unit → Except Stop α} {x : α} (h : (need b r >>= f) = .ok x) : b = true ∧ f () = .ok x := by
  cases b with
  | true => exact ⟨rfl, h⟩
  | false => cases h

/-- A good ticket is the live ticket of its slot, of its slot's generation and the command's context, and one that the command's opcode accepts. -/
theorem useTicket_ok {s : State} {c : Running} {i : Issuer} {r : Nat × Ticket} (h : s.useTicket c i = .ok r) :
    c.ticket ≠ 0 ∧ bits c.ticket 23 17 = 0 ∧ (∃ sl, s.slot? c.part (bits c.ticket 11 0) = some sl ∧ sl.live = some r.2) ∧ i.accepts r.2.payload = true := by
  unfold State.useTicket at h
  obtain ⟨hne, h⟩ := need_bind_ok h
  obtain ⟨hres, h⟩ := need_bind_ok h
  obtain ⟨-, h⟩ := need_bind_ok h
  refine ⟨of_decide_eq_true hne, beq_iff_eq.mp hres, ?_⟩
  split at h
  · cases h
  next sl hslot =>
    split at h
    · cases h
    next k hlive =>
      obtain ⟨-, h⟩ := need_bind_ok h
      obtain ⟨haccepts, h⟩ := need_bind_ok h
      cases h
      exact ⟨⟨sl, hslot, hlive⟩, haccepts⟩

theorem ticketFormat_of_useTicket {s : State} {c : Running} {i : Issuer} {r : Nat × Ticket} (h : s.useTicket c i = .ok r) : s.ticketFormat c i = .ok () := by
  obtain ⟨hne, hres, ⟨sl, hslot, hlive⟩, haccepts⟩ := useTicket_ok h
  obtain ⟨part, slot, live, gen⟩ := sl
  simp only at hlive
  subst hlive
  simp [State.ticketFormat, hne, hres, hslot, haccepts]

@[simp] theorem judgeTicket_of_useTicket {s : State} {c : Running} {i : Issuer} {f : Except Stop Unit} {r : Nat × Ticket} (h : s.useTicket c i = .ok r) : s.judgeTicket c i f = .ok r := by
  simp [State.judgeTicket, ticketFormat_of_useTicket h, h]

end Sys2Proof.Machine

/-! ### Ticket and object commands -/

namespace Sys2Proof.Machine

theorem bodyTicketRelease_ok {c : Running} {s : State} {k : Ticket} (hz40 : Zero c 40 24) (hticket : c.ticket ≠ 0) (hformat : bits c.ticket 23 17 = 0)
    (hpart : bits c.ticket 16 12 = c.part) (hctx : bits c.ticket 31 24 = c.ctx) (hlive : (s.slot? c.part (bits c.ticket 11 0)).bind (·.live) = some k)
    (hgen : k.issuedGen = bits c.ticket 63 32) (hholder : k.ctx = c.ctx) (hheld : s.ticketHeld c.uid c.ticket = false) :
    bodyTicketRelease c s = .ok (s.release c.part (bits c.ticket 11 0), some ok) := by
  simp [bodyTicketRelease, *]

theorem bodyObjCreate_ok {c : Running} {s s3 : State} {t : Nat × Ticket} {base h : Nat} (huse : s.useTicket c .any = .ok t) (hsize : c.u 40 8 % pageBytes = 0) (hmin : pageBytes ≤ c.u 40 8) (hmax : c.u 40 8 ≤ 2 ^ 46)
    (haddr : c.u 48 8 % pageBytes = 0) (hend : c.u 48 8 + c.u 40 8 ≤ 2 ^ 52) (hpol : c.u 56 1 < 16) (hpolicy : c.u 56 1 % 8 ≤ 5) (hprio : c.u 57 1 < 8) (hflag : c.u 60 1 < 2) (hz61 : Zero c 61 3)
    (hbase : if c.u 48 8 = 0 then s.chooseBase c.ctx (c.u 40 8) = some base else base = c.u 48 8 ∧ s.overlayOk c.ctx base (c.u 40 8) (c.u 57 1) = true)
    (hhandle : (({ s with free := s.free + 1 } : State).pick (2 ^ 32) ((s.memory.objs.filter (fun o => o.ctx == c.ctx)).map (·.handle))).1 = some h)
    (hplaced : (({ s with free := s.free + 2, memory := { s.memory with objs := s.memory.objs ++ [{
        ctx := c.ctx, handle := h, base := base, size := c.u 40 8, policy := c.u 56 1 % 8, prio := c.u 57 1, affinity := c.u 58 1, farMask := c.u 59 1,
        prot := bit (c.u 56 1) 3, slot := t.1, groups := s.farSet (c.u 59 1) }] } } : State).xlatDrop c.ctx base (c.u 40 8)).placePages s c.ctx h (c.u 40 8 / pageBytes) 0 = .ok s3) :
    bodyObjCreate c s = .ok (s3, some (okProgress base h)) := by
  have hpol : bits (c.u 56 1) 7 4 = 0 := bits_of_lt (lo := 4) hpol
  have hoverlay : (c.u 48 8 == 0 || s.overlayOk c.ctx (c.u 48 8) (c.u 40 8) (c.u 57 1)) = true := by
    split at hbase
    next h0 => simp [h0]
    next => rw [← hbase.1, hbase.2, Bool.or_true]
  have hchosen : (if c.u 48 8 = 0 then s.chooseBase c.ctx (c.u 40 8) else some (c.u 48 8)) = some base := by
    split at hbase
    next h0 => rw [if_pos h0, hbase]
    next h0 => rw [if_neg h0, hbase.1]
  have hpick : ({ s with free := s.free + 1 } : State).pick (2 ^ 32) ((s.memory.objs.filter (fun o => o.ctx == c.ctx)).map (·.handle)) = (some h, { s with free := s.free + 2 }) :=
    Prod.ext hhandle rfl
  simp only [bodyObjCreate, judgeTicket_of_useTicket huse, hsize, hmin, hmax, haddr, hend, hpol, hpolicy, hprio, hflag, hoverlay, hchosen, hpick, hplaced, reserved_of hz61,
    ok_bind, need_of, decide_true, and_self, Bool.and_self, beq_self_eq_true]

theorem bodyObjFree_ok {c : Running} {s : State} {o : Obj} (hticket : c.ticket = 0) (hfirst : s.fenced c = false) (harg : objArg c s = .ok o) (hz44 : Zero c 44 20)
    (hwindow : ∀ h ∈ s.objTree o, s.windowObj c.ctx h = false) : bodyObjFree c s = .ok (s.freeObjs c.ctx (s.objTree o), some ok) := by
  have hwindow : (!(s.objTree o).any (fun h => s.windowObj c.ctx h)) = true := by simpa using hwindow
  simp only [bodyObjFree, noTicket_of hticket, hfirst, harg, reserved_of hz44, hwindow, ok_bind, need_of, Bool.false_eq_true, if_false]

theorem bodyObjSetPolicy_ok {c : Running} {s s1 : State} {o : Obj} (hticket : c.ticket = 0) (harg : objArg c s = .ok o) (hpol : c.u 44 1 < 16) (hpolicy : c.u 44 1 % 8 ≤ 5)
    (hprot : bit (c.u 44 1) 3 = o.prot) (hz47 : Zero c 47 17) (hpin : isPin (c.u 44 1 % 8) = isPin o.policy)
    (hs1 : s1 = s.modObj c.ctx o.handle (fun o => { o with policy := c.u 44 1 % 8, affinity := c.u 45 1, farMask := c.u 46 1, groups := s.farSet (c.u 46 1) }))
    (hfits : s1.fits c.ctx o.handle (isPin (c.u 44 1 % 8)) o.pages.length 0 = .ok ()) (hmoved : (s1.migrate c.uid c.ctx o.handle o.pages.length 0).2.2 = false) :
    bodyObjSetPolicy c s = .ok ((s1.migrate c.uid c.ctx o.handle o.pages.length 0).1, some (okProgress (s1.migrate c.uid c.ctx o.handle o.pages.length 0).2.1)) := by
  have hpol : bits (c.u 44 1) 7 4 = 0 := bits_of_lt (lo := 4) hpol
  simp only [bodyObjSetPolicy, noTicket_of hticket, harg, reserved_of hz47, hpol, hpolicy, hprot, hpin, ← hs1, ok_bind, need_of, decide_true, Bool.and_self, beq_self_eq_true]
  rw [hpin] at hfits
  simp only [hfits, Bool.and_not_self, Bool.false_and, Bool.not_false, need_of, ok_bind, hmoved, Bool.false_eq_true, if_false]

theorem bodyObjQuery_ok {c : Running} {s s1 : State} {o : Obj} {host : Bool} {addr : Nat} (hticket : c.ticket = 0) (harg : objArg c s = .ok o) (hz44 : Zero c 44 4)
    (hfield : recordField c 48 = .ok (host, addr)) (haddr : addr % 64 = 0) (hz56 : Zero c 56 8) (hne : c.u 48 8 ≠ 0) (hout : s.output c host addr o.record = .ok s1) :
    bodyObjQuery c s = .ok (s1, some ok) := by
  simp [bodyObjQuery, *]

/-- Settles O33: what the body of each command leaves, where its checks are met. -/
theorem objectCommandsComplete : Obligations.ObjectCommandsComplete := by
  unfold Obligations.ObjectCommandsComplete
  refine ⟨fun k => ?_, fun t base h s3 => ?_, fun o => ?_, fun o s1 => ?_, fun o host addr s1 => ?_⟩
  · refine effect_ok (fun _ _ _ => rfl) fun c s h => ?_
    obtain ⟨hz40, hticket, hformat, hpart, hctx, hlive, hgen, hholder, hheld⟩ := h
    exact bodyTicketRelease_ok hz40 hticket hformat hpart hctx hlive hgen hholder hheld
  · refine effect_ok (t := fun _ _ => s3) (fun _ _ _ => rfl) fun c s h => ?_
    obtain ⟨huse, hsize, hmin, hmax, haddr, hend, hpol, hpolicy, hprio, hflag, hz61, hbase, hhandle, hplaced⟩ := h
    exact bodyObjCreate_ok huse hsize hmin hmax haddr hend hpol hpolicy hprio hflag hz61 hbase hhandle hplaced
  · exact effect_ok (fun _ _ _ => rfl) fun c s ⟨hticket, hfirst, harg, hz44, hwindow⟩ => bodyObjFree_ok hticket hfirst harg hz44 hwindow
  · refine effect_ok (t := fun c _ => (s1.migrate c.uid c.ctx o.handle o.pages.length 0).1) (fun _ _ _ => rfl) fun c s h => ?_
    obtain ⟨hticket, harg, hpol, hpolicy, hprot, hz47, hpin, hs1, hfits, hmoved⟩ := h
    exact bodyObjSetPolicy_ok hticket harg hpol hpolicy hprot hz47 hpin hs1 hfits hmoved
  · exact effect_ok (t := fun _ _ => s1) (fun _ _ _ => rfl) fun c s ⟨hticket, harg, hz44, hfield, haddr, hz56, hne, hout⟩ =>
      bodyObjQuery_ok hticket harg hz44 hfield haddr hz56 hne hout

end Sys2Proof.Machine

/-! ### Program, plan and fill-group commands -/

namespace Sys2Proof.Machine

theorem bodyProgLoad_ok {c : Running} {s : State} {ops : List Op} {g : Grant} (hplen : c.u 26 2 = 64) (hticket : c.ticket = 0) (hformat : imageFormat c 40 48 = .ok ())
    (himage : s.progImage c (declAt c 64) 40 48 = .ok ops) (hpair : s.pairedPart c.part = false ∨ ringBars ops = false) (hz52 : Zero c 52 12) (hdecl : declFormat c 64 64 = .ok ())
    (hgrant : s.admission c 64 = .ok g) :
    bodyProgLoad c s = .ok (((s.sawImage c (c.u 40 8) (c.u 48 4)).issue c g (.prog ops)).1, some (okProgress ((s.sawImage c (c.u 40 8) (c.u 48 4)).issue c g (.prog ops)).2)) := by
  have hpair : (!(s.pairedPart c.part && ringBars ops)) = true := by simpa [← or_iff_not_imp_left] using hpair
  simp only [bodyProgLoad, plenIs_of hplen, noTicket_of hticket, hformat, himage, hpair, reserved_of hz52, hdecl, hgrant, ok_bind, need_of]

theorem bodyProgLaunch_ok {c : Running} {s : State} {n : Nat} {t : Ticket} {ops : List Op} {args : List Byte} {phys : List Nat} (hargs : argsField c 40 48 4096 = .ok ()) (hz50 : Zero c 50 14)
    (huse : s.useTicket c .prog = .ok (n, t)) (hpayload : t.payload = .prog ops) (hinput : s.input c (bit (c.u 40 8) 0) (c.u 40 8 / 64 * 64) (c.u 48 2) = .ok args)
    (hcores : s.freeCores t.ctx t.cores = some phys) :
    bodyProgLaunch c s = .ok (((s.sawImage c (c.u 40 8) (c.u 48 2)).startLaunch (.cmd c.uid) t c.part ops phys args c.chill c.step).modCmd c.uid (fun k => { k with work := .launch s.cores.nextLaunch }), none) := by
  simp only [bodyProgLaunch, hargs, reserved_of hz50, judgeTicket_of_useTicket huse, hpayload, hinput, hcores, ok_bind]

theorem bodyPlanLoad_ok {c : Running} {s : State} {es : List PlanEntry} {g : Grant} (hplen : c.u 26 2 = 64) (hticket : c.ticket = 0) (hformat : imageFormat c 40 48 = .ok ())
    (himage : s.planImage c (declAt c 64) = .ok es) (hpair : s.pairedPart c.part = false ∨ ∀ e ∈ es, s.ringEntry c e = false) (hz52 : Zero c 52 12) (hdecl : declFormat c 64 64 = .ok ())
    (hgrant : s.admission c 64 = .ok g) :
    bodyPlanLoad c s = .ok (((s.sawPlan c es).issue c g (.plan es)).1, some (okProgress ((s.sawPlan c es).issue c g (.plan es)).2)) := by
  have hpair : (!(s.pairedPart c.part && es.any (s.ringEntry c))) = true := by simpa [← or_iff_not_imp_left] using hpair
  simp only [bodyPlanLoad, plenIs_of hplen, noTicket_of hticket, hformat, himage, hpair, reserved_of hz52, hdecl, hgrant, ok_bind, need_of]

theorem bodyPlanLaunch_ok {c : Running} {s : State} {n : Nat} {t : Ticket} {es : List PlanEntry} {phys : List Nat} (huse : s.useTicket c .plan = .ok (n, t)) (hz40 : Zero c 40 24)
    (hpayload : t.payload = .plan es) (hlive : ∀ e ∈ es, e.kind = 3 → (s.entryTicket c e.ticket).isSome) (hcores : s.freeCores t.ctx t.cores = some phys) :
    bodyPlanLaunch c s = .ok ((((s.holdCores c.uid c.ctx phys).modCmd c.uid (fun k => { k with work := .plan 0 })).pumpPlan c 0).settleJobs, none) := by
  have hnone : es.find? (fun e => e.kind == 3 && (s.entryTicket c e.ticket).isNone) = none := by
    rw [List.find?_eq_none]
    intro e he h
    rw [Bool.and_eq_true, beq_iff_eq, Option.isNone_iff_eq_none] at h
    have := hlive e he h.1
    rw [h.2] at this
    cases this
  simp only [bodyPlanLaunch, reserved_of hz40, judgeTicket_of_useTicket huse, hpayload, hnone, hcores, ok_bind]

theorem bodyFillGroupCreate_ok {c : Running} {s : State} {ops : List Op} {a : Grant} (hplen : c.u 26 2 = 80) (hticket : c.ticket = 0) (hgroup : c.u 40 2 < 64) (hfree : s.fill? c.part (c.u 40 2) = none)
    (hmin : 1 ≤ c.u 42 1) (hmax : c.u 42 1 ≤ 64) (hz43 : Zero c 43 1) (hargs : argsField c 48 56 2048 = .ok ()) (hz58 : Zero c 58 6) (hdecl : declFormat c 64 64 = .ok ())
    (hformat : imageFormat c 128 136 = .ok ()) (himage : s.progImage c (declAt c 64) 128 136 = .ok ops) (hz140 : Zero c 140 4) (hgrant : s.admission c 64 = .ok a) :
    bodyFillGroupCreate c s = .ok (
      let r := (s.sawImage c (c.u 128 8) (c.u 136 4)).issue c a (.fill (c.u 40 2))
      ({ r.1 with cores := { r.1.cores with fills := r.1.cores.fills ++ [{
        part := c.part, group := c.u 40 2, slot := a.slot, maxRows := c.u 42 1, deadline := c.u 44 4, args := c.u 48 8, argsBytes := c.u 56 2, ops := ops }] } }, some (okProgress r.2))) := by
  simp only [bodyFillGroupCreate, plenIs_of hplen, noTicket_of hticket, hgroup, hfree, hmin, hmax, reserved_of hz43, hargs, reserved_of hz58, hdecl, hformat, himage, reserved_of hz140, hgrant,
    ok_bind, need_of, decide_true, Option.isNone_none, Bool.and_self, and_self]

/-- A command that names a live fill group of its ticket, and whose fields are good, acts on that group (R82). -/
theorem fillArg_ok {s : State} {c : Running} {fields : Nat → Except Stop Unit} {n : Nat × Ticket} {k : FillGroup} (huse : s.useTicket c .fill = .ok n) (hpayload : n.2.payload = .fill (c.u 40 2))
    (hgroup : s.fill? c.part (c.u 40 2) = some k) (hlive : k.destroying = false) (hfields : fields k.maxRows = .ok ()) : s.fillArg c fields = .ok k := by
  simp only [State.fillArg, judgeTicket_of_useTicket huse, hpayload, hgroup, hfields, hlive, ok_bind, need_of, beq_self_eq_true, Bool.not_false]

theorem bodyFillSubmit_ok {c : Running} {s : State} {n : Nat × Ticket} {k : FillGroup} (huse : s.useTicket c .fill = .ok n) (hpayload : n.2.payload = .fill (c.u 40 2))
    (hgroup : s.fill? c.part (c.u 40 2) = some k) (hlive : k.destroying = false) (hmin : 1 ≤ c.u 42 1) (hmax : c.u 42 1 ≤ k.maxRows) (hz43 : Zero c 43 5)
    (hin : bits (c.u 48 8) 5 1 = 0) (hout : bits (c.u 56 8) 5 1 = 0) :
    bodyFillSubmit c s = .ok ((s.modCmd c.uid (fun r => { r with work := .fill k.part k.group })).joinBatch k { uid := c.uid, rows := c.u 42 1, inAddr := c.u 48 8, outAddr := c.u 56 8 } c.chill, none) := by
  unfold bodyFillSubmit
  rw [fillArg_ok huse hpayload hgroup hlive (by simp [hmin, hmax, hz43, hin, hout])]
  rfl

theorem bodyFillFlush_ok {c : Running} {s : State} {n : Nat × Ticket} {k : FillGroup} (huse : s.useTicket c .fill = .ok n) (hpayload : n.2.payload = .fill (c.u 40 2))
    (hgroup : s.fill? c.part (c.u 40 2) = some k) (hlive : k.destroying = false) (hz42 : Zero c 42 22) : bodyFillFlush c s = .ok (s.issueBatch k.part k.group 48 16, some ok) := by
  simp only [bodyFillFlush, fillArg_ok (fields := fun _ => reserved c 42 22) huse hpayload hgroup hlive (reserved_of hz42), ok_bind]

theorem bodyFillGroupDestroy_ok {c : Running} {s : State} {n : Nat × Ticket} {k : FillGroup} (huse : s.useTicket c .fill = .ok n) (hpayload : n.2.payload = .fill (c.u 40 2))
    (hgroup : s.fill? c.part (c.u 40 2) = some k) (hlive : k.destroying = false) (hz42 : Zero c 42 22) (hissued : k.issued = []) :
    bodyFillGroupDestroy c s = .ok (((((k.openBatch.map (·.reqs)).getD []).foldl (fun st q => st.reply q.uid errAborted) s).modFill k.part k.group
      (fun k => { k with openBatch := none, destroying := true })).release k.part k.slot, some ok) := by
  simp only [bodyFillGroupDestroy, fillArg_ok (fields := fun _ => reserved c 42 22) huse hpayload hgroup hlive (reserved_of hz42), hissued, List.isEmpty_nil, if_true, ok_bind]

/-- Settles O34: what the body of each command leaves, where its checks are met. -/
theorem programCommandsComplete : Obligations.ProgramCommandsComplete := by
  unfold Obligations.ProgramCommandsComplete
  refine ⟨fun ops g => ?_, fun n t ops args phys => ?_, fun es g => ?_, fun n t es phys => ?_, fun ops a => ?_, fun n k => ?_, fun n k => ?_, fun n k => ?_⟩
  · exact effect_ok (fun _ _ _ => rfl) fun c s ⟨hplen, hticket, hformat, himage, hpair, hz52, hdecl, hgrant⟩ => bodyProgLoad_ok hplen hticket hformat himage hpair hz52 hdecl hgrant
  · exact effect_going (fun _ _ _ => rfl) fun c s ⟨hargs, hz50, huse, hpayload, hinput, hcores⟩ => bodyProgLaunch_ok hargs hz50 huse hpayload hinput hcores
  · exact effect_ok (fun _ _ _ => rfl) fun c s ⟨hplen, hticket, hformat, himage, hpair, hz52, hdecl, hgrant⟩ => bodyPlanLoad_ok hplen hticket hformat himage hpair hz52 hdecl hgrant
  · exact effect_going (fun _ _ _ => rfl) fun c s ⟨huse, hz40, hpayload, hlive, hcores⟩ => bodyPlanLaunch_ok huse hz40 hpayload hlive hcores
  · refine effect_of (fun _ _ _ => rfl) fun c s h => ?_
    obtain ⟨hplen, hticket, hgroup, hfree, hmin, hmax, hz43, hargs, hz58, hdecl, hformat, himage, hz140, hgrant⟩ := h
    exact runBody_ok (bodyFillGroupCreate_ok hplen hticket hgroup hfree hmin hmax hz43 hargs hz58 hdecl hformat himage hz140 hgrant)
  · refine effect_going (fun _ _ _ => rfl) fun c s h => ?_
    obtain ⟨huse, hpayload, hgroup, hlive, hmin, hmax, hz43, hin, hout⟩ := h
    exact bodyFillSubmit_ok huse hpayload hgroup hlive hmin hmax hz43 hin hout
  · exact effect_ok (fun _ _ _ => rfl) fun c s ⟨huse, hpayload, hgroup, hlive, hz42⟩ => bodyFillFlush_ok huse hpayload hgroup hlive hz42
  · exact effect_ok (fun _ _ _ => rfl) fun c s ⟨huse, hpayload, hgroup, hlive, hz42, hissued⟩ => bodyFillGroupDestroy_ok huse hpayload hgroup hlive hz42 hissued

end Sys2Proof.Machine

/-! ### Streams and copies -/

namespace Sys2Proof.Machine

theorem bodyStream_ok {c : Running} {s s1 : State} {n : Nat} {t : Ticket} {cores phys : List Nat} (hplen : c.u 26 2 = 128) (huse : s.useTicket c .progOrPlan = .ok (n, t)) (haxis : c.u 40 1 ≤ 5)
    (hrange : coreRange t (c.u 41 1) (c.u 42 1) 41 = .ok cores) (hz43 : Zero c 43 21) (hgood : streamErrors ((c.pkt.bytes.drop 64).take 128) (streamDesc ((c.pkt.bytes.drop 64).take 128) [0, 0, 0, 0]) = none)
    (hphys : s.physCores cores = some phys) (hrank : c.u 40 1 < fld ((c.pkt.bytes.drop 64).take 128) 115 1) (hfree : ∀ k ∈ phys, s.coreFree c.ctx k = true)
    (hsplit : (s.holdCores c.uid c.ctx phys).startSplit c 0 c.pkt.bytes phys t.decl.dense = .ok s1) :
    bodyStream c s = .ok ((s1.modCmd c.uid (fun k => if k.reply.isSome then k else { k with work := .jobs })).settleJobs, none) := by
  have hfree : (!phys.all (s.coreFree c.ctx)) = false := by simpa using hfree
  simp only [bodyStream, plenIs_of hplen, judgeTicket_of_useTicket huse, haxis, hrange, reserved_of hz43, hgood, hphys, hrank, hfree, hsplit, ok_bind, need_of, decide_true, Bool.false_eq_true, if_false]

theorem bodyFused_ok {c : Running} {s s1 : State} {n : Nat} {t : Ticket} {gs : List Stage} {cores phys : List Nat} (huse : s.useTicket c .progOrPlan = .ok (n, t)) (hfields : fusedFields c.pkt.bytes = .ok gs)
    (hrange : coreRange t (c.u 41 1) (c.u 42 1) 41 = .ok cores) (hgood : ∀ g ∈ gs, g.bad = none) (hphys : s.physCores cores = some phys) (hfree : ∀ k ∈ phys, s.coreFree c.ctx k = true)
    (hstart : ((s.holdCores c.uid c.ctx phys).modCmd c.uid (fun k => { k with work := .jobs })).startFused c 0 c.pkt.bytes gs phys = .ok s1) : bodyFused c s = .ok (s1.settleJobs, none) := by
  have hfree : (!phys.all (s.coreFree c.ctx)) = false := by simpa using hfree
  have hgood : gs.findSome? (fun g => g.bad.map (fun o => (g, o))) = none := List.findSome?_eq_none_iff.mpr fun g hg => by rw [hgood g hg]; rfl
  simp only [bodyFused, judgeTicket_of_useTicket huse, hfields, hrange, hgood, hphys, hfree, hstart, ok_bind, Bool.false_eq_true, if_false]

theorem bodyHostCopy_ok {c : Running} {s : State} (hplen : c.u 26 2 = 8) (hticket : c.ticket = 0) (hdir : c.u 40 1 ≤ 1) (hz41 : Zero c 41 7) (hhost : c.u 48 8 % 64 = 0) (hdev : c.u 56 8 % 64 = 0)
    (hdevRange : c.u 56 8 < 2 ^ 52) (hbytes : c.u 64 8 % 64 = 0) (hmin : 64 ≤ c.u 64 8) (hmax : c.u 64 8 ≤ 2 ^ 40) (hdevEnd : c.u 56 8 + c.u 64 8 ≤ 2 ^ 52) (hhostEnd : c.u 48 8 + c.u 64 8 ≤ 2 ^ 64) :
    bodyHostCopy c s = .ok (s.startCopy c (if c.u 40 1 = 0 then copyDesc 2 1 (c.u 48 8) (c.u 56 8) (c.u 64 8) else copyDesc 1 2 (c.u 56 8) (c.u 48 8) (c.u 64 8)) none, none) := by
  simp only [bodyHostCopy, plenIs_of hplen, noTicket_of hticket, hdir, reserved_of hz41, hhost, hdev, hdevRange, hbytes, hmin, hmax, hdevEnd, hhostEnd, ok_bind, need_of, decide_true, and_self, Bool.and_self, beq_self_eq_true]

theorem bodyFillConst_ok {c : Running} {s : State} (hticket : c.ticket = 0) (haddr : c.u 40 8 % 8 = 0) (hrange : c.u 40 8 < 2 ^ 52) (hbytes : c.u 48 8 % 8 = 0) (hmin : 8 ≤ c.u 48 8) (hmax : c.u 48 8 ≤ 2 ^ 48)
    (hend : c.u 40 8 + c.u 48 8 ≤ 2 ^ 52) : bodyFillConst c s = .ok (s.startCopy c (copyDesc 1 1 (c.u 40 8) (c.u 40 8) (c.u 48 8)) (some (BitVec.ofNat 64 (c.u 56 8))), none) := by
  simp only [bodyFillConst, noTicket_of hticket, haddr, hrange, hbytes, hmin, hmax, hend, ok_bind, need_of, decide_true, and_self, Bool.and_self, beq_self_eq_true]

/-- Settles O35: what the body of each command leaves, where its checks are met and its cores are free. -/
theorem streamCommandsComplete : Obligations.StreamCommandsComplete := by
  unfold Obligations.StreamCommandsComplete
  refine ⟨fun n t cores phys s1 => ?_, fun n t gs cores phys s1 => ?_, ?_, ?_⟩
  · refine effect_going (body := bodyStream) (fun _ _ _ => rfl) fun c s h => ?_
    obtain ⟨hplen, huse, haxis, hrange, hz43, hgood, hphys, hrank, hfree, hsplit⟩ := h
    exact bodyStream_ok hplen huse haxis hrange hz43 hgood hphys hrank hfree hsplit
  · exact effect_going (t := fun _ _ => s1.settleJobs) (fun _ _ _ => rfl) fun c s ⟨huse, hfields, hrange, hgood, hphys, hfree, hstart⟩ => bodyFused_ok huse hfields hrange hgood hphys hfree hstart
  · refine effect_going (fun _ _ _ => rfl) fun c s h => ?_
    obtain ⟨hplen, hticket, hdir, hz41, hhost, hdev, hdevRange, hbytes, hmin, hmax, hdevEnd, hhostEnd⟩ := h
    exact bodyHostCopy_ok hplen hticket hdir hz41 hhost hdev hdevRange hbytes hmin hmax hdevEnd hhostEnd
  · exact effect_going (fun _ _ _ => rfl) fun c s ⟨hticket, haddr, hrange, hbytes, hmin, hmax, hend⟩ => bodyFillConst_ok hticket haddr hrange hbytes hmin hmax hend

end Sys2Proof.Machine

/-! ### Collectives, barriers and scale votes -/

namespace Sys2Proof.Machine

/-- A collective of uncompressed elements that waits for no line starts on its ring. -/
theorem bodyColl_starts {cop : Nat} {c : Running} {s : State} {k : Coll} (hfields : s.collFields c cop = .ok k) (hplain : k.compress = false) (hring : k.toCru = false)
    (haxis : s.refuseAxis c = .ok ()) (hlines : s.waitLines c k.lines = none) : bodyColl cop c s = .ok (s.collStart k, none) := by
  simp only [bodyColl, hfields, hplain, hring, haxis, hlines, ok_bind, Bool.false_eq_true, if_false]

theorem bodyColl_toCru {cop : Nat} {c : Running} {s s1 : State} {k : Coll} (hfields : s.collFields c cop = .ok k) (hplain : k.compress = false) (hcru : k.toCru = true)
    (haxis : s.refuseAxis c = .ok ()) (hlines : s.waitLines c k.lines = none) (hgroup : s.collGroup c k = .ok (some s1)) : bodyColl cop c s = .ok ((s1.collStart k).collLogged c.uid, none) := by
  simp only [bodyColl, hfields, hplain, hcru, haxis, hlines, hgroup, ok_bind, Bool.false_eq_true, if_false, if_true]

/-- A barrier on an axis of a ring: released at once on a ring of one device, joined on a longer one (R117, R435). -/
theorem bodyBarrier_eq {c : Running} {s : State} {n : Nat} {t : Ticket} {b : Nat} (huse : s.useTicket c .any = .ok (n, t)) (hid : t.barIds[c.u 40 2]? = some b) (hmin : 1 ≤ c.u 42 1) (hmax : c.u 42 1 ≤ 3)
    (hring : s.field .colRing c.part (c.u 42 1 - 1) 0 16 ≠ 0) (hz43 : Zero c 43 21) (haxis : s.refuseAxis c = .ok ()) :
    bodyBarrier c s = if s.field .colRing c.part (c.u 42 1 - 1) 0 16 = 1 then .ok ((s.useEpoch c.part b).barCount c.part false, some ok)
      else .ok ((s.modCmd c.uid (fun q => { q with work := .coll c.uid })).barJoin
        { part := c.part, axis := c.u 42 1, id := b, epoch := 0, uid := some c.uid, n := s.field .colRing c.part (c.u 42 1 - 1) 0 16, pos := s.field .colRing c.part (c.u 42 1 - 1) 16 16 } b, none) := by
  have hlt : c.u 40 2 < t.barIds.length := (List.getElem?_eq_some_iff.mp hid).1
  have hring : (s.field .colRing c.part (c.u 42 1 - 1) 0 16 != 0) = true := bne_iff_ne.mpr hring
  simp only [bodyBarrier, judgeTicket_of_useTicket huse, hid, hlt, hmin, hmax, hring, reserved_of hz43, haxis, ok_bind, need_of, decide_true, and_self, Option.getD_some]

theorem bodyScaleVote_ok {c : Running} {s : State} {x : Ctx} {l : List Byte} (hticket : c.ticket = 0) (hctx : s.ctx? c.ctx = some x) (hstep : c.step ≠ 0) (hvotes : ∀ v ∈ x.votes, v.step ≠ c.step)
    (hpending : c.step ∉ x.pendingVotes) (haxes : c.u 40 1 < 8) (hrings : ∀ r ∈ s.ringsOf c.part (c.u 40 1), r.2.1 ≠ 0) (hz41 : Zero c 41 7) (haddr : c.u 48 8 % 4 = 0) (hz56 : Zero c 56 8)
    (haxis : s.refuseAxis c = .ok ()) (hword : if c.u 48 8 = 0 then l = [] else s.input c false (c.u 48 8) 4 = .ok l) :
    bodyScaleVote c s = .ok (((if c.u 48 8 = 0 then s else s.sawInput c false (c.u 48 8) 4).modCtx c.ctx (fun k => { k with pendingVotes := k.pendingVotes ++ [c.step] })).modCmd c.uid (fun q =>
      { q with scale := { k := x.k, dec := x.dec, kMin := x.kMin, kMax := x.kMax, incEvery := x.incEvery }, ballot := some { word := leNat l, rings := s.ringsOf c.part (c.u 40 1) }, work := .vote }), none) := by
  have hseen : (x.votes.any (fun v => v.step == c.step) || x.pendingVotes.contains c.step) = false := by simpa [hpending] using hvotes
  have hstep : (c.step != 0) = true := bne_iff_ne.mpr hstep
  have hrings : (s.ringsOf c.part (c.u 40 1)).all (fun r => r.2.1 != 0) = true := by simpa using hrings
  simp only [bodyScaleVote, hctx, Option.map_some, Option.getD_some, hseen, hstep, Bool.not_false, Bool.and_self, need_of, noTicket_of hticket, Nat.div_eq_of_lt haxes, hrings, reserved_of hz41, haddr,
    reserved_of hz56, haxis, ok_bind, beq_self_eq_true]
  split at hword
  next h0 => rw [if_pos h0, hword]
  next h0 => simp only [if_neg h0, hword, ok_bind]

section
variable {s s1 : State} {c : Running} {v : Ballot} {x : Ctx} {w : Nat} (hballot : c.ballot = some v) (hctx : s.ctx? c.ctx = some x) (hw : w = v.word ||| (if x.overflow then 1 else 0))
  (hs1 : s1 = (s.modCtx c.ctx (fun k => { k with overflow := false })).modCmd c.uid (fun q => { q with ballot := none }))
include hballot hctx hw hs1

/-- A vote none of whose rings has another device resolves at its tick's end, with the overflow bit, which it clears (R350, R351). -/
theorem castVote_resolves (hone : ∀ r ∈ v.rings, r.2.1 ≤ 1) : s.castVote c = s1.resolveVote c.uid w := by
  have hnone : v.rings.filter (fun r => decide (1 < r.2.1)) = [] := List.filter_eq_nil_iff.mpr fun r hr => by simpa using hone r hr
  subst hw hs1
  simp only [State.castVote, hballot, hctx, Option.map_some, Option.getD_some, hnone]

/-- A vote with rings of several devices goes to the first of them (R350). -/
theorem castVote_joins {r : Nat × Nat × Nat} {rest : List (Nat × Nat × Nat)} (hrings : v.rings.filter (fun r => decide (1 < r.2.1)) = r :: rest) :
    s.castVote c = s1.barJoin { part := c.part, axis := r.1, id := 0, epoch := 0, vote := true, step := c.step, word := w, uid := some c.uid, left := rest, n := r.2.1, pos := r.2.2 } (voteKey r.1) := by
  subst hw hs1
  simp only [State.castVote, hballot, hctx, Option.map_some, Option.getD_some, hrings]

end

/-- Settles O36: what the body of each command leaves, where its checks are met, and what a vote does at its tick's end. -/
theorem collectiveCommandsComplete : Obligations.CollectiveCommandsComplete := by
  unfold Obligations.CollectiveCommandsComplete
  refine ⟨fun k => ?_, fun k s1 => ?_, fun k => ?_, fun k => ?_, fun k => ?_, fun n t b => ?_, fun n t b => ?_, fun x l => ?_, fun s c v x s1 w hballot hctx hw hs1 => ⟨fun hone => ?_, fun r rest hrest => ?_⟩⟩
  · exact effect_going (fun _ _ _ => rfl) fun c s ⟨hfields, hplain, hring, haxis, hlines⟩ => bodyColl_starts hfields hplain hring haxis hlines
  · exact effect_going (t := fun c _ => (s1.collStart k).collLogged c.uid) (fun _ _ _ => rfl) fun c s ⟨hfields, hplain, hcru, haxis, hlines, hgroup⟩ => bodyColl_toCru hfields hplain hcru haxis hlines hgroup
  · exact effect_going (fun _ _ _ => rfl) fun c s ⟨hfields, hplain, hring, haxis, hlines⟩ => bodyColl_starts hfields hplain hring haxis hlines
  · exact effect_going (fun _ _ _ => rfl) fun c s ⟨hfields, hplain, hring, haxis, hlines⟩ => bodyColl_starts hfields hplain hring haxis hlines
  · exact effect_going (fun _ _ _ => rfl) fun c s ⟨hfields, hplain, hring, haxis, hlines⟩ => bodyColl_starts hfields hplain hring haxis hlines
  · exact effect_ok (fun _ _ _ => rfl) fun c s ⟨huse, hid, hmin, hmax, hone, hz43, haxis⟩ =>
      (bodyBarrier_eq huse hid hmin hmax (by rw [hone]; exact Nat.one_ne_zero) hz43 haxis).trans (if_pos hone)
  · exact effect_going (fun _ _ _ => rfl) fun c s ⟨huse, hid, hmin, hmax, hmore, hz43, haxis⟩ =>
      (bodyBarrier_eq huse hid hmin hmax (Nat.ne_zero_of_lt hmore) hz43 haxis).trans (if_neg (Nat.ne_of_gt hmore))
  · refine effect_going (fun _ _ _ => rfl) fun c s h => ?_
    obtain ⟨hticket, hctx, hstep, hvotes, hpending, haxes, hrings, hz41, haddr, hz56, haxis, hword⟩ := h
    exact bodyScaleVote_ok hticket hctx hstep hvotes hpending haxes hrings hz41 haddr hz56 haxis hword
  · exact castVote_resolves hballot hctx hw hs1 hone
  · exact castVote_joins hballot hctx hw hs1 hrest

end Sys2Proof.Machine

/-! ### Embedding commands -/

namespace Sys2Proof.Machine

theorem bodyEmbTableCreate_ok {c : Running} {s s0 : State} {bs : List Byte} {g : Grant} {id : Nat} (hplen : c.u 26 2 = 64) (hticket : c.ticket = 0) (haddr : c.u 40 8 % 64 = 0) (hrange : c.u 40 8 < 2 ^ 52)
    (hmin : 1 ≤ c.u 48 2) (hmax : c.u 48 2 ≤ 4096) (hz50 : Zero c 50 14) (hdecl : declFormat c 64 64 = .ok ()) (hinput : s.input c false (c.u 40 8) (64 * c.u 48 2) = .ok bs)
    (hgood : ∀ p ∈ (chunks 64 4097 bs).zipIdx, s.tableErrors c.ctx p.1 = none) (hgrant : s.admission c 64 = .ok g)
    (hpick : (s.sawInput c false (c.u 40 8) (64 * c.u 48 2)).pick 65536 ((s.embed.tsets.filter (·.ctx == c.ctx)).map (·.id)) = (some id, s0)) :
    bodyEmbTableCreate c s = .ok (
      let r := s0.issue c g (.tables id)
      ({ r.1 with embed := { r.1.embed with tsets := r.1.embed.tsets ++ [{ ctx := c.ctx, id := id, part := c.part, slot := g.slot, tables := (chunks 64 4097 bs).map tableOf }] } },
        some (okProgress r.2 id))) := by
  have hgood : (chunks 64 4097 bs).zipIdx.findSome? (fun p => (s.tableErrors c.ctx p.1).map (fun o => (o, p.2))) = none :=
    List.findSome?_eq_none_iff.mpr fun p hp => by rw [hgood p hp]; rfl
  simp only [bodyEmbTableCreate, plenIs_of hplen, noTicket_of hticket, haddr, hrange, hmin, hmax, reserved_of hz50, hdecl, hinput, hgood, hgrant, hpick, ok_bind, need_of, decide_true, and_self, Bool.and_self, beq_self_eq_true]

theorem bodyEmbLookup_runs {c : Running} {s s2 : State} {d : List Byte} {tbl : Table} {phys : List Nat} {tk : Ticket} (hcmd : s.embCommand c 1 = .ok (.ok (d, tbl, phys, tk)))
    (hfree : ∀ k ∈ phys, s.coreFree c.ctx k = true) (hyarrow : s.yarrowWaits c.ctx (embDesc d).tset (embDesc d).table = false) (hprov : s.provHeld none (s.embPlaces (embDesc d) tbl 1 0 c.ctx 0 (embDesc d).bags) = false)
    (hlines : s.waitLines c [((embDesc d).data, ((embDesc d).bags - 1) * (embDesc d).stride + dataBytes 1 (embDesc d) tbl.width, true)] = none)
    (hshares : ((s.holdCores c.uid c.ctx phys).modCmd c.uid (fun k => { k with work := .jobs })).lookupShares c d tk.decl.sparse phys = .ok s2) :
    s.runBody bodyEmbLookup c = if s2.embed.gathers.any (·.uid == c.uid) then s2 else s2.reply c.uid (okProgress (embDesc d).bags) := by
  have hfree : (!phys.all (s.coreFree c.ctx)) = false := by simpa using hfree
  have hbody : bodyEmbLookup c s = .ok (if s2.embed.gathers.any (·.uid == c.uid) then (s2, none) else (s2, some (okProgress (embDesc d).bags))) := by
    simp only [bodyEmbLookup, hcmd, hfree, hyarrow, hprov, hlines, hshares, ok_bind, Bool.false_eq_true, or_self, if_false]
  split
  next h => rw [if_pos h] at hbody; exact runBody_going hbody
  next h => rw [if_neg h] at hbody; exact runBody_ok hbody

theorem bodyYarrowLoad_ok {c : Running} {s : State} {tbl : Table} {rows : List Nat} {k : Part} (hargs : s.yarrowArgs c true = .ok (tbl, rows)) (hpart : s.part? c.part = some k) (hadd : c.u 44 1 = 1) :
    bodyYarrowLoad c s = .ok (((s.sawInput c false (c.u 48 8) (8 * c.u 56 4)).yarrowLoadRows c tbl k rows).1,
      some (okProgress rows.length ((s.sawInput c false (c.u 48 8) (8 * c.u 56 4)).yarrowLoadRows c tbl k rows).2)) := by
  simp only [bodyYarrowLoad, hargs, hpart, hadd, ok_bind, Nat.one_ne_zero, if_false]

theorem bodyYarrowWriteback_ok {c : Running} {s : State} {tbl : Table} {rows : List Nat} (hargs : s.yarrowArgs c false = .ok (tbl, rows)) (hmode : c.u 44 1 ≠ 2) :
    bodyYarrowWriteback c s = .ok ((s.residents c tbl).foldl (fun st a => st.yarrowBack c tbl (c.u 44 1 == 1) a) s, some (okProgress (s.residents c tbl).length)) := by
  simp only [bodyYarrowWriteback, hargs, hmode, ok_bind, if_false]

/-- An update that nothing holds issues the row adds of its cores' shares; in Chill mode it waits for its barrier, else it ends once no add of it is outstanding (R311 to R318). -/
theorem bodyEmbUpdate_runs {c : Running} {s : State} {d : List Byte} {tbl : Table} {phys : List Nat} {tk : Ticket} {parts : List (Nat × Nat × (Nat × Nat) × List Contribution)}
    (hwaits : s.stepWaits c.ctx c.step = false) (hcmd : s.embCommand c 2 = .ok (.ok (d, tbl, phys, tk))) (hskipped : s.stepSkipped c.ctx c.step = false)
    (hfree : ∀ k ∈ phys, s.coreFree c.ctx k = true) (hyarrow : s.yarrowWaits c.ctx (embDesc d).tset (embDesc d).table = false) (hprov : s.provHeld none (s.embPlaces (embDesc d) tbl 2 0 c.ctx 0 (embDesc d).bags) = false)
    (hdata : firstUnmapped s c.ctx ([dataRange 2 (embDesc d) tbl.width 0 (embDesc d).bags] ++
      (if c.chill = true ∨ (embDesc d).coalesce = true then [(true, (embDesc d).scratch, (embDesc d).scratchBytes)] else [])) = none)
    (hids : s.idsUnmapped 0 c.ctx (embDesc d) 2 0 (embDesc d).bags = none)
    (hparts : parts = phys.zipIdx.map (fun q => (q.1, q.2, bagShare (embDesc d).bags phys.length q.2,
      s.contributions q.1 c.ctx (embDesc d) tbl (bagShare (embDesc d).bags phys.length q.2).1 (bagShare (embDesc d).bags phys.length q.2).2)))
    (hrows : firstUnmapped s c.ctx (((parts.flatMap (fun q => q.2.2.2)).map (fun k => (s.authority (((s.ctx? c.ctx).map (·.part)).getD 0) c.ctx (tbl.rowAddr k.row), rowLen tbl.width tbl.bits))).map (fun r => (true, r.1, r.2))) = none)
    (hfar : s.farProtected (((s.ctx? c.ctx).map (·.part)).getD 0) c.ctx tbl (parts.flatMap (fun q => q.2.2.2)) = false)
    (hroom : c.chill = true → entryBytes tbl.width * sumOf (fun q => (distinct (q.2.2.2.map (fun (k : Contribution) => k.row))).length) parts ≤ (embDesc d).scratchBytes)
    (hlines : s.waitLines c (((parts.flatMap (fun q => q.2.2.2)).map (fun k => (s.authority (((s.ctx? c.ctx).map (·.part)).getD 0) c.ctx (tbl.rowAddr k.row), rowLen tbl.width tbl.bits))).map (fun r => (r.1, r.2, true))) = none) :
    s.runBody bodyEmbUpdate c =
      let s2 := parts.foldl (fun st q => st.runUpdate (.job c.uid) c.uid q.1 q.2.1 0 c.ctx d tbl q.2.2.1.1 q.2.2.1.2 ((embDesc d).scratchBytes / phys.length) c.step tk.decl.sparse c.chill q.2.2.2)
        ((s.holdCores c.uid c.ctx phys).modCmd c.uid (fun k => { k with work := .jobs }))
      if c.chill = true then s2.modCmd c.uid (fun k => { k with work := .barrier })
      else if s2.embed.adds.any (fun r => r.uid == c.uid) then s2 else (s2.dropCores c.uid).reply c.uid (okProgress (embDesc d).bags) := by
  have hfree : (!phys.all (s.coreFree c.ctx)) = false := by simpa using hfree
  have hroom : (!(c.chill && decide ((embDesc d).scratchBytes < entryBytes tbl.width * sumOf (fun q => (distinct (q.2.2.2.map (fun (k : Contribution) => k.row))).length) parts))) = true := by
    simpa [← Bool.not_eq_true, ← imp_iff_not_or] using hroom
  rw [List.map_map] at hrows hlines
  change firstUnmapped s c.ctx ((parts.flatMap (fun q => q.2.2.2)).map (fun k => (true, s.authority (((s.ctx? c.ctx).map (·.part)).getD 0) c.ctx (tbl.rowAddr k.row), rowLen tbl.width tbl.bits))) = none at hrows
  change s.waitLines c ((parts.flatMap (fun q => q.2.2.2)).map (fun k => (s.authority (((s.ctx? c.ctx).map (·.part)).getD 0) c.ctx (tbl.rowAddr k.row), rowLen tbl.width tbl.bits, true))) = none at hlines
  simp only [State.runBody, bodyEmbUpdate, hwaits, hcmd, hskipped, hfree, hyarrow, hprov, hdata, hids, ← hparts, hrows, hfar, hroom, hlines, ok_bind, need_of, Bool.not_false, Bool.false_eq_true, or_self, if_false]
  split_ifs <;> rfl

/-- Settles O37: what the body of each command leaves, where its checks are met and nothing holds it. -/
theorem embeddingCommandsComplete : Obligations.EmbeddingCommandsComplete := by
  unfold Obligations.EmbeddingCommandsComplete
  refine ⟨fun bs g id s0 => ?_, fun d tbl phys tk s2 => ?_, fun d tbl phys tk parts => ?_, fun tbl rows k => ?_, fun tbl rows => ?_⟩
  · refine effect_of (fun _ _ _ => rfl) fun c s h => ?_
    obtain ⟨hplen, hticket, haddr, hrange, hmin, hmax, hz50, hdecl, hinput, hgood, hgrant, hpick⟩ := h
    exact runBody_ok (bodyEmbTableCreate_ok hplen hticket haddr hrange hmin hmax hz50 hdecl hinput hgood hgrant hpick)
  · exact effect_of (fun _ _ _ => rfl) fun c s ⟨hcmd, hfree, hyarrow, hprov, hlines, hshares⟩ => bodyEmbLookup_runs hcmd hfree hyarrow hprov hlines hshares
  · refine effect_of (fun _ _ _ => rfl) fun c s h => ?_
    obtain ⟨hwaits, hcmd, hskipped, hfree, hyarrow, hprov, hdata, hids, hparts, hrows, hfar, hroom, hlines⟩ := h
    exact bodyEmbUpdate_runs hwaits hcmd hskipped hfree hyarrow hprov hdata hids hparts hrows hfar hroom hlines
  · exact effect_ok (fun _ _ _ => rfl) fun c s ⟨hargs, hpart, hadd⟩ => bodyYarrowLoad_ok hargs hpart hadd
  · exact effect_ok (fun _ _ _ => rfl) fun c s ⟨hargs, hmode⟩ => bodyYarrowWriteback_ok hargs hmode

end Sys2Proof.Machine

/-! ### Crucible commands -/

namespace Sys2Proof.Machine

/-- A command for a STEP that no scale vote skips or holds runs its body (R354). -/
theorem unlessSkipped_eq {body : Body} {c : Running} {s : State} (hskipped : s.stepSkipped c.ctx c.step = false) (hwaits : s.stepWaits c.ctx c.step = false) :
    unlessSkipped body c s = body c s := by
  simp only [unlessSkipped, hskipped, hwaits, Bool.false_eq_true, if_false]

/-- A command names a group only with a ticket that is good. -/
theorem useTicket_of_groupArg {s : State} {c : Running} {off : Nat} {all : Bool} {g : Group} (h : s.groupArg c off all = .ok g) : ∃ r, s.useTicket c .group = .ok r := by
  cases huse : s.useTicket c .group with
  | ok r => exact ⟨r, rfl⟩
  | error e =>
    unfold State.groupArg State.judgeTicket at h
    rw [huse] at h
    cases hformat : s.ticketFormat c .group with
    | ok _ => rw [hformat] at h; cases h
    | error _ => rw [hformat] at h; cases h

/-- A group that a command's ticket names is that group whatever other fields the command checks. -/
theorem groupArg_fields {s : State} {c : Running} {off : Nat} {all : Bool} {g : Group} (fields : Except Stop Unit) (h : s.groupArg c off all = .ok g) : s.groupArg c off all fields = .ok g := by
  obtain ⟨r, huse⟩ := useTicket_of_groupArg h
  unfold State.groupArg at h ⊢
  rwa [judgeTicket_of_useTicket huse] at h ⊢

theorem bodyCruGroupCreate_ok {c : Running} {s : State} {g : Grant} {id : Nat} (hplen : c.u 26 2 = 192) (hticket : c.ticket = 0) (hz40 : Zero c 40 24) (hdecl : declFormat c 64 0 = .ok ())
    (hgood : leastOf (s.groupErrors c.ctx (fun o n => c.u (128 + o) n)) = none) (hroom : s.cru.groups.length < 1024) (hgrant : s.admission c 64 = .ok g)
    (hpick : (({ s with free := s.free + g.decl.cores + g.decl.barriers + 1 } : State).pick 1024 (s.cru.groups.map (·.id))).1 = some id) :
    bodyCruGroupCreate c s = .ok (
      let r := s.issue c g (.group id)
      ({ r.1 with free := r.1.free + 1, cru := { r.1.cru with groups := r.1.cru.groups ++ [{
        ctx := c.ctx, id := id, part := c.part, slot := g.slot, tensor := c.u 128 4, shard := c.u 132 4, elemBase := c.u 136 8, elems := c.u 144 8, kind := c.u 152 1,
        pfmt := c.u 153 1 % 16, mfmt := c.u 153 1 / 16, deferN := c.u 154 1 % 8, vote := bit (c.u 154 1) 3, digestState := bit (c.u 154 1) 4, repAxes := c.u 155 1,
        digestEvery := c.u 156 4, pAddr := c.u 160 8, mAddr := c.u 168 8, fAddr := c.u 176 8, rows := c.u 184 4, cols := c.u 188 4, hAddr := c.u 192 8, dAddr := c.u 200 8,
        tag := c.u 208 4 }] } }, some (okProgress r.2 id))) := by
  simp only [bodyCruGroupCreate, plenIs_of hplen, noTicket_of hticket, reserved_of hz40, hdecl, hgood, hroom, hgrant, hpick, ok_bind, need_of, decide_true]

theorem bodyCruApply_ok {faults : List Nat} {c : Running} {s : State} {g : Group} {k : Int} {h : List (BitVec 32)} (hplen : c.u 26 2 = 16) (hgroup : s.groupArg c 40 false = .ok g) (hfmt : c.u 42 1 = 4 ∨ c.u 42 1 = 5)
    (hz43 : Zero c 43 5) (hsrc : c.u 48 8 % 64 = 0) (hz56 : Zero c 56 8) (hfirst : c.u 64 8 % g.gpe = 0) (hlt : c.u 64 8 < g.elems) (hend : c.u 64 8 + c.u 72 8 ≤ g.elems)
    (hcount : c.u 72 8 % g.gpe = 0 ∨ c.u 64 8 + c.u 72 8 = g.elems) (hquiesced : s.quiesced c = false) (hskipped : s.stepSkipped c.ctx c.step = false) (hscale : s.applyScale c g = some k)
    (hstep : c.u 72 8 = 0 ∨ s.stepOk c g (c.u 64 8 / g.gpe) (cdiv (c.u 64 8 + c.u 72 8) g.gpe) = true)
    (hlines : s.waitLines c ((c.u 48 8, c.u 72 8 * (es2 (c.u 42 1) / 2), false) :: g.stateRanges (c.u 64 8) (c.u 72 8)) = none) (hhyper : s.hyperWords g = .ok h) :
    bodyCruApply faults c s = .ok (
      let q : CruJob := { uid := c.uid, ctx := c.ctx, part := c.part, gid := g.id, src := some (c.u 48 8, c.u 42 1), step := c.step, k := k, first := c.u 64 8, next := c.u 64 8 / g.gpe,
                          last := cdiv (c.u 64 8 + c.u 72 8) g.gpe, hyper := h, rings := s.ringsOf c.part g.repAxes, faults := faults }
      let s1 := ((s.vaTouch c.ctx g.hAddr 64).modGroup c.ctx g.id (fun g => if c.u 72 8 = 0 then g else { g with openStep := some c.step })).modCmd c.uid (fun r => { r with work := .apply })
      (({ s1 with cru := { s1.cru with jobs := s1.cru.jobs ++ [q] } } : State).rewriteStale.cruPump c.uid, none)) := by
  have hfmt : (c.u 42 1 == 4 || c.u 42 1 == 5) = true := by simpa using hfmt
  have hcount : (c.u 72 8 % g.gpe == 0 || c.u 64 8 + c.u 72 8 == g.elems) = true := by simpa using hcount
  have hstep : (c.u 72 8 == 0 || s.stepOk c g (c.u 64 8 / g.gpe) (cdiv (c.u 64 8 + c.u 72 8) g.gpe)) = true := by simpa using hstep
  simp only [bodyCruApply, plenIs_of hplen, groupArg_fields _ hgroup, hfmt, reserved_of hz43, hsrc, reserved_of hz56, hfirst, hlt, hend, hcount, hquiesced, hskipped, hscale, hstep, hlines, hhyper,
    ok_bind, need_of, decide_true, Bool.and_self, beq_self_eq_true, Bool.false_eq_true, if_false]

theorem bodyCruSetScale_ok {c : Running} {s : State} (hticket : c.ticket = 0) (hkMin : -24 ≤ sgn 8 (c.u 40 1)) (hkMax : sgn 8 (c.u 40 1) ≤ 40) (hdec : c.u 41 1 ≤ 15) (hloMin : -24 ≤ sgn 8 (c.u 42 1))
    (hlo : sgn 8 (c.u 42 1) ≤ sgn 8 (c.u 40 1)) (hhi : sgn 8 (c.u 40 1) ≤ sgn 8 (c.u 43 1)) (hhiMax : sgn 8 (c.u 43 1) ≤ 40) (hz48 : Zero c 48 16) :
    bodyCruSetScale c s = .ok (s.modCtx c.ctx (fun x => { x with
      k := sgn 8 (c.u 40 1), dec := (c.u 41 1 : Nat), kMin := sgn 8 (c.u 42 1), kMax := sgn 8 (c.u 43 1), incEvery := c.u 44 4, clean := 0 }), some ok) := by
  simp only [bodyCruSetScale, noTicket_of hticket, hkMin, hkMax, hdec, hloMin, hlo, hhi, hhiMax, reserved_of hz48, ok_bind, need_of, decide_true, and_self]

theorem bodyCruDeferredFlush_ok {c : Running} {s : State} {g : Group} {h : List (BitVec 32)} (hgroup : s.groupArg c 40 true = .ok g) (hz42 : Zero c 42 22) (hdefer : g.deferN ≠ 0) (hquiesced : s.quiesced c = false)
    (hskipped : s.stepSkipped c.ctx c.step = false) (hwaits : s.stepWaits c.ctx c.step = false) (hlines : s.waitLines c (g.stateRanges 0 g.elems) = none) (hhyper : s.hyperWords g = .ok h) :
    bodyCruDeferredFlush c s = .ok (
      let q : CruJob := { uid := c.uid, ctx := c.ctx, part := c.part, gid := g.id, flush := true, step := c.step, first := 0, next := 0, last := g.granules, hyper := h }
      let s1 := (s.vaTouch c.ctx g.hAddr 64).modCmd c.uid (fun r => { r with work := .apply })
      (({ s1 with cru := { s1.cru with jobs := s1.cru.jobs ++ [q] } } : State).rewriteStale.cruPump c.uid, none)) := by
  simp only [bodyCruDeferredFlush, groupArg_fields _ hgroup, reserved_of hz42, hdefer, hquiesced, hskipped, hwaits, hlines, hhyper, ok_bind, Bool.false_eq_true, if_false]

theorem bodyCruDeferredFlush_none {c : Running} {s : State} {g : Group} (hgroup : s.groupArg c 40 true = .ok g) (hz42 : Zero c 42 22) (hdefer : g.deferN = 0) : bodyCruDeferredFlush c s = .ok (s, some ok) := by
  simp only [bodyCruDeferredFlush, groupArg_fields _ hgroup, reserved_of hz42, hdefer, ok_bind, if_true]

/-- A shard is exported where its parameters are not protected, or it stays in protected memory of the device (R361, R463). -/
theorem bodyExportShard_ok {c : Running} {s s1 : State} {g : Group} {body : List Byte} {n : Nat} (hplen : c.u 26 2 = 16) (hgroup : s.groupArg c 40 false = .ok g) (hflags : c.u 42 1 < 4) (hz43 : Zero c 43 5)
    (hdst : c.u 48 8 % 64 = 0) (hz56 : Zero c 56 8) (hfirst : c.u 64 8 < g.elems) (hn : n = (if c.u 72 8 = 0 then g.elems - c.u 64 8 else c.u 72 8)) (hend : c.u 64 8 + n ≤ g.elems)
    (hprot : (∀ o, s.objAt g.ctx g.pAddr = some o → o.prot = false) ∨ (c.u 42 1 / 2 = 0 ∧ ∃ o, s.objAt c.ctx (c.u 48 8) = some o ∧ o.prot = true)) (hbusy : s.groupBusy c g = false)
    (hbody : body = s.canonical g (bit (c.u 42 1) 0) (c.u 64 8) n) (hbad : s.badRuns g.ctx 64 (g.canonicalRanges (bit (c.u 42 1) 0) (c.u 64 8) n) = [])
    (hlines : s.waitLines c ((g.canonicalRanges (bit (c.u 42 1) 0) (c.u 64 8) n).map (fun r => (r.1, r.2, false)) ++ (if bit (c.u 42 1) 1 then [] else [(c.u 48 8, 64 + body.length, true)])) = none)
    (hout : s.output c (bit (c.u 42 1) 1) (c.u 48 8) (exportHeader g (c.u 42 1) (c.u 64 8) n body.length (crc64 body) ++ body) (g.tensor % 2 ^ 16) = .ok s1) :
    bodyExportShard c s = .ok (s1.sawCanonical g c.uid 0x0C (bit (c.u 42 1) 0) (c.u 64 8) n, some (okProgress body.length)) := by
  have hprot : (!((s.objAt g.ctx g.pAddr).map (·.prot)).getD false || (!bit (c.u 42 1) 1 && ((s.objAt c.ctx (c.u 48 8)).map (·.prot)).getD false)) = true := by
    rcases hprot with h | ⟨hdev, o, hobj, hp⟩
    · cases hobj : s.objAt g.ctx g.pAddr with
      | none => rfl
      | some o => simp [h o hobj]
    · simp [hobj, hp, bit, Nat.testBit_succ, hdev]
  simp only [bodyExportShard, plenIs_of hplen, groupArg_fields _ hgroup, Nat.div_eq_of_lt hflags, reserved_of hz43, hdst, reserved_of hz56, hfirst, ← hn, hend, hprot, hbusy, ← hbody, hbad, hlines, hout,
    ok_bind, need_of, decide_true, beq_self_eq_true, Bool.false_eq_true, if_false, List.map_nil, List.isEmpty_nil, if_true]

/-- The state that CAMPION_OPEN leaves: the stream is open, at the head of its ring (R362, R366). -/
def State.campionOpened (s : State) (k : Campion) : State :=
  (({ s with cru := { s.cru with streams := s.cru.streams ++ [k] } } : State).setReg .cruCampionHead k.j 0 0).setField .cruCampionStat k.j 0 1 1 0

theorem bodyCampionOpen_ok {c : Running} {s s1 : State} {bs : List Byte} {far : Bool} (hplen : c.u 26 2 = 16) (hticket : c.ticket = 0) (hj : c.u 40 1 < 16) (hflags : c.u 41 1 < 4) (hfar : far = bit (c.u 41 1) 0)
    (hegroup : c.u 42 1 < 8) (hmin : 16 ≤ c.u 43 1) (hmax : c.u 43 1 ≤ 40) (hz44 : Zero c 44 4) (hring : c.u 48 8 % 4096 = 0) (htail : c.u 56 8 % 8 = 0) (hfree : s.campion? (c.u 40 1) = none)
    (hnMin : 1 ≤ c.u 72 2) (hnMax : c.u 72 2 ≤ 1024) (hz74 : Zero c 74 6) (hinput : s.input c false (c.u 64 8) (2 * c.u 72 2) = .ok bs) (hmay : ∀ i < c.u 72 2, s.mayStream c.ctx (fld bs (2 * i) 2) = true)
    (hwrite : far = true → ∃ x, s.rawFar (.tail (c.u 40 1)) c.uid (c.u 42 1) (c.u 56 8) (toLe 8 0) = some x ∧ s1 = x.1.sawInput c false (c.u 64 8) (2 * c.u 72 2))
    (hstore : far = false → s.hostMiss (s.linkOf c.queue) (s.pasidOf c) (c.u 56 8) 8 = none ∧
      s1 = (s.sawInput c false (c.u 64 8) (2 * c.u 72 2)).hostStore (s.linkOf c.queue) (s.pasidOf c) c.uid (c.u 56 8) (toLe 8 0)) :
    bodyCampionOpen c s = .ok (s1.campionOpened {
      j := c.u 40 1, ctx := c.ctx, far := far, state := bit (c.u 41 1) 1, egroup := c.u 42 1, ringLog2 := c.u 43 1, ring := c.u 48 8, tailAddr := c.u 56 8,
      groups := (List.range (c.u 72 2)).map (fun i => fld bs (2 * i) 2), link := s.linkOf c.queue }, some ok) := by
  have hmay : ((List.range (c.u 72 2)).map (fun i => fld bs (2 * i) 2)).all (s.mayStream c.ctx) = true := by simpa using hmay
  simp only [bodyCampionOpen, plenIs_of hplen, noTicket_of hticket, hj, Nat.div_eq_of_lt hflags, ← hfar, hegroup, hmin, hmax, reserved_of hz44, hring, htail, hfree, hnMin, hnMax, reserved_of hz74, hinput, hmay,
    ok_bind, need_of, decide_true, and_self, Bool.and_self, beq_self_eq_true, Option.map_none, Option.getD_none, Option.isNone_none, Bool.not_false]
  cases far with
  | true =>
    obtain ⟨x, hx, hs1⟩ := hwrite rfl
    simp only [hx, hs1, if_true, State.campionOpened]
  | false =>
    obtain ⟨hmiss, hs1⟩ := hstore rfl
    simp only [hmiss, hs1, Bool.false_eq_true, if_false, State.campionOpened]

theorem bodyCampionClose_ok {c : Running} {s : State} {k : Campion} (hticket : c.ticket = 0) (hz41 : Zero c 41 23) (hstream : s.campion? (c.u 40 1) = some k) (hctx : k.ctx = c.ctx) (hsent : k.sent = [])
    (hfar : ∀ f ∈ s.memory.far, f.use ≠ .tail k.j) (hjobs : ∀ q ∈ s.cru.jobs, (∃ f ∈ q.frames, f.1 = k.j) → ∀ r, s.cmd? q.uid = some r → r.reply = none) :
    bodyCampionClose c s = .ok ({ s with cru := { s.cru with streams := s.cru.streams.filter (fun e => e.j != k.j) } }, some (okProgress k.tail)) := by
  have hfar : s.memory.far.any (fun f => f.use == .tail k.j) = false := by simpa using hfar
  have hjobs : s.cru.jobs.any (fun q => q.frames.any (fun f => f.1 == k.j) && ((s.cmd? q.uid).map (fun r => r.reply.isSome)).getD false) = false := by
    rw [List.any_eq_false]
    intro q hq h
    rw [Bool.and_eq_true, List.any_eq_true] at h
    obtain ⟨⟨f, hf, hj⟩, hreply⟩ := h
    cases hcmd : s.cmd? q.uid with
    | none => simp [hcmd] at hreply
    | some r => simp [hcmd, hjobs q hq ⟨f, hf, beq_iff_eq.mp hj⟩ r hcmd] at hreply
  simp only [bodyCampionClose, noTicket_of hticket, reserved_of hz41, hstream, hctx, hsent, hfar, hjobs, ok_bind, need_of, beq_self_eq_true, List.isEmpty_nil, Bool.not_true, Bool.or_self, Bool.false_eq_true, if_false]

/-- Settles O38: what the body of each command leaves, where its checks are met and no scale vote skips or holds it. -/
theorem crucibleCommandsComplete : Obligations.CrucibleCommandsComplete := by
  unfold Obligations.CrucibleCommandsComplete
  refine ⟨fun g id => ?_, fun faults g k h => ?_, ?_, fun g h => ?_, fun g => ?_, fun g body n s1 => ?_, fun bs far s1 => ?_, fun k => ?_⟩
  · refine effect_of (fun _ _ _ => rfl) fun c s h => ?_
    obtain ⟨hskipped, hwaits, hplen, hticket, hz40, hdecl, hgood, hroom, hgrant, hpick⟩ := h
    exact runBody_ok ((unlessSkipped_eq hskipped hwaits).trans (bodyCruGroupCreate_ok hplen hticket hz40 hdecl hgood hroom hgrant hpick))
  · refine effect_of (body := bodyCruApply faults) (fun _ _ _ => rfl) fun c s h => ?_
    obtain ⟨hplen, hgroup, hfmt, hz43, hsrc, hz56, hfirst, hlt, hend, hcount, hquiesced, hskipped, hscale, hstep, hlines, hhyper⟩ := h
    exact runBody_going (bodyCruApply_ok hplen hgroup hfmt hz43 hsrc hz56 hfirst hlt hend hcount hquiesced hskipped hscale hstep hlines hhyper)
  · refine effect_ok (fun _ _ _ => rfl) fun c s h => ?_
    obtain ⟨hskipped, hwaits, hticket, hkMin, hkMax, hdec, hloMin, hlo, hhi, hhiMax, hz48⟩ := h
    exact (unlessSkipped_eq hskipped hwaits).trans (bodyCruSetScale_ok hticket hkMin hkMax hdec hloMin hlo hhi hhiMax hz48)
  · refine effect_of (fun _ _ _ => rfl) fun c s h => ?_
    obtain ⟨hgroup, hz42, hdefer, hquiesced, hskipped, hwaits, hlines, hhyper⟩ := h
    exact runBody_going (bodyCruDeferredFlush_ok hgroup hz42 hdefer hquiesced hskipped hwaits hlines hhyper)
  · exact effect_ok (fun _ _ _ => rfl) fun c s ⟨hgroup, hz42, hdefer⟩ => bodyCruDeferredFlush_none hgroup hz42 hdefer
  · refine effect_ok (t := fun c _ => s1.sawCanonical g c.uid 0x0C (bit (c.u 42 1) 0) (c.u 64 8) n) (fun _ _ _ => rfl) fun c s h => ?_
    obtain ⟨hskipped, hwaits, hplen, hgroup, hflags, hz43, hdst, hz56, hfirst, hn, hend, hprot, hbusy, hbody, hbad, hlines, hout⟩ := h
    exact (unlessSkipped_eq hskipped hwaits).trans (bodyExportShard_ok hplen hgroup hflags hz43 hdst hz56 hfirst hn hend hprot hbusy hbody hbad hlines hout)
  · refine effect_of (fun _ _ _ => rfl) fun c s h => ?_
    obtain ⟨hskipped, hwaits, hplen, hticket, hj, hflags, hfar, hegroup, hmin, hmax, hz44, hring, htail, hfree, hnMin, hnMax, hz74, hinput, hmay, hwrite, hstore⟩ := h
    exact runBody_ok ((unlessSkipped_eq hskipped hwaits).trans
      (bodyCampionOpen_ok hplen hticket hj hflags hfar hegroup hmin hmax hz44 hring htail hfree hnMin hnMax hz74 hinput hmay hwrite hstore))
  · refine effect_ok (fun _ _ _ => rfl) fun c s h => ?_
    obtain ⟨hskipped, hwaits, hticket, hz41, hstream, hctx, hsent, hfar, hjobs⟩ := h
    exact (unlessSkipped_eq hskipped hwaits).trans (bodyCampionClose_ok hticket hz41 hstream hctx hsent hfar hjobs)

end Sys2Proof.Machine

/-! ### Ledger, digest and pair commands -/

namespace Sys2Proof.Machine

/-- A live context that is named by its number. -/
theorem liveCtx_of {s : State} {x off : Nat} {k : Ctx} (h : s.ctx? x = some k) : s.liveCtx x off = .ok k := by
  simp only [State.liveCtx, h]

theorem bodyDetLedgerRead_ok {c : Running} {s s1 : State} {x : Ctx} (hticket : c.ticket = 0) (hctx : s.ctx? (c.u 40 1) = some x) (hserves : if c.admin then serves c.fn x.part = true else x.id = c.ctx)
    (hflags : c.u 41 1 < 4) (hz42 : Zero c 42 6) (haddr : c.u 48 8 % 32 = 0) (hz56 : Zero c 56 8)
    (hout : s.output c (bit (c.u 41 1) 1) (c.u 48 8) (toLe 8 x.run ++ toLe 8 x.refresh ++ toLe 8 x.retry ++ toLe 8 x.chillCmds) = .ok s1) :
    bodyDetLedgerRead c s = .ok (if bit (c.u 41 1) 0 then s1.modCtx x.id (fun k => { k with run := 0, refresh := 0, retry := 0, chillCmds := 0 }) else s1, some ok) := by
  have hserves : (if c.admin then serves c.fn x.part else x.id == c.ctx) = true := by
    split at hserves
    next h => rw [if_pos h, hserves]
    next h => rw [if_neg h, hserves, beq_self_eq_true]
  simp only [bodyDetLedgerRead, noTicket_of hticket, liveCtx_of hctx, Nat.div_eq_of_lt hflags, reserved_of hz42, haddr, reserved_of hz56, hserves, hout, ok_bind, need_of, beq_self_eq_true]

/-- A digest of bytes of the command's space, with none poisoned (R384). -/
theorem bodyDigest_bytes {c : Running} {s s1 : State} {bs : List Byte} (hplen : c.u 26 2 = 8) (hticket : c.ticket = 0) (hkind : c.u 40 1 = 0) (hflags : c.u 41 1 < 4) (hz44 : Zero c 44 4) (haddr : c.u 56 8 % 8 = 0)
    (hmin : 1 ≤ c.u 64 8) (hmax : c.u 64 8 ≤ 2 ^ 46) (hlines : s.waitLines c [(c.u 48 8, c.u 64 8, false)] = none) (hread : s.vaRead c.space (c.u 48 8) (c.u 64 8) = some (bs, false))
    (hout : if c.u 56 8 = 0 then s1 = s.vaTouch c.space (c.u 48 8) (c.u 64 8)
      else (s.vaTouch c.space (c.u 48 8) (c.u 64 8)).output c (bit (c.u 41 1) 1) (c.u 56 8) (toLe 8 (crc64 bs).toNat) = .ok s1) :
    bodyDigest c s = .ok (s1, some (okProgress bs.length ((crc64 bs).toNat % 2 ^ 32))) := by
  have hout : (if c.u 56 8 = 0 then .ok (s.vaTouch c.space (c.u 48 8) (c.u 64 8))
      else (s.vaTouch c.space (c.u 48 8) (c.u 64 8)).output c (bit (c.u 41 1) 1) (c.u 56 8) (toLe 8 (crc64 bs).toNat)) = Except.ok s1 := by
    split at hout
    next h => rw [if_pos h, hout]
    next h => rw [if_neg h, hout]
  simp [-Nat.reducePow, bodyDigest, hplen, hticket, hkind, Nat.div_eq_of_lt hflags, hz44, haddr, hmin, hmax, hlines, hread, hout]

/-- A digest of a parameter group's canonical form, with none of it poisoned (R384, R385). -/
theorem bodyDigest_group {c : Running} {s s1 : State} {g : Group} {bs : List Byte} (hplen : c.u 26 2 = 8) (hkind : c.u 40 1 = 1) (hflags : c.u 41 1 < 4) (hgroup : s.groupArg c 42 false = .ok g)
    (hz44 : Zero c 44 4) (haddr : c.u 56 8 % 8 = 0) (hbusy : s.groupBusy c g = false)
    (hlines : s.waitLines c ((g.canonicalRanges (bit (c.u 41 1) 0) 0 g.elems).map (fun r => (r.1, r.2, false))) = none)
    (hbs : bs = s.canonical g (bit (c.u 41 1) 0) 0 g.elems) (hbad : s.badRuns g.ctx 0 (g.canonicalRanges (bit (c.u 41 1) 0) 0 g.elems) = [])
    (hout : if c.u 56 8 = 0 then s1 = s.sawCanonical g c.uid 1 (bit (c.u 41 1) 0) 0 g.elems
      else (s.sawCanonical g c.uid 1 (bit (c.u 41 1) 0) 0 g.elems).output c (bit (c.u 41 1) 1) (c.u 56 8) (toLe 8 (crc64 bs).toNat) = .ok s1) :
    bodyDigest c s = .ok (s1, some (okProgress bs.length ((crc64 bs).toNat % 2 ^ 32))) := by
  obtain ⟨r, huse⟩ := useTicket_of_groupArg hgroup
  have hformat := ticketFormat_of_useTicket huse
  have hout : (if c.u 56 8 = 0 then .ok (s.sawCanonical g c.uid 1 (bit (c.u 41 1) 0) 0 g.elems)
      else (s.sawCanonical g c.uid 1 (bit (c.u 41 1) 0) 0 g.elems).output c (bit (c.u 41 1) 1) (c.u 56 8) (toLe 8 (crc64 bs).toNat)) = Except.ok s1 := by
    split at hout
    next h => rw [if_pos h, hout]
    next h => rw [if_neg h, hout]
  simp [-Nat.reducePow, bodyDigest, hplen, hformat, hkind, Nat.div_eq_of_lt hflags, groupArg_fields _ hgroup, hz44, haddr, hbusy, hlines, ← hbs, hbad, hout]

theorem bodyMatchPair_ok {c : Running} {s : State} (hticket : c.ticket = 0) (hpart : c.u 40 1 ≤ 31) (hcarved : (s.part? (c.u 40 1)).isSome) (hactive : s.pair.active = false) (hpending : s.pair.pending = none)
    (hport : c.u 41 1 ≤ 23) (hlead : c.u 42 1 ≤ 1) (hgrain : c.u 43 1 ≤ 1) (hwindowMin : 1 ≤ c.u 44 1) (hwindowMax : c.u 44 1 ≤ 64) (hflags : c.u 45 1 < 2) (hz46 : Zero c 46 18) :
    bodyMatchPair c s = .ok (
      let p : Pair := { pending := some c.uid, peer := s.pair.peer, part := c.u 40 1, port := c.u 41 1, lead := c.u 42 1 == 0, tileGrain := c.u 43 1 == 1, t0 := bit (c.u 45 1) 0, window := c.u 44 1 }
      let s1 := ({ s with pair := p } : State).modPort (c.u 41 1) (fun q => { q with pairLink := true })
      (((s1.modCmd c.uid (fun q => { q with work := .pair })).sendMatch 0 0 (s1.pairBytes c)).pairUp, none)) := by
  simp only [bodyMatchPair, noTicket_of hticket, hpart, hcarved, hactive, hpending, hport, hlead, hgrain, hwindowMin, hwindowMax, Nat.div_eq_of_lt hflags, reserved_of hz46,
    ok_bind, need_of, decide_true, and_self, Bool.and_self, beq_self_eq_true, Bool.not_false, Option.isNone_none]

theorem bodyMatchUnpair_ok {c : Running} {s : State} (hticket : c.ticket = 0) (hactive : s.pair.active = true) (hpart : c.u 40 1 = s.pair.part) (hunpairing : s.pair.unpairing = none) (hz41 : Zero c 41 23) :
    bodyMatchUnpair c s = .ok (((({ s with pair := { s.pair with unpairing := some c.uid } } : State).modCmd c.uid (fun q => { q with work := .unpair })).sendMatch 4 0 []).pairDown, none) := by
  simp only [bodyMatchUnpair, noTicket_of hticket, hactive, hpart, hunpairing, reserved_of hz41, ok_bind, need_of, beq_self_eq_true, Bool.and_self, Option.isNone_none]

/-- Settles O39: what the body of each command leaves, where its checks are met. -/
theorem chillCommandsComplete : Obligations.ChillCommandsComplete := by
  unfold Obligations.ChillCommandsComplete
  refine ⟨fun x s1 => ?_, fun bs s1 => ?_, fun g bs s1 => ?_, ?_, ?_⟩
  · refine effect_ok (t := fun c _ => if bit (c.u 41 1) 0 then s1.modCtx x.id (fun k => { k with run := 0, refresh := 0, retry := 0, chillCmds := 0 }) else s1) (fun _ _ _ => rfl) fun c s h => ?_
    obtain ⟨hticket, hctx, hserves, hflags, hz42, haddr, hz56, hout⟩ := h
    exact bodyDetLedgerRead_ok hticket hctx hserves hflags hz42 haddr hz56 hout
  · refine effect_ok (t := fun _ _ => s1) (fun _ _ _ => rfl) fun c s h => ?_
    obtain ⟨hplen, hticket, hkind, hflags, hz44, haddr, hmin, hmax, hlines, hread, hout⟩ := h
    exact bodyDigest_bytes hplen hticket hkind hflags hz44 haddr hmin hmax hlines hread hout
  · refine effect_ok (t := fun _ _ => s1) (fun _ _ _ => rfl) fun c s h => ?_
    obtain ⟨hplen, hkind, hflags, hgroup, hz44, haddr, hbusy, hlines, hbs, hbad, hout⟩ := h
    exact bodyDigest_group hplen hkind hflags hgroup hz44 haddr hbusy hlines hbs hbad hout
  · refine effect_of (fun _ _ _ => rfl) fun c s h => ?_
    obtain ⟨hticket, hpart, hcarved, hactive, hpending, hport, hlead, hgrain, hwindowMin, hwindowMax, hflags, hz46⟩ := h
    exact runBody_going (bodyMatchPair_ok hticket hpart hcarved hactive hpending hport hlead hgrain hwindowMin hwindowMax hflags hz46)
  · exact effect_going (fun _ _ _ => rfl) fun c s ⟨hticket, hactive, hpart, hunpairing, hz41⟩ => bodyMatchUnpair_ok hticket hactive hpart hunpairing hz41

end Sys2Proof.Machine

/-! ### Repair, unit, scrub, firmware and factor commands -/

namespace Sys2Proof.Machine

/-- A repair names a unit for a retirement, a return or a re-test, and a row alone for a remap (R486). -/
theorem bodyRepairRequest_ok {c : Running} {s : State} (hticket : c.ticket = 0) (hz49 : Zero c 49 7)
    (hact : c.u 48 1 ≤ 2 ∧ unitValid (c.u 40 4) = true ∨ c.u 48 1 = 3 ∧ c.u 40 4 = 0 ∧ c.u 44 4 = 0 ∧ rowValid (BitVec.ofNat 64 (c.u 56 8)) = true) :
    bodyRepairRequest c s = .ok ((s.ask (c.u 40 4) (.repair c.uid (actionOf (c.u 48 1)) (c.u 44 4) (BitVec.ofNat 64 (c.u 56 8)))).modCmd c.uid (fun k => { k with work := .unit (c.u 40 4) }), none) := by
  rcases hact with ⟨hle, hunit⟩ | ⟨hact, hunit, hgen, hrow⟩
  · have hne : (c.u 48 1 != 3) = true := bne_iff_ne.mpr (by omega)
    simp only [bodyRepairRequest, noTicket_of hticket, hne, hunit, Nat.le_succ_of_le hle, reserved_of hz49, ok_bind, need_of, decide_true, Bool.true_or, Bool.or_true]
  · simp only [bodyRepairRequest, noTicket_of hticket, hact, hunit, hgen, hrow, reserved_of hz49, ok_bind, need_of, decide_true, beq_self_eq_true, Bool.true_or, Bool.or_true, le_refl]

/-- Riser answers a repair that ends at once (R485). -/
theorem serveAsk_answered {s s1 : State} {k : Running} {u uid gen : Nat} {act : RiserAction} {loc : BitVec 64} {r : Reply} (hcmd : s.cmd? uid = some k) (hlive : k.reply = none)
    (hact : s.riserAct act u gen loc = (s1, some r)) : s.serveAsk { unit := u, kind := .repair uid act gen loc } = s1.riserReply u uid r := by
  simp only [State.serveAsk, hcmd, Option.map_some, hlive, Option.isNone_none, Option.getD_some, hact, if_true]

theorem bodyUnitQuery_ok {c : Running} {s s1 : State} {host : Bool} {addr : Nat} (hticket : c.ticket = 0) (hunit : unitValid (c.u 40 4) = true) (hfn : c.fn = 0) (hz44 : Zero c 44 4)
    (hfield : recordField c 48 = .ok (host, addr)) (hctx : host = false → (s.ctx? (c.u 3 1)).isSome) (hz56 : Zero c 56 8) (hout : s.output c host addr (s.unitBytes (c.u 40 4)) = .ok s1) :
    bodyUnitQuery c s = .ok (s1, some ok) := by
  cases host with
  | true => simp [bodyUnitQuery, hticket, hunit, hfn, hz44, hfield, hz56, hout]
  | false =>
    obtain ⟨k, hk⟩ := Option.isSome_iff_exists.mp (hctx rfl)
    have hnamed : s.namedCtx 0 (c.u 3 1) 3 = .ok k := namedCtx_ok_iff.mpr ⟨liveCtx_of hk, rfl⟩
    simp [bodyUnitQuery, hticket, hunit, hfn, hz44, hfield, hnamed, hz56, hout]

theorem bodyScrub_ok {c : Running} {s : State} (hticket : c.ticket = 0) (hmask : c.u 40 2 ≠ 0) (hz42 : Zero c 42 22) : bodyScrub c s = .ok (s.modCmd c.uid (fun k => { k with work := .scrub (c.u 40 2) }), none) := by
  simp [bodyScrub, *]

/-- A roll of the staged image begins (R487). -/
theorem bodyFwUpdate_staged {c : Running} {s : State} {host : Bool} {addr : Nat} (hticket : c.ticket = 0) (hfield : imageField c 40 = .ok (host, addr)) (hmode : c.u 52 1 = 2) (hroll : s.fw.rollUid = none)
    (hstaged : s.fw.staged.isSome) (hz53 : Zero c 53 11) :
    bodyFwUpdate c s = .ok (({ s with fw := { s.fw with rollUid := some c.uid, stat := 2, rollNext := 0, failures := 0, prior := s.fw.versions, coresNew := 0 } } : State).modCmd c.uid (fun k => { k with work := .roll }), none) := by
  have hsome : s.fw.staged.isNone = false := by simpa using hstaged
  simp only [bodyFwUpdate, noTicket_of hticket, hfield, hmode, hroll, hsome, reserved_of hz53, ok_bind, need_of, decide_true, beq_self_eq_true, Bool.true_or, le_refl, Option.isNone_none, Bool.and_false, Bool.not_false,
    Bool.and_self, if_true, show ¬ (2 = 0) from two_ne_zero, if_false]

/-- An image that the command brings: a good one that may be taken is staged and its roll begins; any other is refused (R503, R508). -/
theorem bodyFwUpdate_image {c : Running} {s : State} {host : Bool} {addr : Nat} {bs : List Byte} (hticket : c.ticket = 0) (hfield : imageField c 40 = .ok (host, addr)) (hmin : 64 ≤ c.u 48 4) (hmax : c.u 48 4 ≤ 8388608)
    (hmode : c.u 52 1 ≤ 1) (hroll : s.fw.rollUid = none) (hz53 : Zero c 53 11) (hinput : s.input c host addr (c.u 48 4) = .ok bs) :
    s.runBody bodyFwUpdate c =
      let t := (s.sawInput c host addr (c.u 48 4)).stageImage bs
      if Config.imageOk bs = true ∧ s.imageTaken bs = true then
        ({ t with fw := { t.fw with rollUid := some c.uid, stat := if c.u 52 1 = 0 then 1 else 2, rollNext := 0, failures := 0, prior := t.fw.versions, coresNew := 0 } } : State).modCmd c.uid (fun k => { k with work := .roll })
      else if Config.imageOk bs = true then s.reply c.uid (errFormat 40)
      else ((s.sawInput c host addr (c.u 48 4)).count .prtSecStat 0 0 16 16).reply c.uid (errFormat 40) := by
  have hne : ¬ c.u 52 1 = 2 := by omega
  have hbne : (c.u 52 1 == 2) = false := beq_false_of_ne hne
  simp only [State.runBody, bodyFwUpdate, noTicket_of hticket, hfield, hbne, hmin, hmax, Nat.le_succ_of_le hmode, hroll, reserved_of hz53, hinput, hne, ok_bind, need_of, decide_true, and_self, Bool.false_or, Bool.false_and,
    Bool.not_false, Bool.and_self, Option.isNone_none, if_false]
  cases Config.imageOk bs with
  | false => rfl
  | true => cases s.imageTaken bs <;> rfl

theorem bodyCmpIndex_ok {c : Running} {s : State} {es : List Nat} {pos : Nat} (hplen : c.u 26 2 = 16) (hticket : c.ticket = 0) (hsrc : c.u 40 8 % 64 = 0) (hsrcLt : c.u 40 8 < 2 ^ 52) (hdst : c.u 48 8 % 64 = 0)
    (hdstLt : c.u 48 8 < 2 ^ 52) (hz56 : Zero c 56 8) (hmin : 64 ≤ c.u 64 8) (hmax : c.u 64 8 ≤ 2 ^ 46) (hrows : c.u 72 2 ≠ 0) (hcols : c.u 74 2 ≠ 0) (hz76 : Zero c 76 4)
    (hsrcProt : s.protectedIn c.space (c.u 40 8) (c.u 64 8) = false) (hdstProt : s.protectedIn c.space (c.u 48 8) (64 + 8 * (c.u 72 2 * c.u 74 2 + 1)) = false)
    (hlines : s.waitLines c [(c.u 40 8, c.u 64 8, false), (c.u 48 8, 64 + 8 * (c.u 72 2 * c.u 74 2 + 1), true)] = none)
    (hwalk : s.walkBlocks c.space (c.u 40 8) (c.u 48 8) (c.u 64 8) (c.u 74 2) (c.u 72 2 * c.u 74 2) (c.u 72 2 * c.u 74 2) 0 0 [] = (es, pos, none)) (hmapped : s.unmapped c.space (c.u 48 8) 64 = none) :
    bodyCmpIndex c s = .ok (
      let n := c.u 72 2 * c.u 74 2
      let bs := es.flatMap (toLe 8)
      let h0 := toLe 2 0xF7C2 ++ toLe 2 0 ++ toLe 4 n ++ toLe 2 (c.u 72 2) ++ toLe 2 (c.u 74 2) ++ toLe 4 (((s.objAt c.space (c.u 40 8)).map (·.handle)).getD 0) ++
        toLe 8 (c.u 40 8) ++ toLe 8 (c.u 64 8) ++ List.replicate 30 0
      let h := h0 ++ toLe 2 (crc16 (h0 ++ bs))
      let s1 := ((s.vaWrite c.space (c.u 48 8 + 64) bs).vaTouch c.space (c.u 48 8 + 64) bs.length).digestWrite c.uid 0 0 9 bs
      ((((s1.vaWrite c.space (c.u 48 8) h).vaTouch c.space (c.u 48 8) 64).digestWrite c.uid 0 0 9 h).vaTouch c.space (c.u 40 8) (c.u 64 8), some (okProgress n))) := by
  simp only [bodyCmpIndex, plenIs_of hplen, noTicket_of hticket, hsrc, hsrcLt, hdst, hdstLt, reserved_of hz56, hmin, hmax, hrows, hcols, reserved_of hz76, hsrcProt, hdstProt, hlines, hwalk, hmapped,
    ok_bind, need_of, decide_true, beq_self_eq_true, and_self, Bool.and_self, ne_eq, not_false_eq_true, Bool.false_eq_true, if_false]

theorem bodyCmpVerify_ok {c : Running} {s : State} {h es : List Byte} (hticket : c.ticket = 0) (haddr : c.u 40 8 % 64 = 0) (haddrLt : c.u 40 8 < 2 ^ 52) (hz56 : Zero c 56 8)
    (hprot : s.protectedIn c.space (c.u 40 8) 64 = false) (hread : s.vaRead c.space (c.u 40 8) 64 = some (h, false)) (hmagic : fld h 0 2 = 0xF7C2)
    (htable : s.vaRead c.space (c.u 40 8 + 64) (8 * (fld h 4 4 + 1)) = some (es, false)) (hcrc : fld h 62 2 = crc16 (h.take 62 ++ es)) (hfirst : c.u 48 4 ≤ fld h 4 4) (hend : c.u 48 4 + c.u 52 4 ≤ fld h 4 4)
    (hlines : s.waitLines c [(c.u 40 8, 64 + 8 * (fld h 4 4 + 1), false), (fld h 16 8, fld h 24 8, false)] = none)
    (hblocks : s.verifyBlocks c.space (c.u 40 8) (max 1 (fld h 10 2)) (fld h 4 4) (fld h 16 8 + fld h 24 8) (if c.u 52 4 = 0 then fld h 4 4 - c.u 48 4 else c.u 52 4) (c.u 48 4) = none) :
    bodyCmpVerify c s = .ok (s.sawBlocks c.space (c.u 40 8) (c.u 48 4) (if c.u 52 4 = 0 then fld h 4 4 - c.u 48 4 else c.u 52 4),
      some (okProgress (if c.u 52 4 = 0 then fld h 4 4 - c.u 48 4 else c.u 52 4))) := by
  simp only [bodyCmpVerify, noTicket_of hticket, haddr, haddrLt, reserved_of hz56, hprot, hread, hmagic, htable, ← hcrc, hfirst, hend, hlines, hblocks,
    ok_bind, need_of, decide_true, beq_self_eq_true, Bool.and_self, Bool.not_false, Bool.false_eq_true, if_false]

/-- Settles O40: what the body of each command leaves, where its checks are met, and what Riser does with a repair. -/
theorem serviceCommandsComplete : Obligations.ServiceCommandsComplete := by
  unfold Obligations.ServiceCommandsComplete
  refine ⟨?_, fun s s1 k u uid gen act loc r hcmd hlive hact => serveAsk_answered hcmd hlive hact, fun host addr s1 => ?_, ?_, fun host addr => ?_, fun host addr bs => ?_, fun es pos => ?_, fun h es => ?_⟩
  · exact effect_going (fun _ _ _ => rfl) fun c s ⟨hticket, hz49, hact⟩ => bodyRepairRequest_ok hticket hz49 hact
  · refine effect_ok (t := fun _ _ => s1) (fun _ _ _ => rfl) fun c s h => ?_
    obtain ⟨hticket, hunit, hfn, hz44, hfield, hctx, hz56, hout⟩ := h
    exact bodyUnitQuery_ok hticket hunit hfn hz44 hfield hctx hz56 hout
  · exact effect_going (fun _ _ _ => rfl) fun c s ⟨hticket, hmask, hz42⟩ => bodyScrub_ok hticket hmask hz42
  · exact effect_going (fun _ _ _ => rfl) fun c s ⟨hticket, hfield, hmode, hroll, hstaged, hz53⟩ => bodyFwUpdate_staged hticket hfield hmode hroll hstaged hz53
  · refine effect_of (fun _ _ _ => rfl) fun c s h => ?_
    obtain ⟨hticket, hfield, hmin, hmax, hmode, hroll, hz53, hinput⟩ := h
    exact bodyFwUpdate_image hticket hfield hmin hmax hmode hroll hz53 hinput
  · refine effect_of (fun _ _ _ => rfl) fun c s h => ?_
    obtain ⟨hplen, hticket, hsrc, hsrcLt, hdst, hdstLt, hz56, hmin, hmax, hrows, hcols, hz76, hsrcProt, hdstProt, hlines, hwalk, hmapped⟩ := h
    exact runBody_ok (bodyCmpIndex_ok hplen hticket hsrc hsrcLt hdst hdstLt hz56 hmin hmax hrows hcols hz76 hsrcProt hdstProt hlines hwalk hmapped)
  · refine effect_of (fun _ _ _ => rfl) fun c s h => ?_
    obtain ⟨hticket, haddr, haddrLt, hz56, hprot, hread, hmagic, htable, hcrc, hfirst, hend, hlines, hblocks⟩ := h
    exact runBody_ok (bodyCmpVerify_ok hticket haddr haddrLt hz56 hprot hread hmagic htable hcrc hfirst hend hlines hblocks)

end Sys2Proof.Machine

/-! ### Pins, attestation and resets: rows of the always-on domain -/

namespace Sys2Proof.Machine

/-- The outcome of a row of the always-on domain whose effect is known. -/
theorem runAo_next {s t : State} {f : State → State} (h : f s = t) : s.runAo f = .next (s.after t) := by
  subst h
  rfl

/-- The outcome of any other row whose effect is known, while the fast clocks run. -/
theorem run_next {s t : State} {f : State → State} (hclock : s.power.stopped = false) (h : f s = t) : s.run f = .next (s.after t) := by
  subst h
  exact run_eq s f hclock

/-- Settles O58: what each row of a pin, of the matchplate wire and of the TAP does under its conditions. -/
theorem pinRowsComplete : Obligations.PinRowsComplete := by
  unfold Obligations.PinRowsComplete
  refine ⟨fun s n => rfl, fun s k hfunc hpark => ?_, fun s k hedges => ?_, fun s hon hlead => ?_, fun s n hon => ?_, fun s => ⟨rfl, rfl⟩, fun s tms tdi => ⟨rfl, rfl⟩⟩
  · exact runAo_next (if_pos ⟨hfunc, by rw [hpark]; rfl⟩)
  · simp only [exec, execTachWindowEnd]
    refine runAo_next ?_
    have hlow : (s.pinFunc (4 + k) == 3 && !(s.pin (4 + k)).parking && !(s.pin (4 + k)).parkSeen && decide ((s.pin (4 + k)).edges < s.field .pwrGpioCfg (4 + k) 0 16 16)) = false := by
      rw [decide_eq_false (Nat.not_lt.mpr hedges), Bool.and_false]
    simp only [hlow, Bool.false_eq_true, if_false]
  · exact runAo_next (if_pos ⟨hon, hlead⟩)
  · simp only [exec, execMpSyncFall]
    refine runAo_next ?_
    simp only [hon, Bool.not_true, Bool.false_eq_true, if_false]

/-- Settles O59: what each request does under its conditions. -/
theorem securityRowsComplete : Obligations.SecurityRowsComplete := by
  unfold Obligations.SecurityRowsComplete
  refine ⟨fun s n hfree => ?_, fun s i hmin hmax => ?_, fun s n slot key hsession hslot hcarved => ?_, fun s image hroll hfail => ?_⟩
  · simp only [exec, execSpdmRequest]
    exact runAo_next (by simp only [hfree])
  · simp only [exec, execSpdmRequest]
    exact runAo_next (if_pos ⟨hmin, hmax⟩)
  · have hsession : s.sec.sessions.contains n.val = true := List.contains_iff_mem.mpr hsession
    have hcarved : s.tenants.parts.any (fun p => p.carve.coreMask != 0 && p.carve.linkKey == slot.val) = false := by simpa using hcarved
    simp only [exec, execKeySlotSet]
    constructor <;> exact runAo_next (by simp only [hsession, hslot, hcarved, Bool.not_true, Bool.false_eq_true, or_self, if_false])
  · simp only [exec, execPldmFirmwareUpdate]
    refine runAo_next ?_
    simp only [hroll, hfail, Option.isSome_none, Bool.false_eq_true, if_false, ne_eq, not_true_eq_false]
    cases Config.imageOk image with
    | false => rfl
    | true => cases s.imageTaken image <;> rfl

/-- Settles O60: what each reset, supply and reference clock does under its conditions. -/
theorem resetRowsComplete : Obligations.ResetRowsComplete := by
  unfold Obligations.ResetRowsComplete
  refine ⟨fun s x hgood => ?_, fun s => ?_, fun s r hgood hresetN htrip hreset hfail => ?_, fun s hgood => ?_, fun s => rfl, fun s hgood hreset => ?_, fun s => ?_, fun s hclock => ?_, fun s l hclock hup => ?_⟩
  · simp only [exec, execAoPwrgoodRise]
    exact runAo_next (if_neg (by rw [hgood]; exact Bool.false_ne_true))
  · simp only [exec, execColdReset, State.runAo]
  · simp only [exec, execStartup]
    exact runAo_next (if_pos ⟨hgood, hresetN, by simp only [htrip, Bool.not_false], hreset, hfail⟩)
  · simp only [exec, execWarmReset]
    exact runAo_next (if_pos hgood)
  · simp only [exec, execMainPwrgoodLoss]
    exact runAo_next (if_pos ⟨hgood, by rw [hreset]; rfl⟩)
  · simp only [exec, execAoRefclkLoss, State.runAo]
  · simp only [exec, execGlRefclkLoss, execGlRefclkReturn]
    exact ⟨run_eq s _ hclock, run_eq s _ hclock⟩
  · simp only [exec, execHlRefclkLoss]
    exact run_next hclock (if_pos (.inl hup))

end Sys2Proof.Machine

/-! ### Memory timers and deadlines -/

namespace Sys2Proof.Machine

/-- Settles O55: an interval in which Runner takes no decision, and a refresh window. -/
theorem memoryTimersComplete : Obligations.MemoryTimersComplete := by
  unfold Obligations.MemoryTimersComplete
  refine ⟨fun s s1 hclock hs1 hoff => ?_, fun s hclock => ?_⟩
  · simp only [exec, execRunnerInterval]
    subst hs1
    exact run_next hclock (by simp only [if_pos hoff])
  · simp only [exec, execRefreshWindow]
    exact run_eq _ _ hclock

/-- A ring that is still full breaks its stream (R367). -/
theorem campionExpired_stalled {s : State} {j : Nat} {q : CruJob} {k : Campion} {x : Ctx} (hjob : q ∈ s.cru.jobs) (hstalled : q.stalled = true) (hring : q.frames.head?.map (·.1) = some j)
    (hstream : s.campion? j = some k) (hctx : s.ctx? k.ctx = some x) :
    s.campionExpired j = (((s.modCampion j (fun k => { k with broken := true })).flag .cruCampionStat j 0 1).event .campionLost x.part 0 (toLe 8 j)).cruPumpAll := by
  obtain ⟨f, hf, hj⟩ := Option.map_eq_some_iff.mp hring
  have hwaits : s.cru.jobs.any (fun q => q.stalled && (q.frames.head?.map (fun f => f.1 == j)).getD false) = true :=
    List.any_eq_true.mpr ⟨q, hjob, by simp [hstalled, hf, hj]⟩
  simp only [State.campionExpired, hwaits, if_true, hstream, Option.bind_some, hctx, Option.map_some, Option.getD_some]

/-- A second core that fails to rejoin reverses the roll (R487). -/
theorem rejoinExpired_second {s : State} {h u : Nat} {c : Running} (hroll : s.fw.rollUid = some u) (hcmd : s.cmd? u = some c) (hstat : s.fw.stat = 2) (hnext : s.fw.rollNext ≤ h)
    (hactive : (s.unit (hccUnit h)).state = .active) (hfailures : s.fw.failures ≠ 0) :
    s.rejoinExpired h = ({ s with fw := { s.fw with versions := s.fw.prior, coresNew := 0 } } : State).failCmd c.uid (errFormat 40) := by
  simp only [State.rejoinExpired, hroll, Option.bind_some, hcmd, hstat, Nat.not_lt.mpr hnext, hactive, hfailures, ne_eq, not_true_eq_false, or_self, if_false]

/-- Settles O57: each deadline is evaluated at its tick's end, and what it does there. -/
theorem deadlineRowsComplete : Obligations.DeadlineRowsComplete := by
  unfold Obligations.DeadlineRowsComplete
  exact ⟨fun s j => run_eq s (fun s => s.expire (.campion j)), fun s j q k x hjob hstalled hring hstream hctx => campionExpired_stalled hjob hstalled hring hstream hctx,
    fun s h => run_eq s (fun s => s.expire (.rejoin h)), fun s h u c hroll hcmd hstat hnext hactive hfailures => rejoinExpired_second hroll hcmd hstat hnext hactive hfailures⟩

end Sys2Proof.Machine

/-! ### Sequencer rows and barriers -/

namespace Sys2Proof.Machine

/-- LOOP_END counts one iteration, and goes back to the operation after its LOOP_BEGIN until the count there is reached (R98). -/
theorem execLoopEnd_next {s : State} {c : Fin 40} {r : Run} {o b : Op} {l : Launch} {n : Nat} (hclock : s.power.stopped = false) (hop : s.seqOp c 3 = some (r, o)) (hlaunch : s.launch? r.launch = some l)
    (hbegin : l.ops[o.imm.toNat % 2 ^ 16]? = some b) (hn : n = ((r.loops[o.desc.toNat % 4]?).getD 0) + 1) :
    execLoopEnd c s = .next (s.after ((s.modRun c (fun r => { r with loops := setAt r.loops (o.desc.toNat % 4) n })).seqNext c
      (if n < b.imm.toNat % 2 ^ 32 then o.imm.toNat % 2 ^ 16 + 1 else r.pc + 1) o.post)) :=
  run_next hclock (by simp only [hop, hlaunch, Option.map_some, Option.getD_some, hbegin, ← hn])

/-- A YIELD of an active core at which no switch is pending, and nothing else wants the core, goes on (R100). -/
theorem execYield_stays {s s1 : State} {c : Fin 40} {r : Run} {o : Op} (hclock : s.power.stopped = false) (hop : s.seqOp c 4 = some (r, o)) (hdrained : r.drained = true)
    (hs1 : s1 = ((s.yieldClear c).modRun c (fun r => r.pastYield o.post)).yieldProgress r.launch) (hlapsed : s1.lapsedCmd r.launch = none) (hactive : (s1.unit (coreUnit c)).state = .active)
    (hswitch : (s1.core c).switchPending = false) (hfree : s1.contended c = false) : execYield c s = .next (s.after (s1.settle c)) :=
  run_next hclock (by simp [hop, hdrained, ← hs1, hlapsed, hactive, hswitch, hfree])

/-- A BAR within the device arrives and waits (R112). -/
theorem execBar_arrives {s : State} {c : Fin 40} {r : Run} {o : Op} {l : Launch} {id : Nat} (hclock : s.power.stopped = false) (hop : s.seqOp c 5 = some (r, o)) (hlaunch : s.launch? r.launch = some l)
    (hdrained : r.drained = true) (hid : id = (l.barIds[bits o.desc.toNat 9 0]?).getD 0) (haxis : bits o.desc.toNat 13 12 = 0) :
    execBar c s = .next (s.after ((s.modRun c (fun r => { r with seq := .barrier id })).modLaunch l.id (fun l => { l with arrived := l.arrived ++ [(id, r.logical)] }))) :=
  run_next hclock (by simp [hop, hlaunch, hdrained, ← hid, haxis])

/-- The last core of a command's program to reach END ends it, with the program's outcome (R107). -/
theorem execEndProg_last {s s2 : State} {c : Fin 40} {r : Run} {o : Op} {l : Launch} {u : Nat} (hclock : s.power.stopped = false) (hop : s.seqOp c 1 = some (r, o)) (hdrained : r.drained = true)
    (hs2 : s2 = (((s.modCore c (fun k => { k.clearArrays.leave with switchPending := false, slot := false })).coreDrained c).modPart r.part (fun p => { p with slotWait := p.slotWait.filter (· != c.val) })).modLaunch
      r.launch (fun l => l.endedOn r c))
    (hlaunch : s2.launch? r.launch = some l) (hlapsed : s2.lapsedCmd l.id = none) (hby : l.by_ = .cmd u) (hall : l.cores.length ≤ l.ended.length) :
    execEndProg c s = .next (s.after ((((s2.reply u (l.outcome r.yields)).endLaunch l.id).resumeCore c).pumpFills)) := by
  refine run_next hclock ?_
  have hgo : (!r.drained) = false := by rw [hdrained]; rfl
  simp only [hop, hgo, ← hs2, hlaunch, hlapsed, hby, if_pos hall, Bool.false_eq_true, if_false]

/-- A barrier of a launch releases once all its cores have arrived and no add of it is outstanding (R114). -/
theorem execBarrierRelease_launch {s : State} {n : Fin 1024} {l : Launch} (hclock : s.power.stopped = false)
    (hfound : s.cores.launches.find? (fun l => l.arrived.any (fun a => a.1 == n.val) && l.allArrived n && !s.fabric.bars.any (fun b => b.launch == some (l.id, n.val))) = some l)
    (hadds : s.launchAdds l.id (s.launchCmds l.id) = false) (hbarred : s.stagedBarred (fun g => g.launch == some l.id) = false) :
    execBarrierRelease (.id n) s = .next (s.after ((s.useEpoch l.part n).releaseLaunch l n true)) :=
  run_next hclock (by simp only [hfound, hadds, hbarred, Bool.false_eq_true, or_self, if_false])

theorem execBarrierRelease_cmd {s : State} {uid : Nat} {c : Running} (hclock : s.power.stopped = false) (hcmd : s.cmd? uid = some c) (hlive : c.reply = none) (hwork : c.work = .barrier)
    (hadds : s.cmdAdds uid = false) (hbarred : s.stagedBarred (fun g => s.cmdLaunch uid g.launch g.uid) = false) : execBarrierRelease (.cmd uid) s = .next (s.after (s.releaseCmd c)) :=
  run_next hclock (by simp [hcmd, hlive, hwork, hadds, hbarred])

/-- Settles O42: what each operation of the sequencer does, and what a barrier's release does. -/
theorem sequencerRowsComplete : Obligations.SequencerRowsComplete := by
  unfold Obligations.SequencerRowsComplete
  simp only [exec]
  refine ⟨fun s c r o hclock hop => ?_, fun s c r o hclock hop => ?_, fun s c r o b l n hclock hop hlaunch hbegin hn => execLoopEnd_next hclock hop hlaunch hbegin hn,
    fun s s1 c r o hclock hop hdrained hs1 hlapsed hactive hswitch hfree => execYield_stays hclock hop hdrained hs1 hlapsed hactive hswitch hfree,
    fun s c r o l id hclock hop hlaunch hdrained hid haxis => execBar_arrives hclock hop hlaunch hdrained hid haxis,
    fun s s2 c r o l u hclock hop hdrained hs2 hlaunch hlapsed hby hall => execEndProg_last hclock hop hdrained hs2 hlaunch hlapsed hby hall,
    fun s n l hclock hfound hadds hbarred => execBarrierRelease_launch hclock hfound hadds hbarred,
    fun s uid c hclock hcmd hlive hwork hadds hbarred => execBarrierRelease_cmd hclock hcmd hlive hwork hadds hbarred⟩
  · exact run_next hclock (by simp only [hop])
  · exact run_next hclock (by simp only [hop])

end Sys2Proof.Machine

/-! ### Operations, phases, move slots and watchdogs of cores -/

namespace Sys2Proof.Machine

/-- An operation that is done leaves its engine, is counted, and posts (R102, R103). -/
theorem execOperationComplete_done {s : State} {c : Fin 40} {e : Fin 9} {r : Run} {q : Queued} (hclock : s.power.stopped = false) (hengine : e.val ≠ 0) (hdone : s.opDone c e = true)
    (hrun : (s.core c).run = some r) (hcur : (r.engine e).cur = some q) :
    execOperationComplete c e s = .next (s.after (
      let s1 := s.modRun c (fun r => r.setEngine e { r.engine e with cur := none })
      let s2 := if 1 ≤ e.val ∧ e.val ≤ 4 then s1.count .arrOps c (e - 1) 0 32 else if e.val = 5 then s1.count .vecOps c 0 0 32 else s1
      (s2.post c q.op.post).settle c)) :=
  run_next hclock (by simp only [hdone, hrun, Option.map_some, Option.bind_some, hcur, hengine, Bool.not_true, Bool.false_eq_true, or_self, if_false])

/-- A phase ends once its operations have: the core changes between moving and computing, and the operations that waited for the other phase go (R91). -/
theorem execPhaseSwitch_idle {s : State} {c : Fin 40} {r : Run} (hclock : s.power.stopped = false) (hrun : (s.core c).run = some r) (hwants : r.wantsSwitch = true)
    (hidle : ∀ k ∈ r.engines, k.cur = none ∧ k.go = false) :
    execPhaseSwitch c s = .next (s.after ((s.modCore c (fun k => { k with slot := false })).modRun c (fun r => { r with
      compute := !r.compute,
      engines := r.engines.zipIdx.map (fun p => if p.2 ≠ 0 ∧ computeEngine p.2 ≠ r.compute ∧ p.1.taken then { p.1 with go := true } else p.1) }))) := by
  have hidle : r.engines.all (fun k => k.cur.isNone && !k.go) = true := List.all_eq_true.mpr fun k hk => by simp [hidle k hk]
  exact run_next hclock (by simp only [hrun, hwants, hidle, and_self, if_true])

/-- One grant gives the first waiting core a move slot, where one is free (R94). -/
theorem serveSlots_one {s : State} {p : Nat} {k : Part} {c : Nat} {rest : List Nat} (hpart : s.part? p = some k) (hwait : k.slotWait = c :: rest) (hfree : s.slotHolders k < s.moveSlots p) :
    State.serveSlots p 1 s = (s.modPart p (fun k => { k with slotWait := rest })).takeSlot c := by
  simp only [State.serveSlots, hpart, hwait, hfree, if_true]

/-- The watchdog of an operation that is neither done nor streaming (R105). -/
theorem watchdogExpired_runs {s : State} {c e : Nat} {r : Run} {k : Engine} (hrun : (s.core c).run = some r) (hengine : r.engines[e]? = some k) (hcur : k.cur.isSome = true) (hstream : k.streaming = false) :
    s.watchdogExpired c e = (s.flag .coreStat c 0 6).bucket 8 (.unit (BitVec.ofNat 32 (coreUnit c)) 0 0) s.now := by
  simp only [State.watchdogExpired, hrun, hengine, Option.getD_some, hcur, hstream, Bool.not_false, and_self, if_true]

/-- Settles O44: what each event of a core does under its conditions. -/
theorem coreEventsComplete : Obligations.CoreEventsComplete := by
  unfold Obligations.CoreEventsComplete
  simp only [exec]
  exact ⟨fun s c e r q hclock hengine hdone hrun hcur => execOperationComplete_done hclock hengine hdone hrun hcur,
    fun s c r hclock hrun hwants hidle => execPhaseSwitch_idle hclock hrun hwants hidle,
    fun s p k c rest hclock hpart hwait hfree => run_next hclock (by rw [serveSlots_one hpart hwait hfree]),
    fun s c e hclock => run_eq s (fun s => s.expire (.watchdog c e)) hclock,
    fun s c e r k hrun hengine hcur hstream => watchdogExpired_runs hrun hengine hcur hstream⟩

end Sys2Proof.Machine

/-! ### Transfers -/

namespace Sys2Proof.Machine

/-- A transfer that waits for nothing lands (R200). -/
theorem execTransferLanded_lands {s : State} {id : Nat} {res : Landing} {x : Transfer} {t : Stream} (hclock : s.power.stopped = false) (hfound : s.moves.transfers.find? (·.id == id) = some x)
    (hstream : s.stream? x.stream = some t) (hparked : x.parked = none) (hats : x.atsWait = false) (hfar : x.farPending = 0) :
    execTransferLanded id res s = .next (s.after (s.landAs x t res).pumpJobs) :=
  run_next hclock (by simp only [hfound, hstream, hparked, hats, hfar, Option.isSome_none, Bool.false_eq_true, lt_self_iff_false, or_self, if_false])

/-- At its park limit a job's transfer stops the job's streams, where its command is pre-emptible (R206). -/
theorem parkExpired_preemptible {s : State} {id j : Nat} {x : Transfer} {t : Stream} {c : Running} (hgather : s.gather? id = none) (hfound : s.moves.transfers.find? (·.id == id) = some x)
    (hstream : s.stream? x.stream = some t) (howner : t.owner = .job j) (hcmd : s.cmd? t.uid = some c) (hparked : x.parked.isSome = true) (hpre : c.preemptible = true) :
    s.parkExpired id = (((s.moves.streams.filter (fun k => k.owner == .job j)).map (·.id)).foldl
      (fun st i => (st.modStream i (fun k => { k with stopping := true, halted := true })).stopStream i) s).pumpJobs := by
  have hparked : x.parked.isNone = false := by simpa [Option.isSome_iff_ne_none] using hparked
  simp only [State.parkExpired, hgather, hfound, hstream, howner, hcmd, hparked, hpre, Bool.not_true, Bool.false_eq_true, or_self, if_false]

/-- Settles O45: a landing, and a park limit evaluated at its tick's end. -/
theorem transferEventsComplete : Obligations.TransferEventsComplete := by
  unfold Obligations.TransferEventsComplete
  simp only [exec]
  exact ⟨fun s id res x t hclock hfound hstream hparked hats hfar => execTransferLanded_lands hclock hfound hstream hparked hats hfar,
    fun s id => run_eq s (fun s => s.expire (.park id)),
    fun s id j x t c hgather hfound hstream howner hcmd hparked hpre => parkExpired_preemptible hgather hfound hstream howner hcmd hparked hpre⟩

end Sys2Proof.Machine

/-! ### Far replies and timers -/

namespace Sys2Proof.Machine

/-- A timed-out far request that is not exactly-once is lost, and its command ends (R239). -/
theorem farExpired_plain {s : State} {orig tag : Nat} {f : Far} (hfar : s.far? orig tag = some f) (hslot : f.slot = none) :
    s.farExpired orig tag = (((s.count .memFarStat f.orig 0 0 16).dropFar f.orig f.tag).farLost f).failFar f (errFarTimeout f.orig f.tag) := by
  simp only [State.farExpired, hfar, hslot, Option.isSome_none, Bool.false_eq_true, and_false, if_false]

/-- A slot that no request holds any more is free again (R247). -/
theorem slotExpired_unheld {s : State} {orig slot : Nat} (hfar : ∀ f ∈ s.memory.far, f.orig = orig → f.slot ≠ some slot) (hunres : ∀ u ∈ s.memory.unresolved, u.far.orig = orig → u.far.slot ≠ some slot) :
    s.slotExpired orig slot = s.unbusy orig [slot] := by
  have hfar : s.memory.far.any (fun f => f.orig == orig && f.slot == some slot) = false := by simpa using hfar
  have hunres : s.memory.unresolved.any (fun u => u.far.orig == orig && u.far.slot == some slot) = false := by simpa using hunres
  simp only [State.slotExpired, hfar, hunres, Bool.or_self, Bool.false_eq_true, if_false]

/-- A memory port that start-up waits for, and whose capabilities are not asked for, is given up (R242). -/
theorem trainingExpired_waited {s : State} {m : Nat} (hwait : m ∈ s.memory.trainWait) (hcaps : (s.port (s.rolePort (24 + m))).capsWait = false) : s.trainingExpired m = (s.trainedOff m).farUp := by
  have hwait : s.memory.trainWait.contains m = true := List.contains_iff_mem.mpr hwait
  simp only [State.trainingExpired, hwait, hcaps, Bool.not_false, and_self, if_true]

/-- A resolved request that was applied is logged as applied, and its slot is released (R248). -/
theorem execXoState_applied {s s1 : State} {port orig : Fin 8} {tag : Fin 1048576} {u : Unresolved} {k : Option Nat} {x a fmt : Nat} (hclock : s.power.stopped = false) (hs1 : s1 = s.takeReply port 0x89 orig tag)
    (hfound : s1.memory.unresolved.find? (fun u => u.far.orig == orig.val && u.far.tag == tag.val) = some u) (hepoch : s1.epochOf u.group = u.far.epoch) (huse : u.far.use = .add k x a fmt) :
    execXoState port orig tag .applied s = .next (s.after ((((({ s1 with memory := { s1.memory with
        unresolved := s1.memory.unresolved.filter (fun u => !(u.far.orig == orig.val && u.far.tag == tag.val)),
        xoDone := s1.memory.xoDone ++ (u.far.slot.map (fun n => (u.far.orig, n))).toList } } : State).farAdded x a fmt u.far.payload).event .xoResolved 0xFF 0
          (toLe 4 u.seq ++ toLe 4 tag.val ++ toLe 1 1)).releaseSlots orig).pumpJobs)) := by
  subst hs1
  exact run_next hclock (by simp only [hfound, hepoch, huse, ne_eq, not_true_eq_false, if_false, reduceCtorEq, false_and, decide_true, Bool.not_true, Bool.false_eq_true, if_true])

/-- Capabilities that come in time and meet R242 bring their port into service. -/
theorem execCapsData_meets {s s1 s2 : State} {port : Fin 8} {caps : Caps} {f : Far} (hclock : s.power.stopped = false) (hfound : s.memory.far.find? (fun f => f.use == .caps && f.orig == port.val) = some f)
    (hs1 : s1 = (s.takeReply port 0x86 f.orig f.tag).dropFar f.orig f.tag) (hwait : (s1.port (s1.rolePort (24 + port))).capsWait = true) (hmeets : caps.meets = true) (htime : s1.now ≤ f.issuedAt + 25000)
    (hs2 : s2 = s1.modPort (s1.rolePort (24 + port)) (fun p => { p with capsWait := false })) :
    execCapsData port caps s = .next (s.after ((({ s2 with memory := { s2.memory with capsHeld := s2.memory.capsHeld ++
      [{ id := caps.expander, group := port, ports := [port.val], capGib := caps.capGib.toNat, epoch := caps.epoch.toNat, xoSlots := caps.xoSlots.toNat }] } } : State).trainedOff port).farUp)) := by
  subst hs2
  exact run_next hclock (by simp only [hfound, ← hs1, hwait, hmeets, Nat.not_lt.mpr htime, Bool.not_true, Bool.false_eq_true, or_self, if_false])

/-- Settles O46: what each reply does with the request it names, and what each timer does at its tick's end. -/
theorem farRowsComplete : Obligations.FarRowsComplete := by
  unfold Obligations.FarRowsComplete
  simp only [exec]
  refine ⟨fun s port orig fc tag poison data f t a hclock hfar huse => run_next hclock (by simp only [hfar, huse]),
    fun s port orig fc tag f k x a fmt hclock hfar huse => run_next hclock (by simp only [hfar, huse]),
    fun s port orig tag us f k x a fmt hclock hfar huse => run_next hclock (by simp only [hfar, huse]),
    fun s orig tag f k x a fmt hclock hfar huse hretry => run_next hclock ?_,
    fun s port orig tag code f hclock hfar => run_next hclock (by simp only [hfar]),
    fun s orig tag => run_eq s (fun s => s.expire (.far orig tag)),
    fun s orig tag f hfar hslot => farExpired_plain hfar hslot,
    fun s s1 port orig tag u k x a fmt hclock hs1 hfound hepoch huse => execXoState_applied hclock hs1 hfound hepoch huse,
    fun s orig slot => run_eq s (fun s => s.expire (.slot orig slot)),
    fun s orig slot hfar hunres => slotExpired_unheld hfar hunres,
    fun s s1 s2 port caps f hclock hfound hs1 hwait hmeets htime hs2 => execCapsData_meets hclock hfound hs1 hwait hmeets htime hs2,
    fun s m => run_eq s (fun s => s.expire (.training m)),
    fun s m hwait hcaps => trainingExpired_waited hwait hcaps,
    fun s port orig tag f hclock hfar hop => run_next hclock (by simp only [hfar, hop, if_true]),
    fun s port orig tag hclock hfar => run_next hclock (by simp only [hfar, State.lateReply])⟩
  have hretry : f.retryAfter.isNone = false := by simpa [Option.isSome_iff_ne_none] using hretry
  simp only [hfar, huse, hretry, Bool.false_eq_true, if_false]

end Sys2Proof.Machine

/-! ### Registers and ports that an update does not name -/

namespace Sys2Proof.Machine

theorem State.reg_congr {s u : State} (h : u.regs = s.regs) (r : Reg) (i j fn : Nat) : u.reg r i j fn = s.reg r i j fn := by
  simp only [State.reg, h]

theorem State.setReg_regs (s : State) (r : Reg) (i j v fn : Nat) :
    (s.setReg r i j v fn).regs = if v = r.reset i then mdel s.regs (fn, r.offset i j) else mset s.regs (fn, r.offset i j) (BitVec.ofNat 64 v) := by
  unfold State.setReg
  split
  · rfl
  · rfl

/-- What a count leaves in the registers follows from the registers alone. -/
theorem State.count_regs_congr {s u : State} (h : u.regs = s.regs) (r : Reg) (i j lo w n fn : Nat) : (u.count r i j lo w n fn).regs = (s.count r i j lo w n fn).regs := by
  unfold State.count
  split
  · exact h
  · simp only [State.setField, State.setReg_regs, State.field, State.reg_congr h, h]

theorem State.port_modPort_self (s : State) (k : Nat) {f : Port → Port} (hf : ∀ p, (f p).id = p.id) : (s.modPort k f).port k = f (s.port k) := by
  have h := s.port_putPort_self (f (s.port k))
  rwa [hf, State.port_id] at h

theorem Port.heardFrom_id (p : Port) (f : List Byte) : (p.heardFrom f).id = p.id := rfl

end Sys2Proof.Machine

/-! ### Flits, trainings, widths and retrains -/

namespace Sys2Proof.Machine

/-- A flit that fails its check is counted, and asks for a resend, whatever its kind (R410, R411). -/
theorem badFlit_fails {s : State} {k : Fin 36} {w : Fin 9} {fec : Option (Fin 31)} {rx : BitVec 8} {f : List Byte} {c : Instr} (hclock : s.power.stopped = false) (hbad : flitOk fec.isNone f = false)
    (hc : c = .dataFlit k w fec f ∨ c = .idleFlit k w fec f ∨ c = .nak k w fec f ∨ c = .train k w ⟨fec, rx⟩ f) : exec c s = .next (s.after ((s.rxFlit k w fec).flitFail k w)) := by
  have hbad : (!flitOk fec.isNone f) = true := by rw [hbad]; rfl
  rcases hc with rfl | rfl | rfl | rfl
  · simp only [exec, execDataFlit]
    exact run_next hclock (if_pos hbad)
  · simp only [exec, execIdleFlit]
    exact run_next hclock (if_pos hbad)
  · simp only [exec, execNak]
    exact run_next hclock (if_pos hbad)
  · simp only [exec, execTrain]
    exact run_next hclock (if_pos hbad)

section
variable {s : State} {k : Fin 36} {w : Fin 9} {n : Fin 31} {f : List Byte} (hclock : s.power.stopped = false) (hok : flitOk false f = true)
include hclock hok

/-- A data flit in sequence, at a port that is up, joins its packet (R408). -/
theorem execDataFlit_inSeq {s2 : State} (hkind : flitKind f = 1) (hs2 : s2 = (s.rxFlit k w (some n)).modPort k (fun p => p.common f)) (hup : (s2.port k).state = .up) (hseq : fld f 4 3 = (s2.port k).rxSeq) :
    execDataFlit k w (some n) f s = .next (s.after (s2.acceptData k f)) := by
  subst hs2
  exact run_next hclock (by simp only [Option.isNone_some, hok, hkind, hup, hseq, Bool.not_true, Bool.false_eq_true, ne_eq, not_true_eq_false, if_false, if_true])

theorem execIdleFlit_good (hkind : flitKind f = 0) : execIdleFlit k w (some n) f s = .next (s.after ((s.rxFlit k w (some n)).modPort k (fun p => p.common f))) :=
  run_next hclock (by simp only [Option.isNone_some, hok, hkind, Bool.not_true, Bool.false_eq_true, ne_eq, not_true_eq_false, if_false])

/-- A NAK at a port that is up resends from the flit it names (R409). -/
theorem execNak_resends {s2 : State} (hkind : flitKind f = 2) (hs2 : s2 = (s.rxFlit k w (some n)).modPort k (fun p => p.common f)) (hup : (s2.port k).state = .up) :
    execNak k w (some n) f s = .next (s.after ((s2.count .glPortCnt k 0 0 32).replayed k (fld f 12 3))) := by
  subst hs2
  exact run_next hclock (by simp only [Option.isNone_some, hok, hkind, hup, Bool.not_true, Bool.false_eq_true, ne_eq, not_true_eq_false, if_false, if_true])

/-- A training flit of this design, or of a memory port, is heard (R414). -/
theorem execTrain_heard {s1 : State} {rx : BitVec 8} (hkind : flitKind f = 5) (hs1 : s1 = (s.rxFlit k w (some n)).setField .glWl k w 56 8 rx.toNat) (htraining : (s1.port k).state = .training)
    (hdesign : (s1.port k).memory = true ∨ fld f 12 2 = 0x0709 ∧ fld f 14 1 = 0xA1) :
    execTrain k w ⟨some n, rx⟩ f s = .next (s.after ((s1.modPort k (fun p => { (p.common f).heardFrom f with heard := true })).modPort k (fun p => { p with rxSeq := fld f 4 3 }))) := by
  subst hs1
  refine run_next hclock ?_
  have hforeign : ¬ ((!(((s.rxFlit k w (some n)).setField .glWl k w 56 8 rx.toNat).port k).memory) = true ∧ (fld f 12 2 ≠ 0x0709 ∨ fld f 14 1 ≠ 0xA1)) := by
    rintro ⟨hmem, hne⟩
    rcases hdesign with h | ⟨h12, h14⟩
    · rw [h] at hmem; cases hmem
    · exact hne.elim (· h12) (· h14)
  simp only [Option.isNone_some, hok, hkind, Bool.not_true, Bool.false_eq_true, ne_eq, not_true_eq_false, if_false]
  simp only [htraining, reduceCtorEq, false_and, not_true_eq_false, if_false, if_true]
  rw [if_neg hforeign]

omit hclock hok in
/-- A width or a retrain that the partner asks for meets no proposal of this port's own: the port that hears it does not ask. -/
theorem asks_of_heard {s1 : State} (hs1 : s1 = (s.modPort k (fun p => p.common f)).modPort k (fun p => p.heardFrom f)) (hnone : (s1.port k).proposal = none) :
    ((s.modPort k (fun p => p.common f)).port k).asks = false := by
  rw [hs1, State.port_modPort_self _ _ (fun p => p.heardFrom_id f)] at hnone
  have hnone : ((s.modPort k (fun p => p.common f)).port k).proposal = none := hnone
  simp only [Port.asks, hnone, Option.isSome_none, Bool.and_false]

theorem execWidth_taken {s1 : State} (hkind : flitKind f = 4) (hs1 : s1 = (s.modPort k (fun p => p.common f)).modPort k (fun p => p.heardFrom f)) (hup : (s1.port k).state = .up)
    (hnone : (s1.port k).proposal = none) : execWidth k (some f) false w s = .next (s.after (s1.setWidth k (s1.ownWidth k))) := by
  have hasks := asks_of_heard hs1 hnone
  refine run_next hclock ?_
  simp only [hok, hkind, hasks, Bool.not_true, Bool.false_eq_true, ne_eq, not_true_eq_false, or_self, if_false, State.takeWidth, ← hs1, hup, hnone]

theorem execRetrain_taken {s1 : State} (hkind : flitKind f = 3) (hs1 : s1 = (s.modPort k (fun p => p.common f)).modPort k (fun p => p.heardFrom f)) (hup : (s1.port k).state = .up)
    (hnone : (s1.port k).proposal = none) : execRetrain k (some f) s = .next (s.after (s1.startRetrain k)) := by
  have hasks := asks_of_heard hs1 hnone
  refine run_next hclock ?_
  simp only [hok, hkind, hasks, Bool.not_true, Bool.false_eq_true, ne_eq, not_true_eq_false, or_self, if_false, State.takeRetrain, ← hs1, hup, hnone]

end

/-- Corrected symbols that pass 1,024 are one count of the wavelength (R407). -/
theorem rxFlit_glWl (s : State) (k w : Nat) {n : Nat} (hn : n < 31) :
    (s.rxFlit k w (some (Fin.ofNat 31 n))).reg .glWl k w = ((if 1024 ≤ mgetD (s.port k).symbols w 0 + n then s.count .glWl k w 0 32 else s).reg .glWl k w) := by
  have hval : (((some (Fin.ofNat 31 n)).map (·.val)).getD 0) = n := Nat.mod_eq_of_lt hn
  simp only [State.rxFlit, hval]
  by_cases hfull : 1024 ≤ mgetD (s.port k).symbols w 0 + n
  · simp only [if_pos hfull]
    exact State.reg_congr (State.count_regs_congr (State.modPort_regs ..) ..) ..
  · simp only [if_neg hfull]
    exact State.reg_congr (State.modPort_regs ..) ..

/-- A fabric port that has idled above the kept width proposes that width (R419). -/
theorem execWidthIdleExpiry_narrows {s : State} {k : Fin 36} {p : Port} (hclock : s.power.stopped = false) (hp : p = s.port k) (hon : s.field .pwrCfg 0 0 32 16 ≠ 0) (hup : p.state = .up) (hfabric : p.memory = false)
    (hnone : p.proposal = none) (hwide : s.field .pwrCfg 0 0 48 4 < p.width) (hidle : p.tx = []) (hkeep : s.field .pwrLinkKeep 0 0 k 1 = 0) (hchill : p.chillTraffic = false) :
    execWidthIdleExpiry k s = .next (s.after (s.putPort (p.propose (s.field .pwrCfg 0 0 48 4)))) := by
  subst hp
  exact run_next hclock (by simp [hon, hup, hfabric, hnone, Nat.not_le.mpr hwide, hidle, hkeep, hchill])

/-- Settles O47: what a port does with each flit, training, width and retrain. -/
theorem flitRowsComplete : Obligations.FlitRowsComplete := by
  unfold Obligations.FlitRowsComplete
  refine ⟨fun s s2 k w n f hclock hok hkind hs2 hup hseq => ?_, fun s k w fec rx f c hclock hbad hc => badFlit_fails hclock hbad hc, fun s k w n f hclock hok hkind => ?_, fun s s2 k w n f hclock hok hkind hs2 hup => ?_,
    fun s k w n hn => rxFlit_glWl s k w hn, fun s k hclock hnak hup => ?_, fun s k w hclock => ?_, fun s k w hclock hup hnone hw => ?_, fun s s1 k f w hclock hok hkind hs1 hup hnone => ?_,
    fun s s1 k f hclock hok hkind hs1 hup hnone => ?_, fun s s1 k w n rx f hclock hok hkind hs1 htraining hdesign => ?_,
    fun s k p hclock hp hon hup hfabric hnone hwide hidle hkeep hchill => ?_⟩ <;> simp only [exec]
  · exact execDataFlit_inSeq hclock hok hkind hs2 hup hseq
  · exact execIdleFlit_good hclock hok hkind
  · exact execNak_resends hclock hok hkind hs2 hup
  · exact run_next hclock (if_pos ⟨hnak, hup⟩)
  · exact ⟨run_eq s (fun s => s.startRetrain k) hclock, run_eq s (fun s => s.startRetrain k) hclock⟩
  · exact run_next hclock (if_pos ⟨hup, by rw [hnone]; rfl, hw⟩)
  · exact execWidth_taken hclock hok hkind hs1 hup hnone
  · exact execRetrain_taken hclock hok hkind hs1 hup hnone
  · exact execTrain_heard hclock hok hkind hs1 htraining hdesign
  · exact execWidthIdleExpiry_narrows hclock hp hon hup hfabric hnone hwide hidle hkeep hchill

end Sys2Proof.Machine

/-! ### Ports come up and drop, and packets end -/

namespace Sys2Proof.Machine

/-- A fabric port whose training has ended is up at the agreed width, and sends what waits (R414 to R416). -/
theorem execPortTrained_up {s : State} {k : Fin 36} {p : Port} {a : Nat × Nat} (hclock : s.power.stopped = false) (hp : p = s.port k) (hclk : s.pins.glPresent = true) (hheard : p.heard = true)
    (htraining : p.state = .training) (hfabric : p.memory = false) (hreplay : p.replay = []) (ha : a = agreed ((p.proposal.map (·.width)).getD (s.ownWidth k)) p (s.wlUsable k)) (hwidth : a.1 ≠ 0) :
    execPortTrained k s = .next (s.after ((((s.putPort (s.upPort k p a)).modPort k Port.pump).relieved k).bootProgress)) := by
  have hup : (s.upPort k p a).replay = [] := hreplay
  refine run_next hclock ?_
  simp only [← hp, hclk, hheard, htraining, hfabric, ← ha, hwidth, hup, Bool.not_true, Bool.false_eq_true, ne_eq, not_true_eq_false, false_and, and_false, or_self, if_false]

/-- A link whose replay window ends while it retrains drops; its packets are issued again on another port (R416, R420, R421). -/
theorem linkDropped_retraining {s : State} {k : Nat} (hwindow : (s.port k).windowAt.isSome = true) (hretraining : (s.port k).state = .retraining) (hpair : (s.port k).pairLink = false) :
    s.linkDropped k = ((s.portDown k).reissuePort k).bucket 11 (.unit (BitVec.ofNat 32 (portUnit k)) 0 0) ((s.portDown k).reissuePort k).now := by
  have hwindow : (s.port k).windowAt.isNone = false := by simpa [Option.isSome_iff_ne_none] using hwindow
  simp only [State.linkDropped, hwindow, hretraining, hpair, reduceCtorEq, Bool.false_eq_true, or_self, false_and, if_false]

theorem reqLifeExpired_found {s : State} {k tag j : Nat} {o : OutPkt}
    (hfound : (s.fabric.ports.filter (fun p => p.state != .up)).findSome? (fun p => (p.outstanding.find? (fun o => o.xo && o.orig == k && o.tag == tag)).map (fun o => (p.id, o))) = some (j, o)) :
    s.reqLifeExpired k tag = ((s.modPort j (fun p => p.dropPacket o.num)).losePacket o).sendWaiting k := by
  simp only [State.reqLifeExpired, hfound]

section
variable {s s1 : State} {k : Fin 36} {pkt : FabPacket} (hclock : s.power.stopped = false) (hadmit : s.admitPacket k 7 pkt = (s1, true))
include hclock hadmit

/-- An ACK ends the packet it names. -/
theorem execAckPacket_ends {j : Nat} {o : OutPkt}
    (hfound : s1.fabric.ports.findSome? (fun p => (p.outstanding.find? (fun o => o.xo && o.orig == s1.partnerPort k pkt.orig && o.tag == pkt.tag.val)).map (fun o => (p.id, o))) = some (j, o)) :
    execAckPacket k pkt s = .next (s.after ((s1.modPort j (fun p => p.dropPacket o.num)).sendWaiting (s1.partnerPort k pkt.orig))) :=
  run_next hclock (by simp only [hadmit, hfound, Bool.not_true, Bool.false_eq_true, if_false])

/-- A late ACK is counted, and frees its TAG (R423). -/
theorem execAckPacket_late (hnone : ∀ p ∈ s1.fabric.ports, ∀ o ∈ p.outstanding, o.xo = true → o.orig = s1.partnerPort k pkt.orig → o.tag ≠ pkt.tag.val) :
    execAckPacket k pkt s = .next (s.after (((s1.count .cmdLateDiscardCnt 0 0 0 32).modPort (s1.partnerPort k pkt.orig) (fun p =>
      { p with lostTags := p.lostTags.filter (· != pkt.tag.val) })).sendWaiting (s1.partnerPort k pkt.orig))) := by
  have hnone : s1.fabric.ports.findSome? (fun p => (p.outstanding.find? (fun o => o.xo && o.orig == s1.partnerPort k pkt.orig && o.tag == pkt.tag.val)).map (fun o => (p.id, o))) = none := by
    refine List.findSome?_eq_none_iff.mpr fun p hp => ?_
    rw [Option.map_eq_none_iff, List.find?_eq_none]
    intro o ho h
    simp only [Bool.and_eq_true, beq_iff_eq] at h
    exact hnone p hp o ho h.1.1 h.1.2 h.2
  exact run_next hclock (by simp only [hadmit, hnone, Bool.not_true, Bool.false_eq_true, if_false])

end

/-- Settles O48: how ports come up and drop, and how packets end. -/
theorem portRowsComplete : Obligations.PortRowsComplete := by
  unfold Obligations.PortRowsComplete
  simp only [exec]
  exact ⟨fun s k p a hclock hp hclk hheard htraining hfabric hreplay ha hwidth => execPortTrained_up hclock hp hclk hheard htraining hfabric hreplay ha hwidth,
    fun s k => run_eq s (fun s => s.expire (.linkDrop k)),
    fun s k hwindow hretraining hpair => linkDropped_retraining hwindow hretraining hpair,
    fun s k tag => run_eq s (fun s => s.expire (.reqLife k tag)),
    fun s k tag j o hfound => reqLifeExpired_found hfound,
    fun s s1 k pkt j o hclock hadmit hfound => execAckPacket_ends hclock hadmit hfound,
    fun s s1 k pkt hclock hadmit hnone => execAckPacket_late hclock hadmit hnone,
    fun s k tag => run_eq s (fun s => s.expire (.cached k tag)),
    fun s k tag => rfl⟩

end Sys2Proof.Machine

/-! ### Matchplate packets -/

namespace Sys2Proof.Machine

section
variable {s s1 : State} {k : Fin 36} {pkt : FabPacket} (hclock : s.power.stopped = false)
include hclock

/-- A follower keeps a forwarded command whose index is new (R387). -/
theorem execMatchForward_kept {q : Fin 4096} (hadmit : s.matchAdmit k pkt 1 = (some s1, s1)) (hqueue : fld pkt.payload 8 2 = q.val) (hfollower : s1.pair.lead = false) (hnew : s1.pair.lastIndex < fld pkt.payload 4 4) :
    execMatchForward k pkt s = .next (s.after { s1 with pair := { s1.pair with
      lastIndex := fld pkt.payload 4 4, forwarded := s1.pair.forwarded ++ [(fld pkt.payload 4 4, .ctx q, { bytes := pkt.payload.drop 16 })] } }) := by
  have hnot : ¬ (s1.pair.lead = true ∨ fld pkt.payload 4 4 ≤ s1.pair.lastIndex) := by
    rw [hfollower]
    exact fun h => h.elim Bool.false_ne_true (Nat.not_le.mpr hnew)
  refine run_next hclock ?_
  simp only [hadmit, hqueue, q.isLt, dite_true, if_neg hnot]

/-- The last packet of a command's digests completes the partner's verdict (R391). -/
theorem execMatchDigests_last {e : Compare} {n : Nat} (hadmit : s.matchAdmit k pkt 2 = (some s1, s1)) (hcompare : s1.compare? (fld pkt.payload 4 4) = some e) (hopen : e.theirs = none)
    (hlen : pkt.payload.length = 8 + 12 * n + 4) (hlast : n ≠ tensorsPerPacket) :
    execMatchDigests k pkt s = .next (s.after (({ s1 with pair := { s1.pair with compares := put s1.pair.compares (fun c => c.index == fld pkt.payload 4 4) { e with
      peerPart := e.peerPart ++ (List.range n).map (fun j => (fld (pkt.payload.drop 8) (12 * j) 4, BitVec.ofNat 64 (fld (pkt.payload.drop 8) (12 * j + 4) 8))),
      theirs := some { tensors := e.peerPart ++ (List.range n).map (fun j => (fld (pkt.payload.drop 8) (12 * j) 4, BitVec.ofNat 64 (fld (pkt.payload.drop 8) (12 * j + 4) 8))),
                       status := fld (pkt.payload.drop 8) (12 * n) 2, detail := fld (pkt.payload.drop 8) (12 * n + 2) 2 } } } } : State).judge (fld pkt.payload 4 4))) := by
  have hbody : (pkt.payload.drop 8).length = 12 * n + 4 := by rw [List.length_drop, hlen]; omega
  have hcount : (12 * n + 4 - 4) / 12 = n := by omega
  refine run_next hclock ?_
  simp only [hadmit, hbody, hcount, hcompare, hopen, hlast, ne_eq, not_true_eq_false, if_false, Option.isNone_some, Option.isSome_none, Bool.false_eq_true, and_false, Option.getD_some]

/-- Tile digests join those of the command that they name (R391). -/
theorem execMatchTiles_joined {e : Compare} (hadmit : s.matchAdmit k pkt 3 = (some s1, s1)) (hcompare : s1.compare? (fld pkt.payload 4 4) = some e) (hopen : e.peerEnd = false) :
    execMatchTiles k pkt s = .next (s.after (({ s1 with pair := { s1.pair with compares := put s1.pair.compares (fun c => c.index == fld pkt.payload 4 4) { e with
      peerTiles := e.peerTiles ++ (List.range ((pkt.payload.drop 8).length / 8)).map (fun j => BitVec.ofNat 64 (fld (pkt.payload.drop 8) (8 * j) 8)),
      peerEnd := decide ((pkt.payload.drop 8).length / 8 < tilesPerPacket) } } } : State).locate (fld pkt.payload 4 4))) :=
  run_next hclock (by simp only [hadmit, hcompare, hopen, Option.isNone_some, Bool.false_eq_true, and_false, Option.getD_some, if_false])

end

/-- Settles O50: what each admitted packet of a pair does. -/
theorem matchRowsComplete : Obligations.MatchRowsComplete := by
  unfold Obligations.MatchRowsComplete
  simp only [exec]
  exact ⟨fun s s1 k pkt hclock hadmit hactive => run_next hclock (by simp only [hadmit, hactive, Bool.false_eq_true, if_false]),
    fun s s1 k pkt q hclock hadmit hqueue hfollower hnew => execMatchForward_kept hclock hadmit hqueue hfollower hnew,
    fun s s1 k pkt e n hclock hadmit hcompare hopen hlen hlast => execMatchDigests_last hclock hadmit hcompare hopen hlen hlast,
    fun s s1 k pkt e hclock hadmit hcompare hopen => execMatchTiles_joined hclock hadmit hcompare hopen,
    fun s s1 k pkt hclock hadmit => run_next hclock (by simp only [hadmit])⟩

end Sys2Proof.Machine

/-! ### Host links and their translation services -/

namespace Sys2Proof.Machine

/-- Where the cache of host lines is empty, nothing is dropped from it. -/
theorem State.filterHlc_nil {s : State} (h : s.host.hlc = []) (p : HlcLine → Bool) : { s with host := { s.host with hlc := s.host.hlc.filter p } } = s := by
  have hlc : s.host.hlc.filter p = s.host.hlc := by rw [h]; rfl
  rw [hlc]

/-- A link that is still down gives up what it held for the host (R470). -/
theorem holdExpired_down {s : State} {l : Nat} (hdown : (s.link l).state = .down) (hlines : s.host.hlc = []) :
    s.holdExpired l = ((s.modLink l (fun k => { k with held := [] })).count .hstLinkCnt l 0 32 16 (s.link l).held.length).count .hstLinkCnt l 0 48 16 0 := by
  have hnone : (((s.modLink l (fun k => { k with held := [] })).count .hstLinkCnt l 0 32 16 (s.link l).held.length).count .hstLinkCnt l 0 48 16 0).host.hlc = [] := by
    rw [State.count_host, State.count_host]
    unfold State.modLink State.setLink
    split <;> exact hlines
  simp only [State.holdExpired, hdown, reduceCtorEq, or_self, if_false, hlines, List.filter_nil, List.length_nil, List.foldl_nil]
  exact State.filterHlc_nil hnone _

/-- While no transfer is under way none waits for a page. -/
theorem pageWaiters_nil {s : State} (h : s.moves.transfers = []) (l : Nat) (pasid : Option (BitVec 20)) (page : Nat) : s.pageWaiters l pasid page = [] := by
  simp only [State.pageWaiters, h, List.filter_nil]

/-- Settles O51: how host links come up, go down and are reset, and what a translation, a page's answer and an invalidation reach. -/
theorem hostLinkRowsComplete : Obligations.HostLinkRowsComplete := by
  unfold Obligations.HostLinkRowsComplete
  simp only [exec]
  refine ⟨fun s l rate width f hclock hreleased hperst hdown hmode => run_next hclock ?_, fun s l hclock hup => ⟨run_next hclock (if_pos (.inl hup)), run_next hclock (if_pos hup)⟩,
    fun s l => run_eq s (fun s => s.expire (.hostHold l)), fun s l hdown hlines => holdExpired_down hdown hlines, fun s l hclock => run_next hclock rfl, fun s l hclock => run_next hclock rfl,
    fun s l n hclock => run_next hclock rfl, fun s l on alloc hclock => run_next hclock rfl, fun s l pasid page hclock hasked hnone => run_next hclock ?_,
    fun s l pasid page hclock hasked hnone => run_next hclock ?_, fun s l pasid page hclock hnone => run_next hclock ?_⟩
  · rcases hdown with h | h <;> simp only [hreleased, hperst, h, hmode, Bool.not_true, Bool.false_eq_true, reduceCtorEq, or_self, if_false]
  · have hasked : (s.link l).atsReqs.contains (pasid, page) = true := List.contains_iff_mem.mpr hasked
    simp only [hasked, pageWaiters_nil hnone, Bool.not_true, Bool.false_eq_true, if_false, if_true, List.map_nil]
  · have hasked : ((s.link l).pageReqs.take (s.link l).priRoom).contains (pasid, page) = true := List.contains_iff_mem.mpr hasked
    simp only [hasked, pageWaiters_nil hnone, Bool.not_true, Bool.false_eq_true, if_false, List.map_nil]
  · simp only [hnone, List.filter_nil, List.map_nil]

end Sys2Proof.Machine

/-! ### The host window and host lines -/

namespace Sys2Proof.Machine

/-- Settles O52: the commit of a window, its accesses, and the snoops of either side. -/
theorem hostMemoryRowsComplete : Obligations.HostMemoryRowsComplete := by
  unfold Obligations.HostMemoryRowsComplete
  refine ⟨fun s l o hclock hon hwindow hpolicy hprot halign hsize => ?_, fun s l o off len data hclock hcommitted hmem hwindow hin => exec_windowWrite_inside hclock hcommitted hmem hwindow hin,
    fun s s1 l o off len bs bad hclock hcommitted hmem hwindow hin hs1 hread => ?_, fun s l line hclock hfound => ?_, fun s d pasid line h hclock hfound => ?_⟩
  · simp only [exec, execHdmDecoderCommit]
    have hsize : decide (o.size ≤ 2 ^ 39) = true := decide_eq_true hsize
    exact run_next hclock (by simp only [hon, hwindow, hpolicy, hprot, halign, hsize, beq_self_eq_true, Bool.not_false, Bool.and_self, if_true])
  · subst hs1
    exact exec_windowRead_inside hclock hcommitted hmem hwindow hin hread
  · simp only [exec, execBirsp]
    exact run_next hclock (by simp only [hfound, if_true])
  · simp only [exec, execHostSnoop]
    exact ⟨run_next hclock (by simp only [hfound, reduceCtorEq, if_false, if_true]), run_next hclock (by simp only [hfound, reduceCtorEq, if_false])⟩

end Sys2Proof.Machine

/-! ### Riser -/

namespace Sys2Proof.Machine

/-- A remap that changes a column onto a spare binds that column; the row keeps its mapping (R151). -/
theorem execArrayRemapApply_column {s : State} {c : Fin 40} {a : Fin 4} {k : Sys2Proof.Machine.Array} (hclock : s.power.stopped = false) (hidle : (s.core c).run = none) (harray : (s.core c).arrays[a.val]? = some k)
    (hrow : k.retRow = k.nextRow) (hcol : k.retCol ≠ k.nextCol) (hspare : (s.unit (arrUnit 3 c a 64)).state = .spare) :
    execArrayRemapApply c a s = .next (s.after ((s.bind (arrUnit 3 c a k.nextCol) (arrUnit 3 c a 64)).modCore c (fun q =>
      { q with arrays := setAt q.arrays a { k with retRow := k.nextRow, retCol := k.nextCol } }))) := by
  refine run_next hclock ?_
  simp only [hidle, harray, hrow, ne_eq, not_true_eq_false, false_and, Bool.false_eq_true, if_false, hcol, not_false_eq_true, true_and, hspare, if_true]

/-- An acknowledged view that settles is counted, and its unit answers, or goes on to RETIRED (R38, R475). -/
theorem execLocalViewAck_settles {s s2 : State} {u : BitVec 32} {st : UnitState} {g : BitVec 32}
    (hs2 : s2 = { s.modUnit u.toNat (fun r => { r with lstate := st, lgen := g.toNat }) with riser := { (s.modUnit u.toNat (fun r => { r with lstate := st, lgen := g.toNat })).riser with
      viewWrites := (s.modUnit u.toNat (fun r => { r with lstate := st, lgen := g.toNat })).riser.viewWrites.filter (fun w => !(w.1 == u.toNat && laterGen w.2 g.toNat == g.toNat)) } })
    (hbefore : (s.unit u.toNat).settled = false) (hsettles : (s2.unit u.toNat).settled = true) :
    execLocalViewAck u st g s = .next (s.after
      (if (s2.unit u.toNat).state = .retiring ∧ (s2.unit u.toNat).drained = true then ((s2.count .fltRiserStat 0 0 0 32).transit u.toNat .retired 0).event .unitRepair 0xFF u.toNat
       else (s2.count .fltRiserStat 0 0 0 32).answerUnit u.toNat)) := by
  refine runAo_next ?_
  simp only [← hs2, hbefore, hsettles, if_true, Bool.false_eq_true, if_false]

/-- Where no record is quarantined, no unit is. -/
theorem unit_not_quarantined {s : State} (h : ∀ r ∈ s.riser.units, r.state ≠ .quarantined) (u : Nat) : (s.unit u).state ≠ .quarantined := by
  unfold State.unit
  cases hfound : s.riser.units.find? (·.id == u) with
  | some r => exact h r (List.mem_of_find?_eq_some hfound)
  | none =>
    cases unitSpare u with
    | true => simp
    | false => simp

/-- With no unit in quarantine a comparison of views reconciles none (R475, R476). -/
theorem execRiserCompareTimer_compares {s : State} {ok : Bool} (h : ∀ r ∈ s.riser.units, r.state ≠ .quarantined) :
    execRiserCompareTimer ok s = .next (s.after ((insSort id (s.riser.units.map (·.id))).foldl State.compareView s)) := by
  have hnone : (insSort id (s.riser.units.map (·.id))).filter (fun u => (s.unit u).state == .quarantined) = [] :=
    List.filter_eq_nil_iff.mpr fun u _ => by simpa using unit_not_quarantined h u
  refine runAo_next ?_
  simp only [hnone, List.foldl_nil]

theorem execPatrolScrub_corrected {s : State} {ctl : Fin 16} {row : BitVec 64} (hclock : s.power.stopped = false) (hon : s.field .fltScrubCfg 0 0 32 1 = 1) :
    execPatrolScrub ctl (.corrected row) s = .next (s.after (((s.rowAccess row).count .fltScrubStat 0 0 0 32).bucket (if ctl.val < 8 then 0 else 1) (.row row) s.now)) :=
  run_next hclock (by simp only [hon, Nat.one_ne_zero, false_and, if_false])

/-- Settles O53: what each row of Riser does under its conditions. -/
theorem riserRowsComplete : Obligations.RiserRowsComplete := by
  unfold Obligations.RiserRowsComplete
  simp only [exec]
  refine ⟨fun s cls what n => rfl, fun s c a k hclock hidle harray hrow hcol hspare => execArrayRemapApply_column hclock hidle harray hrow hcol hspare,
    fun s s2 u st g hs2 hbefore hsettles => execLocalViewAck_settles hs2 hbefore hsettles, fun s u hlags => runAo_next (if_pos hlags), fun s ok h => execRiserCompareTimer_compares h,
    fun s u hspare => runAo_next (if_pos hspare), fun s ctl row hclock hon => execPatrolScrub_corrected hclock hon, fun s a u g row => rfl, fun s s1 a u g k row r => ⟨rfl, fun hact => ?_⟩⟩
  simp only [State.serveAsk, hact, State.riserReply, if_true]

end Sys2Proof.Machine

/-! ### Engine operations -/

namespace Sys2Proof.Machine

/-- With no snoop and no back-invalidation outstanding, no access of the window waits for a host line (R461). -/
theorem snoopWait_none {s : State} (hsnoop : Unsnooped s) (x addr n : Nat) (write : Bool) : s.snoopWait x addr n write = none := by
  obtain ⟨hsnoop0, hpending0, hsnoop1, hpending1⟩ := hsnoop
  simp only [State.snoopWait, State.link, one_ne_zero, if_true, if_false, hsnoop0, hpending0, hsnoop1, hpending1, List.any_nil, Bool.or_self, List.filter_false, List.isEmpty_nil, and_self, ite_self]

/-- So none of a list of accesses does. -/
theorem snoopAny_none {s : State} (hsnoop : Unsnooped s) (x : Nat) (l : List (Bool × Nat × Nat × Bool)) : s.snoopAny x l = none := by
  simp only [State.snoopAny, List.findSome?_eq_none_iff, snoopWait_none hsnoop, ite_self, implies_true]

section Array

variable {s : State} {c a op len : Nat} {f : Option Residue} {r : Run} {q : Queued} {d : List Byte}

/-- The array operation at its engine's head, its descriptor read and its places held by nothing, runs (R121). -/
theorem arrayRow_go {t : State} (hstart : s.startable c (a + 1) = some (r, q)) (hop : q.op.op.toNat = op) (hdesc : q.descBeyond len = false) (hread : (s.begin c (a + 1) q).opDesc c q len 5 = .ok d)
    (htry : (s.begin c (a + 1) q).tryArray c a op f false q.loops q.op.desc.toNat d = .go t) : s.arrayRow c a op len f = t.feedVec c := by
  simp only [State.arrayRow, hstart, hop, hdesc, hread, htry, ne_eq, not_true_eq_false, Bool.false_eq_true, if_false]

/-- A tile or a convolution whose places no provisional data holds. -/
theorem tryArray_tile {loops : List Nat} {desc : Nat} (hop : op ≠ 3) (hheld : s.provHeld none ((tileDesc (op == 2) d loops).places c false) = false) :
    s.tryArray c a op f false loops desc d = .go (s.runTile c a (op == 2) f false loops desc d) := by
  simp only [State.tryArray, hop, if_false, hheld, Bool.false_eq_true]

/-- A drain whose places no provisional data holds. -/
theorem tryArray_drain {loops : List Nat} {desc : Nat} (hheld : s.provHeld none ((drainDesc d loops).places c true) = false) :
    s.tryArray c a 3 f false loops desc d = .go (s.runDrain c a f false loops desc d) := by
  simp only [State.tryArray, if_true, hheld, Bool.false_eq_true, if_false]

end Array

/-- A vector operation whose descriptor stands and whose places no provisional data holds runs (R148). -/
theorem execVec_runs {s : State} {c : Fin 40} {r : Run} {q : Queued} {d : List Byte} (hclock : s.power.stopped = false) (hstart : s.startable c 5 = some (r, q)) (hdesc : q.descBeyond 64 = false)
    (hread : (s.begin c 5 q).opDesc c q 64 6 = .ok d) (herrors : vecErrors d (vecDesc d q.loops q.op.imm.toNat) = none)
    (hheld : (s.begin c 5 q).provHeld none ((vecDesc d q.loops q.op.imm.toNat).places c) = false) :
    execVec c s = .next (s.after (((s.begin c 5 q).modRun c (fun r => { r with vec := some { desc := d, loops := q.loops, imm := q.op.imm.toNat } })).feedVec c)) :=
  run_next hclock (by simp only [hstart, hdesc, hread, herrors, hheld, Bool.false_eq_true, if_false])

/-- A stream operation whose descriptor stands opens its stream and marks its engine as streaming (R189). -/
theorem streamOp_opens {s : State} {c e : Nat} {r : Run} {q : Queued} {d : List Byte} {k : Running} (hstart : s.startable c e = some (r, q)) (hdesc : q.descBeyond 192 = false)
    (hread : (s.begin c e q).opDesc c q 192 1 = .ok d) (hgood : streamBad e d (streamDesc d q.loops) = none) (hplain : (streamDesc d q.loops).cmp % 4 = 0)
    (hcmd : (s.begin c e q).cmd? ((((s.begin c e q).coreWork c).map (·.1)).getD 0) = some k) :
    s.streamOp c e = ((s.begin c e q).modRun c (fun r => r.setEngine e { r.engine e with streaming := true })).openStream
        { (streamDesc d q.loops).stream (.engine c e) ((((s.begin c e q).coreWork c).map (·.1)).getD 0) (some c) e r.logical ((s.begin c e q).tensorOf c e)
            ((((s.begin c e q).launch? r.launch).map (·.dense)).getD 0)
            ((s.begin c e q).share (streamDesc d q.loops) { ((s.begin c e q).endsOf k c) with ctx := r.ctx } 0 0 ((streamDesc d q.loops).count 0)) with descOff := some q.op.desc.toNat } := by
  simp only [State.streamOp, hstart, hdesc, hread, hgood, hcmd, hplain, ne_eq, not_true_eq_false, false_and, Bool.false_eq_true, if_false]

/-- A gather operation whose descriptor is read and that waits for nothing does its work. -/
theorem gatherRow_go {s t : State} {c op n : Nat} {f : State → Run → Queued → List Byte → Attempt} {r : Run} {q : Queued} {d : List Byte} (hop : s.gatherOp c op n = some (r, q, .ok d))
    (htry : f (s.begin c 8 q) r q d = .go t) : s.gatherRow c op n f = t := by
  simp only [State.gatherRow, hop, htry]

/-- What no far page of the pieces has, none of the list that an add back looks at has (R270). -/
theorem farPieces_any {s : State} {cx : Nat} {l : List (Nat × Nat)} {f : Obj × Page → Bool} (hfar : ∀ p ∈ l, ∀ o, s.pageAt cx p.1 = some o → o.2.tier = .t3 → f o = false) :
    (l.filterMap (fun p => (s.pageAt cx p.1).bind (fun o => if o.2.tier = .t3 then some o else none))).any f = false := by
  refine List.any_eq_false.mpr fun o ho => ?_
  obtain ⟨p, hp, hpage⟩ := List.mem_filterMap.mp ho
  obtain ⟨_, hat, hif⟩ := Option.bind_eq_some_iff.mp hpage
  split at hif
  case isTrue htier =>
    obtain rfl := Option.some.inj hif
    simp only [hfar p hp _ hat htier, Bool.false_eq_true, not_false_eq_true]
  case isFalse => nomatch hif

section Gather

variable {s : State} {c cx : Nat} {d : List Byte} (hsnoop : Unsnooped s)
include hsnoop

/-- A ladle operation that nothing holds (R255). -/
theorem tryLadle_go {f : Option Nat} (herrors : s.ladleErrors cx d (ladleDesc d) = none) (hheld : s.provHeld none ((ladleDesc d).places c cx) = false) :
    s.tryLadle c cx f false d = .go (s.runLadle c cx (ladleDesc d) f false) := by
  simp only [State.tryLadle, herrors, hheld, Bool.false_eq_true, if_false]
  split
  case h_1 s1 hwait =>
    obtain ⟨p, -, hp⟩ := List.exists_of_findSome?_eq_some hwait
    split at hp
    · rw [snoopWait_none hsnoop] at hp; nomatch hp
    · nomatch hp
  case h_2 => trivial

/-- An add back from a core that nothing holds and whose staging takes every granule (R270). -/
theorem tryMadd_go {u e n : Nat} {t : State} (hn : n = fld d 12 4 * addEs (fld d 16 1)) (herrors : maddErrors d = none) (hmapped : s.unmapped cx (fld d 0 8) n = none)
    (hfar : ∀ p ∈ pieces (fld d 0 8) n, ∀ o, s.pageAt cx p.1 = some o → o.2.tier = .t3 → o.1.prot = false ∧ (s.farPort o.2.place).isSome = true)
    (hheld : s.provHeld none [(.core c (fld d 8 4), n), (.dev cx (fld d 0 8), n)] = false) (hwork : s.coreWork c = some (u, e))
    (hadd : ((s.digestCore c 8 11 ((s.core c).store.read (fld d 8 4) n)).translate (some c) cx (fld d 0 8) n).maddAll c u cx (fld d 16 1) (s.coreChill c)
      (maddGranules (s.core c) (fld d 0 8) (fld d 8 4) (fld d 12 4) (fld d 16 1)) = .ok t) :
    s.tryMadd c cx d = .go t := by
  subst hn
  have hprot := farPieces_any (s := s) (cx := cx) (f := fun o => o.1.prot) fun p hp o hpage htier => (hfar p hp o hpage htier).1
  have hport := farPieces_any (s := s) (cx := cx) (f := fun o => (s.farPort o.2.place).isNone) fun p hp o hpage htier => Option.isNone_eq_false_iff.mpr (hfar p hp o hpage htier).2
  simp only [State.tryMadd, herrors, hmapped, hprot, hport, hheld, snoopWait_none hsnoop, hwork, hadd, Option.map_some, Option.getD_some, Bool.false_eq_true, or_self, if_false]

section Table

variable {lcore desc sparse : Nat} {owner : Owner} {uid : Nat} {tbl : Table}

/-- A lookup whose places nothing holds starts (R311). -/
theorem tryLookup_go {t : State} (hoffs : s.provHeld none ((embDesc d).offsAt 1 c cx 0 (embDesc d).bags) = false) (herrors : s.embErrors 1 c cx d false = none)
    (htable : s.table? cx (embDesc d).tset (embDesc d).table = some tbl) (hyarrow : s.yarrowWaits cx (embDesc d).tset (embDesc d).table = false)
    (hheld : s.provHeld none (s.embPlaces (embDesc d) tbl 1 c cx 0 (embDesc d).bags) = false)
    (hlookup : (s.streamingOn owner).startLookup owner uid c lcore cx d 0 (embDesc d).bags sparse = .ok t) :
    s.tryLookup owner uid c lcore cx sparse desc d = .go t := by
  simp only [State.tryLookup, hoffs, herrors, htable, hyarrow, hheld, snoopAny_none hsnoop, hlookup, Bool.false_eq_true, or_self, if_false]

/-- An update whose places nothing holds runs; it streams while adds of its own are outstanding (R317). -/
theorem tryUpdate_go {index : Nat} {p : Nat} {cs : List Contribution} {t : State} (hp : p = ((s.ctx? cx).map (·.part)).getD 0)
    (hoffs : s.provHeld none ((embDesc d).offsAt 2 c cx 0 (embDesc d).bags) = false) (herrors : s.embErrors 2 c cx d (s.coreChill c || (embDesc d).coalesce) = none)
    (htable : s.table? cx (embDesc d).tset (embDesc d).table = some tbl) (hyarrow : s.yarrowWaits cx (embDesc d).tset (embDesc d).table = false)
    (hheld : s.provHeld none (s.embPlaces (embDesc d) tbl 2 c cx 0 (embDesc d).bags) = false)
    (hmapped : firstUnmapped s cx ([dataRange 2 (embDesc d) tbl.width 0 (embDesc d).bags] ++
      (if s.coreChill c = true ∨ (embDesc d).coalesce = true then [(true, (embDesc d).scratch, (embDesc d).scratchBytes)] else [])) = none)
    (hids : s.idsUnmapped c cx (embDesc d) 2 0 (embDesc d).bags = none) (hcs : cs = s.contributions c cx (embDesc d) tbl 0 (embDesc d).bags)
    (hrows : firstUnmapped s cx (cs.map (fun k => (true, s.authority p cx (tbl.rowAddr k.row), rowLen tbl.width tbl.bits))) = none) (hprot : s.farProtected p cx tbl cs = false)
    (hscratch : s.coreChill c = true → entryBytes tbl.width * (distinct (cs.map (fun k => k.row))).length ≤ (embDesc d).scratchBytes)
    (ht : t = (s.streamingOn owner).runUpdate owner uid c lcore index cx d tbl 0 (embDesc d).bags (embDesc d).scratchBytes (s.coreStep c) sparse (s.coreChill c) cs) :
    s.tryUpdate owner uid c lcore cx index sparse desc d =
      .go (if t.embed.adds.any (fun r => r.owner == some owner && r.core == some c) then t else t.streamingOff owner) := by
  subst hp hcs ht
  have hfits : ¬(s.coreChill c = true ∧ (embDesc d).scratchBytes <
      entryBytes tbl.width * (distinct ((s.contributions c cx (embDesc d) tbl 0 (embDesc d).bags).map (fun k => k.row))).length) :=
    fun ⟨hchill, hlt⟩ => absurd (hscratch hchill) (Nat.not_le.mpr hlt)
  simp only [State.tryUpdate, hoffs, herrors, htable, hyarrow, hheld, hmapped, hids, hrows, hprot, hfits, snoopAny_none hsnoop, Bool.false_eq_true, or_self, if_false]

/-- A hash operation whose places nothing holds writes the hash of each id, and the pad id for the pad id (R308). -/
theorem tryHash_go (herrors : s.embErrors 3 c cx d false = none) (htable : s.table? cx (embDesc d).tset (embDesc d).table = some tbl)
    (hheld : s.provHeld none (s.embPlaces (embDesc d) tbl 3 c cx 0 (embDesc d).bags) = false)
    (hready : s.outReady cx ((embDesc d).dataDev, (embDesc d).data, 8 * (embDesc d).bags) = true)
    (hmapped : firstUnmapped s cx [((embDesc d).dev, (embDesc d).ids, 8 * (embDesc d).bags), ((embDesc d).dataDev, (embDesc d).data, 8 * (embDesc d).bags)] = none) :
    s.tryHash c cx desc d = .go (((List.range (embDesc d).bags).map (fun j => s.embRead c cx (embDesc d).dev ((embDesc d).ids + 8 * j) 8)).zipIdx.foldl (fun st p =>
      let st1 := (st.embWrite 0 0 c cx (embDesc d).dataDev ((embDesc d).data + 8 * p.2) (toLe 8 (if leNat p.1.1 = padId then padId else tbl.hash (leNat p.1.1))) p.1.2).1
      if p.1.2 then st1.taintCore c 0xB (coreUnit c) else st1) (s.embAccess c (s.idsAt (embDesc d) 3 c cx 0 (embDesc d).bags))) := by
  simp only [State.tryHash, herrors, htable, hheld, hready, hmapped, snoopAny_none hsnoop, Bool.not_true, Bool.false_eq_true, or_self, if_false]

end Table

end Gather

/-- Settles O43: at its engine's head, with its descriptor read and nothing that holds it, each engine operation does its work. -/
theorem engineRowsComplete : Obligations.EngineRowsComplete := by
  unfold Obligations.EngineRowsComplete
  simp only [exec]
  refine ⟨?tile, ?conv, ?drain, ?vec, ?stream, ?ladle, ?madd, ?lookup, ?update, ?hash⟩
  case tile =>
    intro s c a f r q d hclock hstart hop hdesc hread _ hheld
    exact run_next hclock (arrayRow_go hstart (by rw [hop]; rfl) hdesc hread (tryArray_tile (by decide) hheld))
  case conv =>
    intro s c a f r q d hclock hstart hop hdesc hread _ hheld
    exact run_next hclock (arrayRow_go hstart (by rw [hop]; rfl) hdesc hread (tryArray_tile (by decide) hheld))
  case drain =>
    intro s c a f r q d hclock hstart hop hdesc hread _ hheld
    exact run_next hclock (arrayRow_go hstart (by rw [hop]; rfl) hdesc hread (tryArray_drain hheld))
  case vec =>
    rintro s _ c r q d _ hclock hstart hdesc rfl hread rfl herrors hheld
    exact execVec_runs hclock hstart hdesc hread herrors hheld
  case stream =>
    rintro s c out r q _ d k hclock rfl hstart hdesc hread hgood hplain hcmd
    exact run_next hclock (streamOp_opens hstart hdesc hread hgood hplain hcmd)
  case ladle =>
    rintro s _ c f r q d hclock hop rfl hsnoop herrors hheld
    exact run_next hclock (gatherRow_go hop (tryLadle_go hsnoop herrors hheld))
  case madd =>
    rintro s _ s2 c r q d u e n hclock hop rfl hsnoop hn herrors hmapped hfar hheld hwork hadd
    exact run_next hclock (gatherRow_go hop (tryMadd_go hsnoop hn herrors hmapped hfar hheld hwork hadd))
  case lookup =>
    rintro s _ s2 c r q d _ tbl hclock hop rfl rfl hsnoop hoffs herrors htable hyarrow hheld hlookup
    exact run_next hclock (gatherRow_go hop (tryLookup_go hsnoop hoffs herrors htable hyarrow hheld hlookup))
  case update =>
    rintro s _ s2 c r q d _ tbl p cs hclock hop rfl rfl hp hsnoop hoffs herrors htable hyarrow hheld hmapped hids hcs hrows hprot hscratch hs2
    exact run_next hclock (gatherRow_go hop (tryUpdate_go hsnoop hp hoffs herrors htable hyarrow hheld hmapped hids hcs hrows hprot hscratch hs2))
  case hash =>
    rintro s _ c r q d _ tbl hclock hop rfl rfl hsnoop herrors htable hheld hready hmapped
    exact run_next hclock (gatherRow_go hop (tryHash_go hsnoop herrors htable hheld hready hmapped))

end Sys2Proof.Machine

/-! ### The slow tick under the operations of memories, ports and commands -/

namespace Sys2Proof.Machine

@[simp] theorem State.event_now (s : State) (k : EventKind) (part unit : Nat) (data : List Byte) : (s.event k part unit data).now = s.now := by
  unfold State.event; rfl

@[simp] theorem State.modCruJob_now (s : State) (uid : Nat) (f : CruJob → CruJob) : (s.modCruJob uid f).now = s.now := by simp only [State.modCruJob]

@[simp] theorem State.modCampion_now (s : State) (j : Nat) (f : Campion → Campion) : (s.modCampion j f).now = s.now := by simp only [State.modCampion]

@[simp] theorem State.modColl_now (s : State) (uid : Nat) (f : Coll → Coll) : (s.modColl uid f).now = s.now := by simp only [State.modColl]

@[simp] theorem State.digestWrite_now (s : State) (uid tensor lcore engine : Nat) (bs : List Byte) (key : Nat) : (s.digestWrite uid tensor lcore engine bs key).now = s.now := by
  unfold State.digestWrite; dsimp only; split
  · split_ifs <;> rfl
  · rfl

@[simp] theorem State.vaWrite_now (s : State) (x addr : Nat) (bs : List Byte) (poison : Bool) : (s.vaWrite x addr bs poison).now = s.now := by
  refine foldl_keeps State.now (fun st p => ?_) _ s
  cases st.objAt x p.1 with
  | none => rfl
  | some o => cases poison <;> simp

@[simp] theorem State.vaTouch_now (s : State) (x addr n : Nat) : (s.vaTouch x addr n).now = s.now := by
  refine foldl_keeps State.now (fun st p => ?_) _ s
  cases st.objAt x p.1 <;> rfl

@[simp] theorem State.vaMarkFrom_now (s old : State) (x addr n : Nat) : (s.vaMarkFrom old x addr n).now = s.now := by
  refine foldl_keeps State.now (fun st p => ?_) _ s
  cases st.objAt x p.1 <;> simp

@[simp] theorem State.storeWrite_now (s : State) (c off : Nat) (bs : List Byte) (poison : Bool) : (s.storeWrite c off bs poison).now = s.now := by
  unfold State.storeWrite; cases poison <;> simp

@[simp] theorem State.storeMarkFrom_now (s old : State) (c off n : Nat) : (s.storeMarkFrom old c off n).now = s.now := by simp [State.storeMarkFrom]

/-! #### Host memory and host lines -/

@[simp] theorem State.setHostMem_now (s : State) (pasid : Option (BitVec 20)) (m : Mem) : (s.setHostMem pasid m).now = s.now := rfl

@[simp] theorem State.hostPost_now (s : State) (l : Nat) (pasid : Option (BitVec 20)) (addr : Nat) (bs : List Byte) (poison : Bool) (by_ : Option QueueId) :
    (s.hostPost l pasid addr bs poison by_).now = s.now := by
  unfold State.hostPost; split <;> simp

@[simp] theorem State.writeBack_now (s : State) (p : HlcLine → Bool) : (s.writeBack p).now = s.now :=
  foldl_keeps State.now (fun _ _ => State.hostPost_now ..) _ _

@[simp] theorem State.dropLines_now (s : State) (p : HlcLine → Bool) : (s.dropLines p).now = s.now := State.writeBack_now s p

@[simp] theorem State.keepLine_now (s : State) (h : HlcLine) : (s.keepLine h).now = s.now := by
  unfold State.keepLine; dsimp only; split <;> simp

@[simp] theorem State.lookLine_now (s : State) (l : Nat) (pasid : Option (BitVec 20)) (line : Nat) : (s.lookLine l pasid line).now = s.now := by simp [State.lookLine]

@[simp] theorem State.hostLine_now (s : State) (l : Nat) (pasid : Option (BitVec 20)) (uid addr : Nat) (bs : List Byte) (poison : Bool) : (s.hostLine l pasid uid addr bs poison).now = s.now := by
  unfold State.hostLine; dsimp only; split_ifs <;> simp

@[simp] theorem State.askPage_now (s : State) (l : Nat) (pas : Option (BitVec 20)) (g : Nat) : (s.askPage l pas g).now = s.now := by
  unfold State.askPage; dsimp only; split_ifs <;> simp

@[simp] theorem State.writePlace_now (s : State) (uid : Nat) (p : Place) (bs : List (Byte × Bool)) : (s.writePlace uid p bs).now = s.now := by
  unfold State.writePlace
  cases p with
  | core c off => exact (foldl_keeps State.now (fun _ _ => State.storeMarkFrom_now ..) _ _).trans (State.storeWrite_now ..)
  | dev x a => exact (foldl_keeps State.now (fun _ _ => State.vaMarkFrom_now ..) _ _).trans (State.vaWrite_now ..)
  | host l q a => exact foldl_keeps State.now (fun st i => by dsimp only; split_ifs <;> simp) _ s
  | pattern _ => rfl

/-! #### Packets -/

@[simp] theorem State.transmit_now (s : State) (k : Nat) (o : OutPkt) : (s.transmit k o).now = s.now := by
  unfold State.transmit; dsimp only; split_ifs <;> simp

@[simp] theorem State.sendPacket_now (s : State) (k ptype part uid : Nat) (payload : List Byte) (xo chill : Bool) : (s.sendPacket k ptype part uid payload xo chill).now = s.now := by
  unfold State.sendPacket; dsimp only; split <;> simp

theorem State.sendNext_now {s t : State} {dir ptype part uid : Nat} {payload : List Byte} {chill : Bool} (h : s.sendNext dir ptype part uid payload chill = some t) : t.now = s.now := by
  obtain ⟨k, -, rfl⟩ := Option.map_eq_some_iff.mp h
  simp

@[simp] theorem State.sendAck_now (s : State) (k : Nat) (pkt : FabPacket) (status : Nat) (cache : Bool) : (s.sendAck k pkt status cache).now = s.now := by
  unfold State.sendAck; dsimp only; split_ifs <;> simp

@[simp] theorem State.takePacket_now (s : State) (k : Nat) (f : List Byte → Bool) : (s.takePacket k f).now = s.now := by
  unfold State.takePacket; split <;> simp

@[simp] theorem State.dropReport_now (s : State) (k : Nat) : (s.dropReport k).now = s.now := by simp [State.dropReport]

@[simp] theorem State.admitPacket_now (s : State) (k ptype : Nat) (pkt : FabPacket) : (s.admitPacket k ptype pkt).1.now = s.now := by
  unfold State.admitPacket; dsimp only
  split_ifs
  · simp
  · simp
  · split <;> simp
  · simp

/-! #### Commands that end -/

@[simp] theorem State.endLaunch_now (s : State) (n : Nat) : (s.endLaunch n).now = s.now := rfl

@[simp] theorem State.settleInv_now (s : State) : s.settleInv.now = s.now := by
  unfold State.settleInv; dsimp only; split <;> rfl

@[simp] theorem State.killWork_now (s : State) (uid : Nat) : (s.killWork uid).now = s.now :=
  (State.settleInv_now _).trans (foldl_keeps State.now State.endLaunch_now _ s)

@[simp] theorem State.failCmd_now (s : State) (uid : Nat) (r : Reply) : (s.failCmd uid r).now = s.now := by
  unfold State.failCmd; split <;> simp

/-! #### The far tier -/

@[simp] theorem State.farOut_now (s : State) (f : Far) : (s.farOut f).now = s.now := by simp [State.farOut, State.memFlits]

theorem State.sendFar_now {s t : State} {op uid group addr granules : Nat} {use : FarUse} {payload : List Byte} {chill : Bool}
    (h : s.sendFar op use uid group addr granules payload chill = some t) : t.now = s.now := by
  unfold State.sendFar at h
  split at h
  · nomatch h
  · obtain rfl := Option.some.inj h
    split_ifs <;> simp

end Sys2Proof.Machine

/-! ### The slow tick under the far tier and the Crucible -/

namespace Sys2Proof.Machine

/-- The state of an answer, where there is one, has the slow tick of `s`. -/
def SameNow (s : State) (o : Option (State × Nat)) : Prop := ∀ t n, o = some (t, n) → t.now = s.now

theorem sameNow_none (s : State) : SameNow s none := fun _ _ h => nomatch h

theorem sameNow_some {s t : State} {n : Nat} (h : t.now = s.now) : SameNow s (some (t, n)) := by
  rintro _ _ ⟨⟩
  exact h

/-- A request sent from a state that has the slow tick of `s`. -/
theorem sameNow_sendFar {s t : State} {op uid group addr granules n : Nat} {use : FarUse} {payload : List Byte} {chill : Bool} (h : t.now = s.now) :
    SameNow s ((t.sendFar op use uid group addr granules payload chill).map (fun st => (st, n))) := by
  intro t' n' hsome
  obtain ⟨st, hsend, heq⟩ := Option.map_eq_some_iff.mp hsome
  obtain ⟨rfl, -⟩ := Prod.mk.inj heq
  exact (State.sendFar_now hsend).trans h

/-- A loop that sends the granules of a write. -/
theorem sameNow_foldl {α : Type} {s : State} {f : Option (State × Nat) → α → Option (State × Nat)} (l : List α) {o : Option (State × Nat)} (ho : SameNow s o)
    (hf : ∀ o x, SameNow s o → SameNow s (f o x)) : SameNow s (l.foldl f o) :=
  List.foldlRecOn l f ho fun o ho x _ => hf o x ho

theorem now_of_foldl {α : Type} {s t : State} {n : Nat} {f : Option (State × Nat) → α → Option (State × Nat)} {l : List α} {o : Option (State × Nat)} (h : l.foldl f o = some (t, n))
    (ho : SameNow s o) (hf : ∀ o x, SameNow s o → SameNow s (f o x)) : t.now = s.now :=
  sameNow_foldl l ho hf t n h

theorem State.farWrite_now (s : State) (use : FarUse) (uid : Nat) (p : Page) (off : Nat) (bs : List Byte) (chill : Bool) : SameNow s (s.farWrite use uid p off bs chill) := by
  unfold State.farWrite
  refine sameNow_foldl _ (sameNow_foldl _ (sameNow_some rfl) fun o ch ho => ?_) fun o i ho => ?_
  · dsimp only
    split
    · exact sameNow_sendFar (ho _ _ rfl)
    · exact ho
  · dsimp only
    split
    · exact sameNow_sendFar (ho _ _ rfl)
    · exact sameNow_none s

theorem State.cruAsk_now (s : State) (uid x addr n : Nat) (chill : Bool) : SameNow s (s.cruAsk uid x addr n chill) := by
  unfold State.cruAsk
  split
  · split
    · exact sameNow_some rfl
    · exact sameNow_sendFar rfl
  · exact sameNow_some rfl

@[simp] theorem State.cruWrites_now (s : State) (uid x gid gi : Nat) (ws : List (Nat × List Byte)) (chill : Bool) : (s.cruWrites uid x gid gi ws chill).1.now = s.now := by
  refine foldl_keeps (fun acc : State × Nat × Bool => acc.1.now) (fun acc w => ?_) ws (s, 0, false)
  split
  · split
    · split
      · next hwrite => exact (State.vaTouch_now ..).trans (State.farWrite_now _ _ _ _ _ _ _ _ _ hwrite)
      · rfl
    · simp
  · rfl

@[simp] theorem State.cruRemote_now (s : State) (q : CruJob) (k : Nat) (addrs : List Nat) : (s.cruRemote q k addrs).now = s.now := by
  refine foldl_keeps State.now (fun st a => ?_) _ s
  split
  · dsimp only; split <;> simp
  · rfl

@[simp] theorem State.cruLeave_now (s : State) (q : CruJob) (k gi unit : Nat) : (s.cruLeave q k gi unit).now = s.now := by simp [State.cruLeave]

@[simp] theorem State.arrive_now (s : State) (q : CruJob) (gi : Nat) : (s.arrive q gi).now = s.now := by
  unfold State.arrive; split
  · rfl
  · dsimp only; split <;> simp

@[simp] theorem State.closeBlock_now (s : State) (x id b step : Nat) (h : Hyper) : (s.closeBlock x id b step h).now = s.now := by
  unfold State.closeBlock; split
  · rfl
  · simp

@[simp] theorem State.blockStats_now (s : State) (x id gi step : Nat) (h : Hyper) (qs : List (BitVec 32)) : (s.blockStats x id gi step h qs).now = s.now := by
  unfold State.blockStats; split
  · rfl
  · dsimp only; split_ifs <;> simp

@[simp] theorem State.closeSpans_now (s : State) (uid : Nat) (open_ : Span → Bool) : (s.closeSpans uid open_).now = s.now := by
  unfold State.closeSpans; split
  · rfl
  · split <;> rfl

@[simp] theorem State.endCru_now (s : State) (uid : Nat) (r : Reply) : (s.endCru uid r).now = s.now := by
  unfold State.endCru; split
  · rfl
  · split
    · split_ifs <;> simp
    · rfl

@[simp] theorem State.sawCanonical_now (s : State) (g : Group) (uid block : Nat) (state : Bool) (first count : Nat) : (s.sawCanonical g uid block state first count).now = s.now := by
  have htouched (rs : List (Nat × Nat)) : (rs.foldl (fun (st : State) r => st.vaTouch g.ctx r.1 r.2) s).now = s.now := foldl_keeps State.now (fun _ _ => State.vaTouch_now ..) _ s
  unfold State.sawCanonical; dsimp only
  split <;> simp [htouched]

@[simp] theorem State.judgeCheck_now (s : State) (d : DigestCheck) : (s.judgeCheck d).now = s.now := by
  unfold State.judgeCheck
  split_ifs
  · rfl
  · simp
  · dsimp only
    split
    · split <;> simp
    · simp

@[simp] theorem State.beginCheck_now (s : State) (q : CruJob) (g : Group) (step : Nat) : (s.beginCheck q g step).now = s.now := by
  unfold State.beginCheck
  refine (State.judgeCheck_now ..).trans ((foldl_keeps State.now (fun st a => ?_) _ _).trans (by simp))
  split
  · next hsend => exact State.sendNext_now hsend
  · simp

/-- The state that a try to emit a frame leaves, from `s`. -/
def Emit.state (s : State) : Emit → State
  | .full => s
  | .waits t => t
  | .done t => t

theorem sameNow_rawFar {s t : State} {use : FarUse} {uid group addr n : Nat} {bs : List Byte} (h : t.now = s.now) :
    SameNow s ((t.rawFar use uid group addr bs).map (fun r => (r.1, n + r.2))) := by
  intro t' n' hsome
  obtain ⟨r, hwrite, heq⟩ := Option.map_eq_some_iff.mp hsome
  obtain ⟨rfl, -⟩ := Prod.mk.inj heq
  exact (State.farWrite_now _ _ _ _ _ _ _ _ _ hwrite).trans h

@[simp] theorem State.emit_now (s : State) (uid : Nat) (k : Campion) (f : List Byte) : ((s.emit uid k f).state s).now = s.now := by
  unfold State.emit; dsimp only
  split
  · rfl
  split
  · split
    · next hsent =>
      have hpieces := now_of_foldl hsent (sameNow_some rfl) fun o p ho => by
        split
        · exact sameNow_rawFar (ho _ _ rfl)
        · exact sameNow_none s
      simpa [Emit.state] using hpieces
    · rfl
  · split
    · simp [Emit.state]
    · have hposted (pas : Option (BitVec 20)) (ps : List (Nat × List Byte)) : (ps.foldl (fun st p => st.hostPost k.link pas p.1 p.2) s).now = s.now :=
        foldl_keeps State.now (fun _ _ => State.hostPost_now ..) _ s
      split <;> simp [Emit.state, hposted]

/-- The state that a move of a command on a group leaves. -/
def CruMove.state : CruMove → State
  | .stop t => t
  | .go t => t

@[simp] theorem CruMove.state_stop (t : State) : (CruMove.stop t).state = t := rfl
@[simp] theorem CruMove.state_go (t : State) : (CruMove.go t).state = t := rfl

@[simp] theorem State.cruRewrite_now (s : State) (q : CruJob) (e : LogEntry) : (s.cruRewrite q e).state.now = s.now := by
  unfold State.cruRewrite; dsimp only; split_ifs <;> simp

theorem ite_now {c : Prop} [Decidable c] {t u : State} {n : Nat} (ht : t.now = n) (hu : u.now = n) : (if c then t else u).now = n := by
  split
  · exact ht
  · exact hu

@[simp] theorem State.cruApplyOne_now (s : State) (q : CruJob) (g : Group) (grad : List Byte × Bool) (due : List Nat) : (s.cruApplyOne q g grad due).now = s.now := by
  unfold State.cruApplyOne
  extract_lets gi k _ _ x _ _ _ pa _ _ _ _ _ _ _ _ _ _ _ _ _ _ badAddr
  rename_i read s0 w entry _ _ s1 s2 s3 s4 kept held s5 s6 top carry s7 s8
  have hread : read.now = s.now := foldl_keeps State.now (fun _ _ => State.vaTouch_now ..) _ s
  have h0 : s0.now = s.now := ite_now ((State.cruRemote_now ..).trans hread) hread
  have hwrites : w.1.now = s.now := (State.cruWrites_now ..).trans h0
  have h1 : s1.now = s.now := ite_now hwrites hwrites
  have h2 : s2.now = s.now := by simp [s2, h1]
  have h3 : s3.now = s.now := ite_now h2 ((State.countK_now ..).trans h2)
  have h4 : s4.now = s.now := (foldl_keeps State.now (fun _ _ => State.digestWrite_now ..) _ _).trans h3
  have h6 : s6.now = s.now := (foldl_keeps State.now (fun _ _ => State.blockStats_now ..) _ _).trans h4
  have h7 : s7.now = s.now := by
    rcases hcarry : carry with _ | c
    · simpa only [s7, hcarry] using h6
    · simp only [s7, hcarry]
      exact ite_now h6 h6
  have h8 : s8.now = s.now := ite_now h7 ((State.arrive_now ..).trans h7)
  rcases hbad : badAddr with _ | a
  · have hresidue : ((s.cruLeave q k gi (s.vaUnit x pa)).event .crucibleResidue g.part k (toLe 4 g.id ++ toLe 8 gi)).now = s.now := by simp
    exact ite_now hresidue h8
  · exact State.cruLeave_now ..

theorem CruMove.ite_now {c : Prop} [Decidable c] {a b : CruMove} {n : Nat} (ha : a.state.now = n) (hb : b.state.now = n) : (if c then a else b).state.now = n := by
  split
  · exact ha
  · exact hb

@[simp] theorem State.cruMove_now (s : State) (q : CruJob) : (s.cruMove q).state.now = s.now := by
  unfold State.cruMove
  split
  · simp
  · split
    · simp
    · next k _ =>
      have hemit := State.emit_now s q.uid k
      split
      · simp
      · split
        · next hout => simpa [Emit.state] using (congrArg (fun e => (Emit.state s e).now) hout).symm.trans (hemit _)
        · next hout => exact (congrArg (fun e => (Emit.state s e).now) hout).symm.trans (hemit _)
        · exact ite_now rfl (by simp)
  · refine CruMove.ite_now rfl (CruMove.ite_now (by simp) (CruMove.ite_now (CruMove.ite_now (by simp) ?_) ?_))
    · split
      · simp
      · exact CruMove.ite_now (by simp) (by simp)
    extract_lets _ _ _ _ _ _ _ grad
    refine CruMove.ite_now (by simp) ?_
    clear_value grad
    split
    · simp
    refine CruMove.ite_now (by simp) ?_
    rcases grad with _ | gr
    · exact CruMove.ite_now (by simp) rfl
    refine CruMove.ite_now (by simp) (CruMove.ite_now ?_ (CruMove.ite_now rfl (CruMove.ite_now ?_ (by simp))))
    · split
      · rfl
      · next hask1 =>
        have h1 := State.cruAsk_now _ _ _ _ _ _ _ _ hask1
        split
        · rfl
        · next hask2 =>
          have h2 := (State.cruAsk_now _ _ _ _ _ _ _ _ hask2).trans h1
          exact CruMove.ite_now (by simpa using h2) (by simpa using h2)
    · exact ite_now rfl (by simp)

@[simp] theorem State.cruRun_now (uid n : Nat) (s : State) : (State.cruRun uid n s).now = s.now := by
  induction n generalizing s with
  | zero => rfl
  | succ n ih =>
    unfold State.cruRun
    split
    · rfl
    · next q _ =>
      have hmove := State.cruMove_now s q
      split
      · next hout => exact (congrArg (fun m => m.state.now) hout).symm.trans hmove
      · next hout => exact (ih _).trans ((congrArg (fun m => m.state.now) hout).symm.trans hmove)

@[simp] theorem State.cruPump_now (s : State) (uid : Nat) : (s.cruPump uid).now = s.now := by
  unfold State.cruPump; split <;> simp

theorem State.cruAcks_now (s : State) (uid : Nat) {ack : State → Nat → FabPacket → State} (hack : ∀ t k p, (ack t k p).now = t.now) : (s.cruAcks uid ack).now = s.now := by
  unfold State.cruAcks
  split
  · rfl
  · exact (foldl_keeps State.now (fun _ _ => hack ..) _ _).trans (State.modCruJob_now ..)

end Sys2Proof.Machine

/-! ### The slow tick under the collectives -/

namespace Sys2Proof.Machine

@[simp] theorem State.collLogged_now (s : State) (uid : Nat) : (s.collLogged uid).now = s.now :=
  (State.cruAcks_now _ _ fun _ _ _ => State.sendAck_now ..).trans (State.cruPump_now ..)

@[simp] theorem State.collTaint_now (s : State) (uid : Nat) (bs : List (Byte × Bool)) : (s.collTaint uid bs).now = s.now := by
  unfold State.collTaint; split <;> simp

@[simp] theorem State.collProgress_now (s : State) (uid : Nat) : (s.collProgress uid).now = s.now := by
  unfold State.collProgress
  split
  · rfl
  · exact ite_now rfl (State.modCmd_now ..)

@[simp] theorem State.collPut_now (s : State) (uid chunk off : Nat) (bs : List (Byte × Bool)) : (s.collPut uid chunk off bs).now = s.now := by
  unfold State.collPut
  split
  · rfl
  · dsimp only; split_ifs <;> simp

@[simp] theorem State.collSend_now (s : State) (uid chunk off : Nat) (bs : List Byte) : (s.collSend uid chunk off bs).now = s.now := by
  refine foldl_keeps State.now (fun st p => ?_) _ s
  split
  · rfl
  · dsimp only; split <;> simp

@[simp] theorem State.collForward_now (s : State) (uid chunk off : Nat) (bs : List (Byte × Bool)) : (s.collForward uid chunk off bs).now = s.now :=
  ite_now rfl (State.collSend_now ..)

@[simp] theorem State.collRest_now (s : State) (k : Coll) (chunk off : Nat) (bs : List (Byte × Bool)) : (s.collRest k chunk off bs).now = s.now :=
  ite_now ((State.collForward_now ..).trans (State.collPut_now ..)) (State.collPut_now ..)

theorem State.collWith_now (s : State) (k : Coll) (chunk off n : Nat) {f : List (Byte × Bool) → State → State} (hf : ∀ own t, (f own t).now = t.now) : (s.collWith k chunk off n f).now = s.now :=
  ite_now (State.failCmd_now ..) ((hf _ _).trans (by simp))

@[simp] theorem State.collTake_now (s : State) (k : Coll) (gather : Bool) (chunk off : Nat) (bs : List Byte) : (s.collTake k gather chunk off bs).now = s.now := by
  refine ite_now (ite_now (State.collPut_now ..) ((State.collSend_now ..).trans (State.collPut_now ..))) (State.collWith_now _ _ _ _ _ fun own t => ?_)
  exact ite_now (State.collRest_now ..) (State.collForward_now ..)

@[simp] theorem State.collData_now (s : State) (uid : Nat) (gather : Bool) (chunk off : Nat) (bs : List Byte) : (s.collData uid gather chunk off bs).now = s.now := by
  unfold State.collData
  split
  · rfl
  · refine ite_now (by simp) ?_
    extract_lets
    split <;> simp

@[simp] theorem State.collArrive_now (s : State) (k : Nat) (pkt : FabPacket) : (s.collArrive k pkt).now = s.now := by
  unfold State.collArrive
  extract_lets
  refine ite_now rfl ?_
  have hadmit := State.admitPacket_now s k 2 pkt
  rcases hpair : s.admitPacket k 2 pkt with ⟨s1, go⟩
  rw [hpair] at hadmit
  refine ite_now hadmit (ite_now ((State.dropReport_now ..).trans hadmit) ?_)
  split
  · exact (State.count_now ..).trans hadmit
  extract_lets differs s2
  clear_value differs
  split
  · exact (State.failCmd_now ..).trans ((State.count_now ..).trans hadmit)
  refine ite_now ((State.dropReport_now ..).trans hadmit) ?_
  have hdata : s2.now = s.now := by
    simp only [s2]
    split
    · exact (State.collData_now ..).trans hadmit
    · exact hadmit
  exact ite_now ((State.collLogged_now ..).trans ((State.modCruJob_now ..).trans hdata)) hdata

@[simp] theorem State.collUnstall_now (s : State) : s.collUnstall.now = s.now :=
  ite_now rfl (foldl_keeps State.now (fun _ _ => State.collArrive_now ..) _ _)

/-- Settling the collectives takes no slow tick. -/
theorem State.settleColls_now (s : State) : s.settleColls.now = s.now := by
  refine (foldl_keeps State.now (fun st k0 => ?_) _ _).trans (State.collUnstall_now s)
  have hlogged : (if k0.toCru then st.collLogged k0.uid else st).now = st.now := ite_now (State.collLogged_now ..) rfl
  dsimp only
  split
  · exact hlogged
  · exact ite_now (by simpa using hlogged) hlogged

end Sys2Proof.Machine

/-! ### Doorbells, fetches, dispatches, completions and timeouts -/

namespace Sys2Proof.Machine

/-- A doorbell whose value lies ahead of the tail and within the ring moves the tail (R46). -/
theorem doorbell_rings {s : State} {q : QueueId} {e : Queue} {v : Nat} (he : s.queue? q = some e) (hlive : e.state ≠ .absent) (hahead : 1 ≤ (v + 2 ^ 32 - e.tail) % 2 ^ 32)
    (hforward : (v + 2 ^ 32 - e.tail) % 2 ^ 32 < 2 ^ 31) (hfits : (v + 2 ^ 32 - e.head) % 2 ^ 32 ≤ 2 ^ e.sizeLog2) :
    s.doorbell q v = s.modQueue q (fun e => { e with tail := v }) := by
  have hback : ¬((v + 2 ^ 32 - e.tail) % 2 ^ 32 = 0 ∨ 2 ^ 31 ≤ (v + 2 ^ 32 - e.tail) % 2 ^ 32) := by omega
  simp only [State.doorbell, State.openAdmin_of_queue? he, he, hlive, hback, Nat.not_lt.mpr hfits, if_false]

/-- A packet whose slots have all been written and read leaves its ring (R44, R53). -/
theorem fetch_whole {s : State} {q : QueueId} {bad : Option Nat} {e : Queue} {h bs : List Byte} (hqueue : s.findQueue q = some e) (hrunning : e.state = .running) (hstop : e.stopping = false)
    (hwait : e.fetchWait = none) (hlead : s.pair.lead = true ∨ s.pairedPart (((s.ctx? q.owner).map (·.part)).getD 32) = false) (hlink : e.inDevice = true ∨ (s.link e.link).state ≠ .down)
    (hheader : s.ringRead e (ringAddrs e 1) bad = .ok h) (hmult : fld h 26 2 % 8 = 0) (hshort : fld h 26 2 ≤ 448) (havail : 1 + cdiv (fld h 26 2) 64 ≤ (e.tail + 2 ^ 32 - e.head) % 2 ^ 32)
    (hslots : s.ringRead e (ringAddrs e (1 + cdiv (fld h 26 2) 64)) bad = .ok bs) :
    s.fetch q bad = (s.sawSlots e (ringAddrs e (1 + cdiv (fld h 26 2) 64))).modQueue q (fun e =>
      { e with head := (e.head + 1 + cdiv (fld h 26 2) 64) % 2 ^ 32, fetched := e.fetched ++ [{ bytes := bs.take (64 + fld h 26 2) }] }) := by
  have hsome : (e.tail + 2 ^ 32 - e.head) % 2 ^ 32 ≠ 0 := by omega
  have hfollower : (!s.pair.lead && s.pairedPart (((s.ctx? q.owner).map (·.part)).getD 32) && decide (q.key ≥ 64)) = false := by
    rcases hlead with hlead | hlead <;> simp [hlead]
  have hup : ¬((!e.inDevice) = true ∧ (s.link e.link).state = .down) := by
    rcases hlink with hlink | hlink <;> simp [hlink]
  simp only [State.fetch, hqueue, hrunning, hstop, hwait, hsome, hfollower, hup, hheader, hmult, Nat.not_lt.mpr hshort, Nat.not_lt.mpr havail, hslots, ne_eq, not_true_eq_false,
    Option.isSome_none, Bool.false_eq_true, or_self, if_false]

/-- Where no command is held, none is tried again. -/
theorem retryHeldCmds_none {s : State} (hheld : ∀ k ∈ s.queues.flatMap (·.running), k.work ≠ .held) (p : Running → Bool) : s.retryHeldCmds p = s := by
  have hnone : (s.queues.filter (fun e => e.state != .preempted)).flatMap (fun e => e.running.filter (fun c => c.work == .held && c.reply.isNone && !c.halt && p c)) = [] := by
    refine List.flatMap_eq_nil_iff.mpr fun e he => List.filter_eq_nil_iff.mpr fun c hc => ?_
    have hwork := hheld c (List.mem_flatMap.mpr ⟨e, (List.mem_filter.mp he).1, hc⟩)
    simp [hwork]
  simp only [State.retryHeldCmds, hnone, insSort, List.foldl_nil]

/-- A queue that has fetched a packet is one of the queues. -/
theorem mem_queues_of_findQueue {s : State} {q : QueueId} {e : Queue} {p : Packet} {rest : List Packet} (hqueue : s.findQueue q = some e) (hfetched : e.fetched = p :: rest) : e ∈ s.queues := by
  unfold State.findQueue at hqueue
  split at hqueue
  · next hfound =>
    obtain rfl := Option.some.inj hqueue
    exact List.mem_of_find?_eq_some hfound
  · obtain rfl := Option.some.inj hqueue
    nomatch hfetched
  · nomatch hqueue

/-- The next packet of a queue that is ready and that nothing outranks or holds starts (R54 to R57). -/
theorem dispatch_starts {s s0 : State} {q : QueueId} {e : Queue} {p : Packet} {rest : List Packet} (hqueue : s.findQueue q = some e) (hfetched : e.fetched = p :: rest) (hready : e.ready = true)
    (houtranked : s.outranked e = false) (hctx : s.ctxHeld q = false) (hfresh : (fld p.bytes 2 1).testBit 5 = false)
    (hfence : e.fenceNeed = none ∧ s0 = s ∨ ∃ sys, e.fenceNeed = some sys ∧ s0 = s.flushQueue q sys) (hposts : s0.fenceHeld e = false) :
    s.dispatch q = (s0.modQueue q (fun e => { e with fetched := rest, fenceAfter := none })).start q p (bodyOf p) := by
  rcases hfence with ⟨hneed, rfl⟩ | ⟨sys, hneed, rfl⟩ <;>
    simp only [State.dispatch, hqueue, hfetched, hready, houtranked, hctx, hneed, hposts, Queue.replayCase, hfresh, Bool.not_true, Bool.false_eq_true, or_self, if_false]

/-- A command that has its outcome has nothing to wait for. -/
theorem settleWait_replied {s : State} {c : Running} {r : Reply} (hreply : c.reply = some r) : s.settleWait c = s := by
  simp only [State.settleWait, hreply, Option.isSome_some, if_true]

/-- An apply is none of the commands whose wait a look at the state can end. -/
theorem settleWait_apply {s : State} {c : Running} (hwork : c.work = .apply) : s.settleWait c = s := by
  simp only [State.settleWait, hwork, ite_self]

/-- A command outside a compared pair that has its outcome, and no add of its own outstanding where it succeeded, completes (R58). -/
theorem execCommandComplete_finishes {s : State} {uid : Nat} {c : Running} {r : Reply} (hclock : s.power.stopped = false) (hcmd : s.settleColls.cmd? uid = some c) (hreply : c.reply = some r)
    (hadds : s.settleColls.cmdAdds uid = false ∨ 0x10 ≤ r.status) (halone : c.matchIndex = 0) : execCommandComplete uid s = .next (s.after (s.settleColls.finish c r).resumeAll) := by
  have hended : ¬(s.settleColls.cmdAdds uid = true ∧ decide (r.status < 0x10) = true) := by
    rcases hadds with hadds | hadds
    · simp [hadds]
    · simp [Nat.not_lt.mpr hadds]
  have hcompared : s.settleColls.compared c = true := by simp [State.compared, halone]
  exact run_next hclock (by simp only [hcmd, settleWait_replied hreply, hreply, Option.bind_some, Option.map_some, Option.getD_some, hended, halone, ne_eq, not_true_eq_false, and_false, if_false,
    State.complete, hcompared, if_true])

/-- At its timeout an apply that no host page and no ladle holds ends with ERR_TIMEOUT (R79). -/
theorem timeoutCommand_apply {s : State} {uid : Nat} {c : Running} (hcmd : s.settleColls.cmd? uid = some c) (hreply : c.reply = none) (hwork : c.work = .apply)
    (hhost : s.settleColls.parkedHost uid = none) (hladle : s.settleColls.inLadle uid = false) (htimeout : c.timeout ≠ 0) (hlater : c.resolvedAt ≠ some s.settleColls.now) :
    s.timeoutCommand uid = (s.settleColls.failAt uid errTimeout).resumeAll := by
  rw [State.settleColls_now] at hlater
  simp only [State.timeoutCommand, hcmd, settleWait_apply hwork, hreply, hwork, hhost, hladle, htimeout, hlater, Option.bind_some, Bool.false_eq_true, or_self, if_false]

/-- A batch that has reached its deadline issues (R82). -/
theorem fillExpired_issues {s : State} {p g : Nat} {k : FillGroup} {b : Batch} (hgroup : s.fill? p g = some k) (hopen : k.openBatch = some b) (hdeadline : k.deadline ≠ 0) (hbatch : b.noDeadline = false)
    (hnow : b.openedAt + k.deadline ≤ s.now) : s.fillExpired p g = s.issueBatch p g 24 24 := by
  simp only [State.fillExpired, hgroup, hopen, hdeadline, hbatch, Nat.not_lt.mpr hnow, Bool.false_eq_true, or_self, if_false]

/-- Settles O41: what doorbells, fetches, dispatches, completions and timeouts do under their conditions. -/
theorem queueEventsComplete : Obligations.QueueEventsComplete := by
  unfold Obligations.QueueEventsComplete
  simp only [exec]
  refine ⟨?doorbell, ?fetch, ?dispatch, ?complete, ?timer, ?timeout, ?fillTimer, ?fill⟩
  case doorbell =>
    intro s fn q e v hclock hsees he hlive hahead hforward hfits
    exact run_next hclock (by rw [if_pos hsees, doorbell_rings he hlive hahead hforward hfits])
  case fetch =>
    intro s q bad e h bs hclock hqueue hrunning hstop hwait hlead hlink hheader hmult hshort havail hslots
    exact run_next hclock (fetch_whole hqueue hrunning hstop hwait hlead hlink hheader hmult hshort havail hslots)
  case dispatch =>
    intro s s0 q e p rest hclock hheld hqueue hfetched hloud hready houtranked hctx hfresh hfence hposts
    have hblocks : e.running.any s.blocksQueue = false := List.any_eq_false.mpr fun c hc => by
      simp [State.blocksQueue, hheld c (List.mem_flatMap.mpr ⟨e, mem_queues_of_findQueue hqueue hfetched, hc⟩)]
    have hleads : (decide (64 ≤ q.key) && s.silent (s.queuePart q)) = false := by
      rcases hloud with hloud | hloud
      · simp [Nat.not_le.mpr hloud]
      · simp [hloud]
    exact run_next hclock (by simp only [retryHeldCmds_none hheld, hqueue, Option.map_some, Option.getD_some, hblocks, hleads, Bool.false_eq_true, if_false,
      dispatch_starts hqueue hfetched hready houtranked hctx hfresh hfence hposts])
  case complete =>
    rintro s _ uid c r hclock rfl hcmd hreply hadds halone
    exact execCommandComplete_finishes hclock hcmd hreply hadds halone
  case timer => exact fun s uid hclock => run_eq s (fun s => s.expire (.command uid)) hclock
  case timeout =>
    rintro s _ uid c rfl hcmd hreply hwork hhost hladle htimeout hlater
    exact timeoutCommand_apply hcmd hreply hwork hhost hladle htimeout hlater
  case fillTimer => exact fun s p g hclock => run_eq s (fun s => s.expire (.fill p g)) hclock
  case fill => exact fun s p g k b hgroup hopen hdeadline hbatch hnow => fillExpired_issues hgroup hopen hdeadline hbatch hnow

end Sys2Proof.Machine
